-- ==== Sys2Proof/Word.lean ====
section
/-!
DEFINITION. Words of the Uzonas MB4: the machine word, bytes, vector images, and their plainest arithmetic.
-/

namespace Sys2Proof

/-- A 64-bit machine word (R58). -/
abbrev W64 := BitVec 64

/-- One byte of memory. -/
abbrev Byte := BitVec 8

/-- The 128-byte image of a vector register (R115). -/
abbrev VImage := BitVec 1024

/-- Sets the least significant bit of a word to a truth value: 1 for true, 0 for false. -/
def boolWord (b : Bool) : W64 := if b then 1 else 0

end Sys2Proof
end

