-- ==== Sys2Proof/Config.lean ====
section
/-!
DEFINITION. The free values: what the manual leaves open or leaves to software outside the device. Each is a constant
without a body, so that nothing can rest on a value of it.
-/

namespace Sys2Proof.Config

/-- Order of agents and other choices the manual leaves open: the n-th choice (DESIGN CHOICE, log 5). -/
opaque freeNat : Nat → Nat

/-- The result of FLOG2 or FEXP2 in a case that 256 bits of working precision cannot decide; no such case is known
(DESIGN CHOICE, log 8). -/
opaque freeReal : Nat → W64 → Nat

/-- Which of the package's edge routers hosts fabric port p (R212, R346 give none; DESIGN CHOICE, log 10). -/
opaque portRouter : Nat → Nat

/-- The 80 bytes, flit header and payload, that carry a block of a collective out of a port: port, collective id, block,
and the block's bytes (R351, R352 give no layout; DESIGN CHOICE, log 15). -/
opaque blockFlit : Nat → Nat → Nat → List Byte → List Byte

/-- The block that 80 bytes of a flit slot carry, if any: collective id, block, and its bytes (DESIGN CHOICE, log 15). -/
opaque flitBlock : List Byte → Option (Nat × Nat × List Byte)

/-- Whether a byte string carries a valid ML-DSA-65 signature under the vendor key (R342; DESIGN CHOICE, log 11). -/
opaque vendorSigned : List Byte → Bool

/-- ML-DSA-65 signature of a byte string under the device identity key, 3,309 bytes (R343; DESIGN CHOICE, log 11). -/
opaque identitySign : List Byte → List Byte

/-- The identity public key, 1,952 bytes (R343; DESIGN CHOICE, log 11). -/
opaque identityKey : List Byte

/-- The contents of the boot ROM as measured into m0 (R342; DESIGN CHOICE, log 11). -/
opaque romImage : List Byte

/-- Firmware's management partition, to which the physical function belongs (R334 gives no number; DESIGN CHOICE, log 11). -/
opaque managementPart : Nat

/-- The bytes of the partition setup that the attestation report digests: for each partition its stacks, clusters, virtual
functions and chip scratchpad (R343 gives no layout; DESIGN CHOICE, log 11). -/
opaque setupImage : List (Nat × Nat × Nat × Nat) → List Byte

/-- How many steps may pass before the oldest work of another agent, or the turn of the slot whose turn it is, is taken: the
manual bounds it only by finite time (R4, R272, R328; DESIGN CHOICE, log 5). -/
opaque patience : Nat

/-- Where in its partition's memory firmware has put the save area of a gang, as a number of 4 KiB frames: launch, gang
(R254 names it; no register carries it; DESIGN CHOICE, log 26). -/
opaque saveArea : Nat → Nat → Nat

/-- The four check symbols of a protected string (R297 gives neither the field's polynomial nor the generator; DESIGN
CHOICE, log 9). -/
opaque checkSymbols : List Byte → BitVec 32

/-- The check symbols of a line that is marked uncorrectable, by line (R163, R298; DESIGN CHOICE, log 9). -/
opaque markedSymbols : Nat → BitVec 32

/-- Size of a function's BAR2 window as a number of doublings of 1 GiB (R334: the host resizes it; DESIGN CHOICE, log 34). -/
opaque barDoublings : Nat → Nat

end Sys2Proof.Config
end

