-- ==== Sys2Proof/Syntax.lean ====
section
/-!
DEFINITION. The instructions as syntax: operand forms (R41), modifiers (R43–R45), one structure of fields per shape of
word, and `Instr`, one constructor per row of the opcode table: the 213 words of R46 and the 81 steps that the other
agents of the device perform.
-/

namespace Sys2Proof

/-- A neighbour-link direction (R180). -/
inductive Dir where
  | dn | de | ds | dw
  deriving DecidableEq, Repr

/-- A source operand (R41). `imm` is read only from field A of an I-format word. -/
inductive Src where
  | q (i : Fin 16)
  | n (i : Fin 24)
  | s (i : Fin 8)
  | m (i : Fin 8)
  | link (d : Dir)
  | z
  | imm
  | hb
  deriving DecidableEq, Repr

/-- A destination operand (R41): `push` is D = q0, `z` discards. -/
inductive Dst where
  | push
  | n (i : Fin 24)
  | s (i : Fin 8)
  | m (i : Fin 8)
  | link (d : Dir)
  | z
  deriving DecidableEq, Repr

/-- A vector register v0–v15. -/
abbrev VReg := Fin 16

/-- Integer type .D or .W (R43). -/
inductive WTy where
  | d | w
  deriving DecidableEq, Repr

/-- Integer type or memory width .D, .W, .H, .B (R43). -/
inductive IntTy where
  | d | w | h | b
  deriving DecidableEq, Repr

/-- FP type (R43). -/
inductive FpTy where
  | f32 | f64 | f16 | bf16
  deriving DecidableEq, Repr

/-- Element kind of the forms of opcodes 0x33–0x36 that read numbers (R116): .D FP64, .W FP32, .H BF16. -/
inductive NumTy where
  | d | w | h
  deriving DecidableEq, Repr

/-- Element kind of VMAXI, VCMPR and VSELK: .W or .H only (R127–R129). -/
inductive RankTy where
  | w | h
  deriving DecidableEq, Repr

/-- Rounding mode (R61). -/
inductive Rm where
  | rne | rtz | rdn | rup
  deriving DecidableEq, Repr

/-- Memory space (R160). -/
inductive Space where
  | glb | spd | cls | chp
  deriving DecidableEq, Repr

/-- Space of a circular buffer (R173). -/
inductive CbSpace where
  | spd | cls
  deriving DecidableEq, Repr

/-- L1 policy (R176). -/
inductive Policy where
  | nrm | once | noal | keep
  deriving DecidableEq, Repr

/-- Scope of an ordered operation (R9). -/
inductive Scope where
  | co | cl | di | pk | sy
  deriving DecidableEq, Repr

/-- Ordering and scope (R44); `rlx` is .RLX.SL. -/
inductive Ord where
  | rlx
  | acq (s : Scope)
  | rel (s : Scope)
  | ar (s : Scope)
  deriving DecidableEq, Repr

/-- Conversion kinds (R45); `nf` is the narrow format of the named format register. -/
inductive Kind where
  | f32 | f64 | f16 | bf16 | nf | i8 | i16 | i32 | i64 | u8 | u16 | u32 | u64
  deriving DecidableEq, Repr

/-- Streamed kinds of a contracting load (R143). -/
inductive CldKind where
  | f32 | f16 | bf16 | nf | i8
  deriving DecidableEq, Repr

/-- Operation of VRED (R122). -/
inductive RedOp where
  | add | min | max
  deriving DecidableEq, Repr

/-- Layout of a resident operand (R137). -/
inductive Layout where
  | km | mk
  deriving DecidableEq, Repr

/-- Register count of ITER (R103). -/
inductive IterCount where
  | one | two | three
  deriving DecidableEq, Repr

/-- Atomic operations (R46, R239). -/
inductive AmoOp where
  | add | min | max | minu | maxu | and | or | xor | swap | fadd | fmin | fmax | badd | bmin | bmax
  deriving DecidableEq, Repr

/-- FP type of RDX (R310). -/
inductive RdxTy where
  | f32 | bf16
  deriving DecidableEq, Repr

/-- The kind of a memory access, as the page check and the fault message name it (R188, R201). -/
inductive Access where
  | read | write | atomic | fetch | sector | claim | engine
  deriving DecidableEq, Repr

/-- What root logic found in a line (R305). -/
inductive EccEvent where
  | clean
  | corrected (symbols : Nat)
  | uncorrectable
  | directory
  deriving DecidableEq, Repr

/-- Where a host's access goes (R334, R335): an offset in the register window or in the memory window of a function. -/
inductive BarOffset where
  | bar0 (offset : Nat)
  | bar2 (offset : Nat)
  deriving DecidableEq, Repr

/-- The class that a page is to have and whether it is to be tolerant of errors (R187, R237). -/
structure PageKind where
  cls : BitVec 2
  tol : Bool
  deriving DecidableEq, Repr

/-- A register message on its way (R214, R221): the target slot and register, the value, the TOPX and service bits it
carries, and the slot that sent it. `notice` marks a refusal notice (R222). -/
structure RegMsg where
  core : Nat
  slot : Nat
  reg : Nat
  value : W64
  topx : Bool
  svc : Bool
  srcCore : Nat
  srcSlot : Nat
  notice : Bool
  /-- id of the thread that sent it, which no flit carries: what a FENCE of the thread waits for (R273) -/
  tid : BitVec 64 := 0
  deriving DecidableEq, Repr

/-- A request for a reassembly slot and a pool slot (R225, R226): the slot that migrates and the target cluster
(16 × die + cluster). -/
structure XferReq where
  srcCore : Nat
  srcSlot : Nat
  dest : Nat
  deriving DecidableEq, Repr

/-- Operands: INT-R operands (R92). -/
structure IntR where
  stall : BitVec 3
  d : Dst
  a : Src
  b : Src
  w : WTy
  deriving DecidableEq, Repr

/-- Operands: INT-I operands (R92): A may be `imm`. -/
structure IntI where
  stall : BitVec 3
  d : Dst
  a : Src
  w : WTy
  zx : Bool
  imm : BitVec 32
  deriving DecidableEq, Repr

/-- Operands: unary BIT operands (R94). -/
structure BitU where
  stall : BitVec 3
  d : Dst
  a : Src
  w : IntTy
  deriving DecidableEq, Repr

/-- Operands: BEXT and BINS operands (R94). -/
structure BitT where
  stall : BitVec 3
  d : Dst
  a : Src
  b : Src
  c : Src
  w : IntTy
  deriving DecidableEq, Repr

/-- Operands: CMP operands (R95). -/
structure CmpR where
  stall : BitVec 3
  d : Dst
  a : Src
  b : Src
  w : IntTy
  deriving DecidableEq, Repr

/-- Operands: SEL operands (R95). -/
structure SelR where
  stall : BitVec 3
  d : Dst
  a : Src
  b : Src
  c : Src
  deriving DecidableEq, Repr

/-- Operands: LI operands (R96). -/
structure LiI where
  stall : BitVec 3
  d : Dst
  zx : Bool
  imm : BitVec 32
  deriving DecidableEq, Repr

/-- Operands: LIH operands (R96): A may be `imm`. -/
structure LihI where
  stall : BitVec 3
  d : Dst
  a : Src
  imm : BitVec 32
  deriving DecidableEq, Repr

/-- Operands: LEA operands (R97). -/
structure LeaM where
  stall : BitVec 3
  d : Dst
  a : Src
  b : Src
  sh : BitVec 3
  off : BitVec 24
  deriving DecidableEq, Repr

/-- Operands: skip operands (R98). -/
structure SkipC where
  stall : BitVec 3
  a : Src
  cnt : BitVec 32
  deriving DecidableEq, Repr

/-- Operands: BR and CALL (R99). -/
structure JmpC where
  stall : BitVec 3
  disp : BitVec 32
  deriving DecidableEq, Repr

/-- Operands: BRZ and BRNZ (R99). -/
structure JmpA where
  stall : BitVec 3
  a : Src
  disp : BitVec 32
  deriving DecidableEq, Repr

/-- Operands: CALLR, JMPR and NEST (R99, R101). -/
structure UnC where
  stall : BitVec 3
  a : Src
  deriving DecidableEq, Repr

/-- Operands: RET (R99). -/
structure BareC where
  stall : BitVec 3
  deriving DecidableEq, Repr

/-- Operands: ITER (R103): first register `d`, register count `cnt`. -/
structure IterC where
  stall : BitVec 3
  d : Fin 24
  cnt : IterCount
  disp : BitVec 32
  deriving DecidableEq, Repr

/-- Operands: a word with no operand (R105, R113). -/
structure BareI where
  stall : BitVec 3
  deriving DecidableEq, Repr

/-- Operands: STALLN and PARK (R105). -/
structure CountI where
  stall : BitVec 3
  n : BitVec 32
  deriving DecidableEq, Repr

/-- Operands: two-source scalar FP (R107). -/
structure Fp2 where
  stall : BitVec 3
  d : Dst
  a : Src
  b : Src
  ty : FpTy
  rm : Rm
  ftz : Bool
  deriving DecidableEq, Repr

/-- Operands: one-source scalar FP (R107). -/
structure Fp1 where
  stall : BitVec 3
  d : Dst
  a : Src
  ty : FpTy
  rm : Rm
  ftz : Bool
  deriving DecidableEq, Repr

/-- Operands: two-source scalar FP without a rounding mode: FMIN, FMAX and compares (R107, R108). -/
structure Fp2n where
  stall : BitVec 3
  d : Dst
  a : Src
  b : Src
  ty : FpTy
  ftz : Bool
  deriving DecidableEq, Repr

/-- Operands: FCLASS (R108). -/
structure Fp1n where
  stall : BitVec 3
  d : Dst
  a : Src
  ty : FpTy
  ftz : Bool
  deriving DecidableEq, Repr

/-- Operands: three-source scalar FP (R107). -/
structure Fp3 where
  stall : BitVec 3
  d : Dst
  a : Src
  b : Src
  c : Src
  ty : FpTy
  rm : Rm
  ftz : Bool
  deriving DecidableEq, Repr

/-- Operands: FCVT (R109). -/
structure ConvR where
  stall : BitVec 3
  d : Dst
  a : Src
  dk : Kind
  sk : Kind
  rm : Rm
  ftz : Bool
  fmt : Fin 8
  deriving DecidableEq, Repr

/-- Operands: VCVT (R130): the mask stands in field B. -/
structure ConvV where
  stall : BitVec 3
  d : VReg
  a : VReg
  k : Src
  dk : Kind
  sk : Kind
  rm : Rm
  ftz : Bool
  fmt : Fin 8
  deriving DecidableEq, Repr

/-- Operands: SYSRD (R110). -/
structure SysrdI where
  stall : BitVec 3
  d : Dst
  reg : BitVec 32
  deriving DecidableEq, Repr

/-- Operands: SYSWR (R110): A may be `imm`. -/
structure SyswrI where
  stall : BitVec 3
  a : Src
  reg : BitVec 32
  deriving DecidableEq, Repr

/-- Operands: TRAP (R112). -/
structure TrapI where
  stall : BitVec 3
  imm : BitVec 32
  deriving DecidableEq, Repr

/-- Operands: TRACE (R114): A may be `imm`. -/
structure TraceI where
  stall : BitVec 3
  a : Src
  tag : BitVec 32
  deriving DecidableEq, Repr

/-- Operands: two-source vector FP (R119). -/
structure V2 where
  stall : BitVec 3
  d : VReg
  a : VReg
  b : VReg
  ty : FpTy
  rm : Rm
  ftz : Bool
  k : Src
  deriving DecidableEq, Repr

/-- Operands: VMIN and VMAX (R119). -/
structure V2n where
  stall : BitVec 3
  d : VReg
  a : VReg
  b : VReg
  ty : FpTy
  ftz : Bool
  k : Src
  deriving DecidableEq, Repr

/-- Operands: one-source vector FP (R119). -/
structure V1 where
  stall : BitVec 3
  d : VReg
  a : VReg
  ty : FpTy
  rm : Rm
  ftz : Bool
  k : Src
  deriving DecidableEq, Repr

/-- Operands: three-source vector FP (R119). -/
structure V3 where
  stall : BitVec 3
  d : VReg
  a : VReg
  b : VReg
  c : VReg
  ty : FpTy
  rm : Rm
  ftz : Bool
  k : Src
  deriving DecidableEq, Repr

/-- Operands: vector integer (R120). -/
structure VI2 where
  stall : BitVec 3
  d : VReg
  a : VReg
  b : VReg
  w : IntTy
  k : Src
  deriving DecidableEq, Repr

/-- Operands: vector compares (R121). -/
structure VCmp where
  stall : BitVec 3
  d : Dst
  a : VReg
  b : VReg
  ty : NumTy
  ftz : Bool
  k : Src
  deriving DecidableEq, Repr

/-- Operands: VSEL (R121). -/
structure VSelR where
  stall : BitVec 3
  d : VReg
  a : VReg
  b : VReg
  c : Src
  w : WTy
  k : Src
  deriving DecidableEq, Repr

/-- Operands: VRED (R122). -/
structure VRedR where
  stall : BitVec 3
  op : RedOp
  d : Dst
  a : VReg
  ty : NumTy
  rm : Rm
  ftz : Bool
  k : Src
  deriving DecidableEq, Repr

/-- Operands: VRMAXI (R126). -/
structure VRmaxR where
  stall : BitVec 3
  d : Dst
  a : VReg
  ty : NumTy
  ftz : Bool
  k : Src
  deriving DecidableEq, Repr

/-- Operands: VSCAN (R123). -/
structure VScanR where
  stall : BitVec 3
  d : VReg
  a : VReg
  ty : NumTy
  rm : Rm
  ftz : Bool
  k : Src
  deriving DecidableEq, Repr

/-- Operands: VSPLAT (R124). -/
structure VSplatR where
  stall : BitVec 3
  d : VReg
  a : Src
  w : WTy
  k : Src
  deriving DecidableEq, Repr

/-- Operands: VLANE (R124). -/
structure VLaneR where
  stall : BitVec 3
  d : Dst
  a : VReg
  b : Src
  w : WTy
  k : Src
  deriving DecidableEq, Repr

/-- Operands: VINS (R124). -/
structure VInsR where
  stall : BitVec 3
  d : VReg
  a : VReg
  b : Src
  c : Src
  w : WTy
  k : Src
  deriving DecidableEq, Repr

/-- Operands: VPERM (R124). -/
structure VPermR where
  stall : BitVec 3
  d : VReg
  a : VReg
  b : VReg
  w : WTy
  k : Src
  deriving DecidableEq, Repr

/-- Operands: VMAXI and VCMPR (R127, R128). -/
structure VRankR where
  stall : BitVec 3
  d : VReg
  a : VReg
  b : VReg
  ty : RankTy
  ftz : Bool
  k : Src
  deriving DecidableEq, Repr

/-- Operands: VSELK (R129). -/
structure VSelkR where
  stall : BitVec 3
  d : Dst
  a : VReg
  b : Src
  ty : RankTy
  ftz : Bool
  k : Src
  deriving DecidableEq, Repr

/-- Operands: VLDL (R132). -/
structure VldlR where
  stall : BitVec 3
  d : VReg
  a : Src
  k : Src
  deriving DecidableEq, Repr

/-- Operands: VSTL (R132). -/
structure VstlR where
  stall : BitVec 3
  a : Src
  b : VReg
  k : Src
  deriving DecidableEq, Repr

/-- Operands: ODEF (R138). -/
structure OdefR where
  stall : BitVec 3
  a : Src
  b : Src
  c : Src
  os : Fin 8
  fmt : Fin 8
  layout : Layout
  deriving DecidableEq, Repr

/-- Operands: SPFENCE (R140). -/
structure SpfI where
  stall : BitVec 3
  mask : BitVec 8
  deriving DecidableEq, Repr

/-- Operands: a word that names a tile only (R142, R153). -/
structure TileR where
  stall : BitVec 3
  tile : Fin 16
  deriving DecidableEq, Repr

/-- Operands: CRD (R142). -/
structure CrdR where
  stall : BitVec 3
  d : VReg
  a : Src
  tile : Fin 16
  deriving DecidableEq, Repr

/-- Operands: CWR (R142). -/
structure CwrR where
  stall : BitVec 3
  a : Src
  b : VReg
  tile : Fin 16
  deriving DecidableEq, Repr

/-- Operands: CLD (R143): kind of the stream, its format register. -/
structure CldR where
  stall : BitVec 3
  a : Src
  b : Src
  c : Src
  tile : Fin 16
  os : Fin 8
  kind : CldKind
  fmt : Fin 8
  deriving DecidableEq, Repr

/-- Operands: CQRY (R153). -/
structure CqryR where
  stall : BitVec 3
  d : Dst
  tile : Fin 16
  deriving DecidableEq, Repr

/-- Operands: LD (R165). -/
structure LdM where
  stall : BitVec 3
  d : Dst
  a : Src
  off : BitVec 24
  w : IntTy
  sx : Bool
  sp : Space
  pol : Policy
  ord : Ord
  deriving DecidableEq, Repr

/-- Operands: ST (R165). -/
structure StM where
  stall : BitVec 3
  a : Src
  b : Src
  off : BitVec 24
  w : IntTy
  sp : Space
  pol : Policy
  ord : Ord
  deriving DecidableEq, Repr

/-- Operands: LDC (R175). -/
structure LdcM where
  stall : BitVec 3
  d : Dst
  a : Src
  off : BitVec 24
  deriving DecidableEq, Repr

/-- Operands: STF (R175). -/
structure StfM where
  stall : BitVec 3
  a : Src
  b : Src
  off : BitVec 24
  deriving DecidableEq, Repr

/-- Operands: SBIND (R169). -/
structure SbindR where
  stall : BitVec 3
  a : Src
  b : Src
  c : Src
  es : BitVec 2
  wr : Bool
  sp : Space
  s : Fin 8
  deriving DecidableEq, Repr

/-- Operands: SUNB (R169). -/
structure SunbR where
  stall : BitVec 3
  s : Fin 8
  deriving DecidableEq, Repr

/-- Operands: SSTAT (R169): one destination. -/
structure DR where
  stall : BitVec 3
  d : Dst
  deriving DecidableEq, Repr

/-- Operands: PREF (R168). -/
structure PrefM where
  stall : BitVec 3
  a : Src
  off : BitVec 24
  pol : Policy
  sp : Space
  deriving DecidableEq, Repr

/-- Operands: CWB, CINV and ALINV (R235). -/
structure RngM where
  stall : BitVec 3
  a : Src
  b : Src
  off : BitVec 24
  deriving DecidableEq, Repr

/-- Operands: FENCE (R273). -/
structure FenceI where
  stall : BitVec 3
  ord : Ord
  deriving DecidableEq, Repr

/-- Operands: QFENCE (R275). -/
structure QfI where
  stall : BitVec 3
  mask : BitVec 6
  deriving DecidableEq, Repr

/-- Operands: VLD (R166). -/
structure VldR where
  stall : BitVec 3
  d : VReg
  a : Src
  sp : Space
  pol : Policy
  ord : Ord
  k : Src
  deriving DecidableEq, Repr

/-- Operands: VST (R166). -/
structure VstR where
  stall : BitVec 3
  a : Src
  b : VReg
  sp : Space
  pol : Policy
  ord : Ord
  k : Src
  deriving DecidableEq, Repr

/-- Operands: VLDS (R166). -/
structure VldsR where
  stall : BitVec 3
  d : VReg
  a : Src
  c : Src
  sp : Space
  pol : Policy
  ord : Ord
  k : Src
  deriving DecidableEq, Repr

/-- Operands: VSTS (R166). -/
structure VstsR where
  stall : BitVec 3
  a : Src
  b : VReg
  c : Src
  sp : Space
  pol : Policy
  ord : Ord
  k : Src
  deriving DecidableEq, Repr

/-- Operands: VGTH (R166). -/
structure VgthR where
  stall : BitVec 3
  d : VReg
  a : Src
  b : VReg
  sp : Space
  pol : Policy
  ord : Ord
  k : Src
  deriving DecidableEq, Repr

/-- Operands: VSCT (R166). -/
structure VsctR where
  stall : BitVec 3
  a : Src
  b : VReg
  c : VReg
  sp : Space
  pol : Policy
  ord : Ord
  k : Src
  deriving DecidableEq, Repr

/-- Operands: VLDB (R167). -/
structure VldbR where
  stall : BitVec 3
  fmt : Fin 8
  d : VReg
  a : Src
  c : Src
  sp : Space
  pol : Policy
  ord : Ord
  k : Src
  deriving DecidableEq, Repr

/-- Operands: VSTB (R167). -/
structure VstbR where
  stall : BitVec 3
  fmt : Fin 8
  a : Src
  b : VReg
  c : Src
  sp : Space
  pol : Policy
  ord : Ord
  k : Src
  deriving DecidableEq, Repr

/-- Operands: CBDEF (R173). -/
structure CbdefR where
  stall : BitVec 3
  a : Src
  b : Src
  c : Src
  cb : Fin 8
  sp : CbSpace
  deriving DecidableEq, Repr

/-- Operands: CBRSV and CBTAKE (R173). -/
structure CbdR where
  stall : BitVec 3
  d : Dst
  cb : Fin 8
  deriving DecidableEq, Repr

/-- Operands: CBPUB and CBREL (R173). -/
structure CbR where
  stall : BitVec 3
  cb : Fin 8
  deriving DecidableEq, Repr

/-- Operands: AMO (R238). -/
structure AmoR where
  stall : BitVec 3
  op : AmoOp
  d : Dst
  a : Src
  b : Src
  w : WTy
  sp : Space
  ord : Ord
  deriving DecidableEq, Repr

/-- Operands: RED (R238). -/
structure RedR where
  stall : BitVec 3
  op : AmoOp
  a : Src
  b : Src
  w : WTy
  sp : Space
  ord : Ord
  deriving DecidableEq, Repr

/-- Operands: CAS (R238). -/
structure CasR where
  stall : BitVec 3
  d : Dst
  a : Src
  b : Src
  c : Src
  w : WTy
  sp : Space
  ord : Ord
  deriving DecidableEq, Repr

/-- Operands: LRW (R301). -/
structure LrwR where
  stall : BitVec 3
  d : Dst
  a : Src
  w : WTy
  ord : Ord
  deriving DecidableEq, Repr

/-- Operands: SCH (R301). -/
structure SchR where
  stall : BitVec 3
  d : Dst
  a : Src
  b : Src
  w : WTy
  deriving DecidableEq, Repr

/-- Operands: RREL (R301). -/
structure RrelR where
  stall : BitVec 3
  a : Src
  w : WTy
  deriving DecidableEq, Repr

/-- Operands: BARR, BARA and one-source words with a variable-latency result (R243, R320, R248). -/
structure DlA where
  stall : BitVec 3
  d : Dst
  a : Src
  deriving DecidableEq, Repr

/-- Operands: BARW and HPRIO: two sources (R243, R320). -/
structure AB where
  stall : BitVec 3
  a : Src
  b : Src
  deriving DecidableEq, Repr

/-- Operands: MWAIT and HFREE: one source (R244, R320). -/
structure UnR where
  stall : BitVec 3
  a : Src
  deriving DecidableEq, Repr

/-- Operands: SEND and LBSEND (R221). -/
structure SendR where
  stall : BitVec 3
  a : Src
  b : Src
  mreg : Fin 8
  deriving DecidableEq, Repr

/-- Operands: MPEEK (R221). -/
structure MpeekR where
  stall : BitVec 3
  d : Dst
  mreg : Fin 8
  deriving DecidableEq, Repr

/-- Operands: MCLR (R221). -/
structure MclrR where
  stall : BitVec 3
  mreg : Fin 8
  deriving DecidableEq, Repr

/-- Operands: INBX and GQCLM: one variable-latency destination (R224, R353). -/
structure DlR where
  stall : BitVec 3
  d : Dst
  deriving DecidableEq, Repr

/-- Operands: MIGRATE (R226). -/
structure MigC where
  stall : BitVec 3
  a : Src
  disp : BitVec 32
  deriving DecidableEq, Repr

/-- Operands: HOMEC (R228). -/
structure HomeC where
  stall : BitVec 3
  d : Dst
  a : Src
  deriving DecidableEq, Repr

/-- Operands: CPY (R194). -/
structure CpyR where
  stall : BitVec 3
  a : Src
  b : Src
  eq : Fin 4
  deriving DecidableEq, Repr

/-- Operands: CPYL (R194). -/
structure CpylR where
  stall : BitVec 3
  a : Src
  b : Src
  c : Src
  eq : Fin 4
  deriving DecidableEq, Repr

/-- Operands: EQRY (R199). -/
structure EqryR where
  stall : BitVec 3
  d : Dst
  eq : Fin 4
  deriving DecidableEq, Repr

/-- Operands: RDX (R310). -/
structure RdxR where
  stall : BitVec 3
  a : Src
  b : Src
  ty : RdxTy
  deriving DecidableEq, Repr

/-- Operands: RQZ (R313). -/
structure ABC where
  stall : BitVec 3
  a : Src
  b : Src
  c : Src
  deriving DecidableEq, Repr

/-- Operands: HNEW (R320). -/
structure HnewR where
  stall : BitVec 3
  d : Dst
  a : Src
  b : Src
  deriving DecidableEq, Repr

/-- Operands: HLD and HLDW (R322). -/
structure HldM where
  stall : BitVec 3
  d : Dst
  a : Src
  off : BitVec 24
  w : IntTy
  sx : Bool
  deriving DecidableEq, Repr

/-- Operands: HST (R322). -/
structure HstM where
  stall : BitVec 3
  a : Src
  b : Src
  off : BitVec 24
  w : IntTy
  deriving DecidableEq, Repr

/-- Operands: BADDQ (R354). -/
structure BaddqR where
  stall : BitVec 3
  a : Src
  b : Src
  c : Src
  fmt : Fin 8
  deriving DecidableEq, Repr

/-- The instructions of Rollor (R46) and the steps of the device's other agents: one constructor per row of the
opcode table. A word constructor holds the decoded fields of its word; a step constructor names the unit it acts on. -/
inductive Instr where
  | add (x : IntR)
  | addImm (x : IntI)
  | sub (x : IntR)
  | subImm (x : IntI)
  | mul (x : IntR)
  | mulImm (x : IntI)
  | mulh (x : IntR)
  | mulhImm (x : IntI)
  | mulhu (x : IntR)
  | mulhuImm (x : IntI)
  | div (x : IntR)
  | divImm (x : IntI)
  | divu (x : IntR)
  | divuImm (x : IntI)
  | rem (x : IntR)
  | remImm (x : IntI)
  | remu (x : IntR)
  | remuImm (x : IntI)
  | and (x : IntR)
  | andImm (x : IntI)
  | or (x : IntR)
  | orImm (x : IntI)
  | xor (x : IntR)
  | xorImm (x : IntI)
  | andn (x : IntR)
  | andnImm (x : IntI)
  | shl (x : IntR)
  | shlImm (x : IntI)
  | shr (x : IntR)
  | shrImm (x : IntI)
  | sra (x : IntR)
  | sraImm (x : IntI)
  | rot (x : IntR)
  | rotImm (x : IntI)
  | min (x : IntR)
  | minImm (x : IntI)
  | max (x : IntR)
  | maxImm (x : IntI)
  | minu (x : IntR)
  | minuImm (x : IntI)
  | maxu (x : IntR)
  | maxuImm (x : IntI)
  | clz (x : BitU)
  | ctz (x : BitU)
  | popc (x : BitU)
  | brev (x : BitU)
  | bext (x : BitT)
  | bins (x : BitT)
  | sext (x : BitU)
  | zext (x : BitU)
  | abs (x : BitU)
  | neg (x : BitU)
  | cmpeq (x : CmpR)
  | cmpne (x : CmpR)
  | cmplt (x : CmpR)
  | cmple (x : CmpR)
  | cmpltu (x : CmpR)
  | cmpleu (x : CmpR)
  | sel (x : SelR)
  | li (x : LiI)
  | lih (x : LihI)
  | lea (x : LeaM)
  | skipz (x : SkipC)
  | skipnz (x : SkipC)
  | br (x : JmpC)
  | brz (x : JmpA)
  | brnz (x : JmpA)
  | call (x : JmpC)
  | callr (x : UnC)
  | jmpr (x : UnC)
  | ret (x : BareC)
  | nest (x : UnC)
  | iter (x : IterC)
  | nop (x : BareI)
  | stalln (x : CountI)
  | yield (x : BareI)
  | park (x : CountI)
  | exit (x : BareI)
  | fadd (x : Fp2)
  | fsub (x : Fp2)
  | fmul (x : Fp2)
  | fdiv (x : Fp2)
  | fsqrt (x : Fp1)
  | fmin (x : Fp2n)
  | fmax (x : Fp2n)
  | frcp (x : Fp1)
  | frsq (x : Fp1)
  | flog2 (x : Fp1)
  | fexp2 (x : Fp1)
  | fma (x : Fp3)
  | fms (x : Fp3)
  | fnma (x : Fp3)
  | fceq (x : Fp2n)
  | fclt (x : Fp2n)
  | fcle (x : Fp2n)
  | fcun (x : Fp2n)
  | fclass (x : Fp1n)
  | fcvt (x : ConvR)
  | sysrd (x : SysrdI)
  | syswr (x : SyswrI)
  | trap (x : TrapI)
  | eret (x : BareI)
  | trace (x : TraceI)
  | vadd (x : V2)
  | vsub (x : V2)
  | vmul (x : V2)
  | vdiv (x : V2)
  | vsqrt (x : V1)
  | vmin (x : V2n)
  | vmax (x : V2n)
  | vrcp (x : V1)
  | vrsq (x : V1)
  | vlog2 (x : V1)
  | vexp2 (x : V1)
  | vfma (x : V3)
  | vfms (x : V3)
  | viadd (x : VI2)
  | visub (x : VI2)
  | vimul (x : VI2)
  | vand (x : VI2)
  | vor (x : VI2)
  | vxor (x : VI2)
  | vshl (x : VI2)
  | vshr (x : VI2)
  | vimin (x : VI2)
  | vimax (x : VI2)
  | vceq (x : VCmp)
  | vclt (x : VCmp)
  | vcle (x : VCmp)
  | vcun (x : VCmp)
  | vsel (x : VSelR)
  | vred (x : VRedR)
  | vscan (x : VScanR)
  | vrmaxi (x : VRmaxR)
  | vsplat (x : VSplatR)
  | vlane (x : VLaneR)
  | vins (x : VInsR)
  | vperm (x : VPermR)
  | vmaxi (x : VRankR)
  | vcmpr (x : VRankR)
  | vselk (x : VSelkR)
  | vcvt (x : ConvV)
  | vldl (x : VldlR)
  | vstl (x : VstlR)
  | odef (x : OdefR)
  | spfence (x : SpfI)
  | czero (x : TileR)
  | crd (x : CrdR)
  | cwr (x : CwrR)
  | cld (x : CldR)
  | cwait (x : TileR)
  | cqry (x : CqryR)
  | cabort (x : TileR)
  | ld (x : LdM)
  | st (x : StM)
  | vld (x : VldR)
  | vst (x : VstR)
  | vlds (x : VldsR)
  | vsts (x : VstsR)
  | vgth (x : VgthR)
  | vsct (x : VsctR)
  | vldb (x : VldbR)
  | vstb (x : VstbR)
  | pref (x : PrefM)
  | sbind (x : SbindR)
  | sunb (x : SunbR)
  | sstat (x : DR)
  | cbdef (x : CbdefR)
  | cbrsv (x : CbdR)
  | cbpub (x : CbR)
  | cbtake (x : CbdR)
  | cbrel (x : CbR)
  | ldc (x : LdcM)
  | stf (x : StfM)
  | cpy (x : CpyR)
  | cpyl (x : CpylR)
  | eqry (x : EqryR)
  | send (x : SendR)
  | mpeek (x : MpeekR)
  | mclr (x : MclrR)
  | lbsend (x : SendR)
  | inbx (x : DlR)
  | migrate (x : MigC)
  | homec (x : HomeC)
  | cwb (x : RngM)
  | cinv (x : RngM)
  | alinv (x : RngM)
  | amo (x : AmoR)
  | red (x : RedR)
  | cas (x : CasR)
  | barr (x : DlA)
  | barw (x : AB)
  | bara (x : DlA)
  | mwait (x : UnR)
  | launch (x : DlA)
  | fence (x : FenceI)
  | qfence (x : QfI)
  | lrw (x : LrwR)
  | sch (x : SchR)
  | rrel (x : RrelR)
  | rdx (x : RdxR)
  | rqz (x : ABC)
  | hnew (x : HnewR)
  | hfree (x : UnR)
  | hdown (x : DlA)
  | hup (x : DlA)
  | hprio (x : AB)
  | haddr (x : DlA)
  | hld (x : HldM)
  | hldw (x : HldM)
  | hst (x : HstM)
  | gqclm (x : DlR)
  | baddq (x : BaddqR)
  /-- R82: the result owed under `tag` to the slot is written. -/
  | resultDelivery (core slot tag : Nat)
  /-- R102: the outstanding claim of the fetcher is performed. -/
  | iterationClaim (core slot : Nat)
  /-- R151: the engine requests the next sector of the slot's load. -/
  | sectorRequest (core slot : Nat)
  /-- R148: a requested sector arrives. -/
  | sectorArrival (core slot sector : Nat)
  /-- R182: the oldest word under way on an outgoing link reaches its FIFO. -/
  | linkWordArrival (core : Nat) (dir : Dir) (serial gang j : Nat)
  /-- R196: the operation at the head of a copy queue is performed. -/
  | copyOperation (cluster queue : Nat)
  /-- R222: a register message arrives. -/
  | registerMessage (m : RegMsg)
  /-- R202: wake kind 0x01. -/
  | wakeReinstate (core : Nat) (tid : W64)
  /-- R202: wake kind 0x02. -/
  | wakeEndGang (core : Nat) (tid : W64)
  /-- R202: wake kind 0x03. -/
  | wakeResumeLoad (core : Nat) (tid : W64)
  /-- R202: wake kind 0x04. -/
  | wakeEndLoad (core : Nat) (tid : W64)
  /-- R202: wake kind 0x05. -/
  | wakePassOver (core : Nat) (tid : W64)
  /-- R204: a waiting woken thread takes a freed slot. -/
  | reinstatement (core : Nat)
  /-- R225: a request for a reassembly slot arrives. -/
  | migrationRequest (r : XferReq)
  /-- R225: a refused request is repeated. -/
  | requestRepeat (r : XferReq)
  /-- R225: a grant reaches the source. -/
  | grant (r : XferReq) (target slot : Nat)
  /-- R226: a complete context stands in the reassembly slot held for the pool slot. -/
  | migrationContext (core slot : Nat)
  /-- R225: a complete service message is delivered. -/
  | serviceMessage (core : Nat)
  /-- R240: the deferred translation of a .GLB RED completes. -/
  | redTranslation (red : Nat)
  /-- R241: a launch whose work is done retires. -/
  | launchRetirement (launch : Nat)
  /-- R252: the next gang of a launch has waited too long. -/
  | placementTimeout (launch : Nat)
  /-- R253: a quantum expires. -/
  | quantumExpiry (launch gang : Nat)
  /-- R254: a gang is saved. -/
  | preemption (launch gang : Nat)
  /-- R256: a saved gang is restored. -/
  | gangRestore (launch gang : Nat)
  /-- R310: the head of the core's rdq is performed. -/
  | rdxOperation (core : Nat)
  /-- R314: the head of the core's rqq is performed. -/
  | rqzOperation (core : Nat)
  /-- R323: the running pass of a partition scans the table. -/
  | reclaimPass (part : Nat)
  /-- R189: a walk for the slot completes. -/
  | translationWalk (core slot : Nat) (va : W64) (acc : Access)
  /-- R170: a read stream fetches its next element. -/
  | streamPrefetch (core slot stream : Nat)
  /-- R257: the drain limit of a clearing cluster runs out. -/
  | drainLimitExpiry (cluster : Nat)
  /-- R216, R219: an epoch ends. -/
  | epochBoundary
  /-- R251: the scheduler places the next gang it can. -/
  | gangPlacement
  /-- R257: the scheduler marks a cluster clearing. -/
  | clearing
  /-- R257: the scan self-test of a cluster ends. -/
  | selfTestEnd
  /-- R341 0x01. -/
  | asrec
  /-- R341 0x02. -/
  | faultdest
  /-- R341 0x03, arg2 = 0. -/
  | cereplyResume
  /-- R341 0x03, arg2 = 1. -/
  | cereplyEnd
  /-- R341 0x04, arg2 = 0. -/
  | redreplyResume
  /-- R341 0x04, arg2 = 1. -/
  | redreplyDrop
  /-- R341 0x05. -/
  | migpool
  /-- R341 0x06. -/
  | decwin
  /-- R341 0x07. -/
  | objtab
  /-- R341 0x08. -/
  | faqpop
  /-- R341 0x09. -/
  | thrtab
  /-- R341 0x0A. -/
  | policy
  /-- R341 0x0B. -/
  | lend
  /-- R341 0x0C, arg1 = 0. -/
  | coreRestart
  /-- R341 0x0C, arg1 = 1. -/
  | coreHold
  /-- R341 0x0C, arg1 = 2. -/
  | coreRelease
  /-- R341 0x0D. -/
  | tracebuf
  /-- R341 0x0E. -/
  | traceptr
  /-- R341 0x0F. -/
  | partset
  /-- R341 0x10. -/
  | hostsvc
  /-- R351: svc.coll is written. -/
  | collectiveBind
  /-- R352: the collective timeout has elapsed. -/
  | collectiveTimeout
  /-- R342: power-on. -/
  | boot
  /-- R78: the current slot's turn passes without an issue. -/
  | turn
  /-- R302: the holder of a line reaches τ. -/
  | tenureExpiry (line : Nat)
  /-- R215: the routers of one plane work for one clk. -/
  | flitRouting (plane : Nat)
  /-- R87: the park reason of the slot clears. -/
  | unpark (core slot : Nat)
  /-- R134, R157: the checker disagreed with the word the slot issues, or with the absorption of a sector of its load. -/
  | checkerRetry (core slot : Nat) (sector : Option Nat)
  /-- R152: a sector access failed. -/
  | loadFault (core slot : Nat) (addr : W64) (flags : BitVec 8)
  /-- R190: a page is shot down in a cluster. -/
  | shootDown (cluster part asid : Nat) (va : W64)
  /-- R301: an LRW refused by a full bank queue asks again. -/
  | lrwRepeat (core slot : Nat)
  /-- R297: the patrol reads one line. -/
  | scrubPatrol (line : Nat) (found : EccEvent)
  /-- R352: a block arrives on a port. -/
  | collectiveBlockArrival (port id block : Nat) (data : List Byte)
  /-- R348: a 256-byte data flit arrives at a port. -/
  | dataFlit (port : Nat) (bytes : List Byte)
  /-- R348: an idle or acknowledgement flit arrives. -/
  | idleFlit (port : Nat) (bytes : List Byte)
  /-- R348: a replay request arrives. -/
  | replayRequest (port : Nat) (bytes : List Byte)
  /-- R349: a lane fails. -/
  | laneRepair (port : Nat)
  /-- R349: a retrain ends. -/
  | retrainComplete (port : Nat) (ok : Bool)
  /-- R335: the host writes the doorbell. -/
  | doorbell (func : Nat) (tail : W64)
  /-- R335, R343: the host writes attest. -/
  | attest (func : Nat) (addr : W64)
  /-- R335, R336: the host writes, or reads len bytes. -/
  | hostAccess (func : Nat) (offset : BarOffset) (data : Option (List Byte)) (len : Nat)
  /-- R335: the host writes a BAR0 register with no behaviour of its own. -/
  | registerWrite (func : Nat) (offset : Nat) (value : W64)
  /-- R344: a cap moves the package clock. -/
  | clockCap (mhz : Nat)
  /-- R47: a word that is no instruction is reached. -/
  | illegalWord (w : W64)
  /-- R237 step 3. -/
  | classTransitionClear (frame : Nat) (large : Bool) (kind : PageKind) (tfmt : BitVec 3)
  /-- R306 steps 3 and 5. -/
  | pageRetirementMove (old new : Nat)
  /-- R342: recovery mode takes a new image. -/
  | recoveryImage (image : List Byte)
  deriving DecidableEq, Repr

end Sys2Proof
end

