-- ==== Sys2Proof/WellFormed.lean ====
section
/-!
DEFINITION. Well-formedness: the static limits on the fields of a word that its types do not already say (R41, R44, R45,
R47, R55, R103, R238 and the owning rules). The decoder refuses a word that breaks one; by R47 such a word raises ILLEGAL.
-/

namespace Sys2Proof

/-- A source that is not the immediate: code 0x3D is valid only in field A of an I-format word (R41). -/
def Src.notImm : Src → Bool
  | .imm => false
  | _ => true

/-- The destinations a variable-latency word accepts: z, q0 and the named registers (R82). -/
def Dst.isVl : Dst → Bool
  | .push => true
  | .n _ => true
  | .z => true
  | _ => false

/-- Orderings that loads accept: codes 0–5 (R44). -/
def Ord.isLd : Ord → Bool
  | .rlx => true
  | .acq _ => true
  | _ => false

/-- Orderings that stores and RED accept: codes 0 and 6–10 (R44). -/
def Ord.isSt : Ord → Bool
  | .rlx => true
  | .rel _ => true
  | _ => false

/-- Orderings that FENCE accepts: codes 1–15 (R44). -/
def Ord.isFence : Ord → Bool
  | .rlx => false
  | _ => true

/-- Number of registers ITER writes (R103). -/
def IterCount.toNat : IterCount → Nat
  | .one => 1
  | .two => 2
  | .three => 3

/-- Operations that require width .W (R238). -/
def AmoOp.needsW : AmoOp → Bool
  | .fadd | .fmin | .fmax | .badd | .bmin | .bmax => true
  | _ => false

/-- Kinds 64 bits wide (R130). -/
def Kind.is64 : Kind → Bool
  | .f64 | .i64 | .u64 => true
  | _ => false

/-- The limits of a conversion word: not narrow to narrow, and no format register without a narrow kind (R45). -/
def convOk (dk sk : Kind) (fmt : Fin 8) : Bool :=
  !(dk == .nf && sk == .nf) && (dk == .nf || sk == .nf || fmt.val == 0)

/-- Limits of IntR. -/
def IntR.wf (x : IntR) : Bool := x.a.notImm && x.b.notImm

/-- Limits of BitU. -/
def BitU.wf (x : BitU) : Bool := x.a.notImm

/-- Limits of BitT. -/
def BitT.wf (x : BitT) : Bool := x.a.notImm && x.b.notImm && x.c.notImm

/-- Limits of CmpR. -/
def CmpR.wf (x : CmpR) : Bool := x.a.notImm && x.b.notImm

/-- Limits of SelR. -/
def SelR.wf (x : SelR) : Bool := x.a.notImm && x.b.notImm && x.c.notImm

/-- Limits of LeaM. -/
def LeaM.wf (x : LeaM) : Bool := x.a.notImm && x.b.notImm

/-- Limits of SkipC: the count is 1 to 31 (R55). -/
def SkipC.wf (x : SkipC) : Bool := x.a.notImm && decide (1 ≤ x.cnt.toNat ∧ x.cnt.toNat ≤ 31)

/-- Limits of JmpA. -/
def JmpA.wf (x : JmpA) : Bool := x.a.notImm

/-- Limits of UnC. -/
def UnC.wf (x : UnC) : Bool := x.a.notImm

/-- Limits of IterC: D names n0 to n(24 − c) (R103). -/
def IterC.wf (x : IterC) : Bool := decide (x.d.val + x.cnt.toNat ≤ 24)

/-- Limits of Fp2. -/
def Fp2.wf (x : Fp2) : Bool := x.a.notImm && x.b.notImm

/-- Limits of Fp1. -/
def Fp1.wf (x : Fp1) : Bool := x.a.notImm

/-- Limits of Fp2n. -/
def Fp2n.wf (x : Fp2n) : Bool := x.a.notImm && x.b.notImm

/-- Limits of Fp1n. -/
def Fp1n.wf (x : Fp1n) : Bool := x.a.notImm

/-- Limits of Fp3. -/
def Fp3.wf (x : Fp3) : Bool := x.a.notImm && x.b.notImm && x.c.notImm

/-- Limits of ConvR. -/
def ConvR.wf (x : ConvR) : Bool := x.a.notImm && convOk x.dk x.sk x.fmt

/-- Limits of ConvV: no narrow kind against a 64-bit kind (R130). -/
def ConvV.wf (x : ConvV) : Bool := x.k.notImm && convOk x.dk x.sk x.fmt && !((x.dk == .nf && x.sk.is64) || (x.sk == .nf && x.dk.is64))

/-- Limits of V2. -/
def V2.wf (x : V2) : Bool := x.k.notImm

/-- Limits of V2n. -/
def V2n.wf (x : V2n) : Bool := x.k.notImm

/-- Limits of V1. -/
def V1.wf (x : V1) : Bool := x.k.notImm

/-- Limits of V3. -/
def V3.wf (x : V3) : Bool := x.k.notImm

/-- Limits of VI2. -/
def VI2.wf (x : VI2) : Bool := x.k.notImm

/-- Limits of VCmp. -/
def VCmp.wf (x : VCmp) : Bool := x.k.notImm

/-- Limits of VSelR. -/
def VSelR.wf (x : VSelR) : Bool := x.c.notImm && x.k.notImm

/-- Limits of VRedR: only VRED.ADD rounds (R118, R122). -/
def VRedR.wf (x : VRedR) : Bool := x.k.notImm && (x.op == .add || x.rm == .rne)

/-- Limits of VRmaxR. -/
def VRmaxR.wf (x : VRmaxR) : Bool := x.k.notImm

/-- Limits of VScanR. -/
def VScanR.wf (x : VScanR) : Bool := x.k.notImm

/-- Limits of VSplatR. -/
def VSplatR.wf (x : VSplatR) : Bool := x.a.notImm && x.k.notImm

/-- Limits of VLaneR. -/
def VLaneR.wf (x : VLaneR) : Bool := x.b.notImm && x.k.notImm

/-- Limits of VInsR. -/
def VInsR.wf (x : VInsR) : Bool := x.b.notImm && x.c.notImm && x.k.notImm

/-- Limits of VPermR. -/
def VPermR.wf (x : VPermR) : Bool := x.k.notImm

/-- Limits of VRankR. -/
def VRankR.wf (x : VRankR) : Bool := x.k.notImm

/-- Limits of VSelkR. -/
def VSelkR.wf (x : VSelkR) : Bool := x.b.notImm && x.k.notImm

/-- Limits of VldlR. -/
def VldlR.wf (x : VldlR) : Bool := x.a.notImm && x.k.notImm

/-- Limits of VstlR. -/
def VstlR.wf (x : VstlR) : Bool := x.a.notImm && x.k.notImm

/-- Limits of OdefR. -/
def OdefR.wf (x : OdefR) : Bool := x.a.notImm && x.b.notImm && x.c.notImm

/-- Limits of CrdR. -/
def CrdR.wf (x : CrdR) : Bool := x.a.notImm

/-- Limits of CwrR. -/
def CwrR.wf (x : CwrR) : Bool := x.a.notImm

/-- Limits of CldR. -/
def CldR.wf (x : CldR) : Bool := x.a.notImm && x.b.notImm && x.c.notImm

/-- Limits of CqryR. -/
def CqryR.wf (x : CqryR) : Bool := x.d.isVl

/-- Limits of LdM: no .SX at .D (R45). -/
def LdM.wf (x : LdM) : Bool := x.d.isVl && x.a.notImm && x.ord.isLd && !(x.sx && x.w == .d)

/-- Limits of StM. -/
def StM.wf (x : StM) : Bool := x.a.notImm && x.b.notImm && x.ord.isSt

/-- Limits of LdcM. -/
def LdcM.wf (x : LdcM) : Bool := x.d.isVl && x.a.notImm

/-- Limits of StfM. -/
def StfM.wf (x : StfM) : Bool := x.a.notImm && x.b.notImm

/-- Limits of SbindR. -/
def SbindR.wf (x : SbindR) : Bool := x.a.notImm && x.b.notImm && x.c.notImm

/-- Limits of PrefM. -/
def PrefM.wf (x : PrefM) : Bool := x.a.notImm

/-- Limits of RngM. -/
def RngM.wf (x : RngM) : Bool := x.a.notImm && x.b.notImm

/-- Limits of FenceI. -/
def FenceI.wf (x : FenceI) : Bool := x.ord.isFence

/-- Limits of QfI: at least one queue (R275). -/
def QfI.wf (x : QfI) : Bool := x.mask != 0

/-- Limits of VldR. -/
def VldR.wf (x : VldR) : Bool := x.a.notImm && x.ord.isLd && x.k.notImm

/-- Limits of VstR. -/
def VstR.wf (x : VstR) : Bool := x.a.notImm && x.ord.isSt && x.k.notImm

/-- Limits of VldsR. -/
def VldsR.wf (x : VldsR) : Bool := x.a.notImm && x.c.notImm && x.ord.isLd && x.k.notImm

/-- Limits of VstsR. -/
def VstsR.wf (x : VstsR) : Bool := x.a.notImm && x.c.notImm && x.ord.isSt && x.k.notImm

/-- Limits of VgthR. -/
def VgthR.wf (x : VgthR) : Bool := x.a.notImm && x.ord.isLd && x.k.notImm

/-- Limits of VsctR. -/
def VsctR.wf (x : VsctR) : Bool := x.a.notImm && x.ord.isSt && x.k.notImm

/-- Limits of VldbR. -/
def VldbR.wf (x : VldbR) : Bool := x.a.notImm && x.c.notImm && x.ord.isLd && x.k.notImm

/-- Limits of VstbR. -/
def VstbR.wf (x : VstbR) : Bool := x.a.notImm && x.c.notImm && x.ord.isSt && x.k.notImm

/-- Limits of CbdefR. -/
def CbdefR.wf (x : CbdefR) : Bool := x.a.notImm && x.b.notImm && x.c.notImm

/-- Limits of CbdR. -/
def CbdR.wf (x : CbdR) : Bool := x.d.isVl

/-- Limits of AmoR: FP and BF16 operations are .W (R238). -/
def AmoR.wf (x : AmoR) : Bool := x.d.isVl && x.a.notImm && x.b.notImm && (!x.op.needsW || x.w == .w)

/-- Limits of RedR: no SWAP, and FP and BF16 operations are .W (R46, R238). -/
def RedR.wf (x : RedR) : Bool := x.a.notImm && x.b.notImm && x.ord.isSt && (!x.op.needsW || x.w == .w) && x.op != .swap

/-- Limits of CasR. -/
def CasR.wf (x : CasR) : Bool := x.d.isVl && x.a.notImm && x.b.notImm && x.c.notImm

/-- Limits of LrwR. -/
def LrwR.wf (x : LrwR) : Bool := x.d.isVl && x.a.notImm && x.ord.isLd

/-- Limits of SchR. -/
def SchR.wf (x : SchR) : Bool := x.d.isVl && x.a.notImm && x.b.notImm

/-- Limits of RrelR. -/
def RrelR.wf (x : RrelR) : Bool := x.a.notImm

/-- Limits of DlA. -/
def DlA.wf (x : DlA) : Bool := x.d.isVl && x.a.notImm

/-- Limits of AB. -/
def AB.wf (x : AB) : Bool := x.a.notImm && x.b.notImm

/-- Limits of UnR. -/
def UnR.wf (x : UnR) : Bool := x.a.notImm

/-- Limits of SendR. -/
def SendR.wf (x : SendR) : Bool := x.a.notImm && x.b.notImm

/-- Limits of MpeekR. -/
def MpeekR.wf (x : MpeekR) : Bool := x.d.isVl

/-- Limits of DlR. -/
def DlR.wf (x : DlR) : Bool := x.d.isVl

/-- Limits of MigC. -/
def MigC.wf (x : MigC) : Bool := x.a.notImm

/-- Limits of HomeC. -/
def HomeC.wf (x : HomeC) : Bool := x.d.isVl && x.a.notImm

/-- Limits of CpyR. -/
def CpyR.wf (x : CpyR) : Bool := x.a.notImm && x.b.notImm

/-- Limits of CpylR. -/
def CpylR.wf (x : CpylR) : Bool := x.a.notImm && x.b.notImm && x.c.notImm

/-- Limits of EqryR. -/
def EqryR.wf (x : EqryR) : Bool := x.d.isVl

/-- Limits of RdxR. -/
def RdxR.wf (x : RdxR) : Bool := x.a.notImm && x.b.notImm

/-- Limits of ABC. -/
def ABC.wf (x : ABC) : Bool := x.a.notImm && x.b.notImm && x.c.notImm

/-- Limits of HnewR. -/
def HnewR.wf (x : HnewR) : Bool := x.d.isVl && x.a.notImm && x.b.notImm

/-- Limits of HldM: no .SX at .D (R322). -/
def HldM.wf (x : HldM) : Bool := x.d.isVl && x.a.notImm && !(x.sx && x.w == .d)

/-- Limits of HstM. -/
def HstM.wf (x : HstM) : Bool := x.a.notImm && x.b.notImm

/-- Limits of BaddqR. -/
def BaddqR.wf (x : BaddqR) : Bool := x.a.notImm && x.b.notImm && x.c.notImm

/-- The static limits of an instruction. A step of another agent has no encoding and no static limit. -/
def Instr.wf : Instr → Bool
  | .add x => x.wf
  | .addImm _ => true
  | .sub x => x.wf
  | .subImm _ => true
  | .mul x => x.wf
  | .mulImm _ => true
  | .mulh x => x.wf
  | .mulhImm _ => true
  | .mulhu x => x.wf
  | .mulhuImm _ => true
  | .div x => x.wf
  | .divImm _ => true
  | .divu x => x.wf
  | .divuImm _ => true
  | .rem x => x.wf
  | .remImm _ => true
  | .remu x => x.wf
  | .remuImm _ => true
  | .and x => x.wf
  | .andImm _ => true
  | .or x => x.wf
  | .orImm _ => true
  | .xor x => x.wf
  | .xorImm _ => true
  | .andn x => x.wf
  | .andnImm _ => true
  | .shl x => x.wf
  | .shlImm _ => true
  | .shr x => x.wf
  | .shrImm _ => true
  | .sra x => x.wf
  | .sraImm _ => true
  | .rot x => x.wf
  | .rotImm _ => true
  | .min x => x.wf
  | .minImm _ => true
  | .max x => x.wf
  | .maxImm _ => true
  | .minu x => x.wf
  | .minuImm _ => true
  | .maxu x => x.wf
  | .maxuImm _ => true
  | .clz x => x.wf
  | .ctz x => x.wf
  | .popc x => x.wf
  | .brev x => x.wf
  | .bext x => x.wf
  | .bins x => x.wf
  | .sext x => x.wf
  | .zext x => x.wf
  | .abs x => x.wf
  | .neg x => x.wf
  | .cmpeq x => x.wf
  | .cmpne x => x.wf
  | .cmplt x => x.wf
  | .cmple x => x.wf
  | .cmpltu x => x.wf
  | .cmpleu x => x.wf
  | .sel x => x.wf
  | .li _ => true
  | .lih _ => true
  | .lea x => x.wf
  | .skipz x => x.wf
  | .skipnz x => x.wf
  | .br _ => true
  | .brz x => x.wf
  | .brnz x => x.wf
  | .call _ => true
  | .callr x => x.wf
  | .jmpr x => x.wf
  | .ret _ => true
  | .nest x => x.wf
  | .iter x => x.wf
  | .nop _ => true
  | .stalln x => x.n != 0
  | .yield _ => true
  | .park _ => true
  | .exit _ => true
  | .fadd x => x.wf
  | .fsub x => x.wf
  | .fmul x => x.wf
  | .fdiv x => x.wf
  | .fsqrt x => x.wf
  | .fmin x => x.wf
  | .fmax x => x.wf
  | .frcp x => x.wf
  | .frsq x => x.wf
  | .flog2 x => x.wf
  | .fexp2 x => x.wf
  | .fma x => x.wf
  | .fms x => x.wf
  | .fnma x => x.wf
  | .fceq x => x.wf
  | .fclt x => x.wf
  | .fcle x => x.wf
  | .fcun x => x.wf
  | .fclass x => x.wf
  | .fcvt x => x.wf
  | .sysrd _ => true
  | .syswr _ => true
  | .trap _ => true
  | .eret _ => true
  | .trace _ => true
  | .vadd x => x.wf
  | .vsub x => x.wf
  | .vmul x => x.wf
  | .vdiv x => x.wf
  | .vsqrt x => x.wf
  | .vmin x => x.wf
  | .vmax x => x.wf
  | .vrcp x => x.wf
  | .vrsq x => x.wf
  | .vlog2 x => x.wf
  | .vexp2 x => x.wf
  | .vfma x => x.wf
  | .vfms x => x.wf
  | .viadd x => x.wf
  | .visub x => x.wf
  | .vimul x => x.wf
  | .vand x => x.wf
  | .vor x => x.wf
  | .vxor x => x.wf
  | .vshl x => x.wf
  | .vshr x => x.wf
  | .vimin x => x.wf
  | .vimax x => x.wf
  | .vceq x => x.wf
  | .vclt x => x.wf
  | .vcle x => x.wf
  | .vcun x => x.wf
  | .vsel x => x.wf
  | .vred x => x.wf
  | .vscan x => x.wf
  | .vrmaxi x => x.wf
  | .vsplat x => x.wf
  | .vlane x => x.wf
  | .vins x => x.wf
  | .vperm x => x.wf
  | .vmaxi x => x.wf
  | .vcmpr x => x.wf
  | .vselk x => x.wf
  | .vcvt x => x.wf
  | .vldl x => x.wf
  | .vstl x => x.wf
  | .odef x => x.wf
  | .spfence _ => true
  | .czero _ => true
  | .crd x => x.wf
  | .cwr x => x.wf
  | .cld x => x.wf
  | .cwait _ => true
  | .cqry x => x.wf
  | .cabort _ => true
  | .ld x => x.wf
  | .st x => x.wf
  | .vld x => x.wf
  | .vst x => x.wf
  | .vlds x => x.wf
  | .vsts x => x.wf
  | .vgth x => x.wf
  | .vsct x => x.wf
  | .vldb x => x.wf
  | .vstb x => x.wf
  | .pref x => x.wf
  | .sbind x => x.wf
  | .sunb _ => true
  | .sstat _ => true
  | .cbdef x => x.wf
  | .cbrsv x => x.wf
  | .cbpub _ => true
  | .cbtake x => x.wf
  | .cbrel _ => true
  | .ldc x => x.wf
  | .stf x => x.wf
  | .cpy x => x.wf
  | .cpyl x => x.wf
  | .eqry x => x.wf
  | .send x => x.wf
  | .mpeek x => x.wf
  | .mclr _ => true
  | .lbsend x => x.wf
  | .inbx x => x.wf
  | .migrate x => x.wf
  | .homec x => x.wf
  | .cwb x => x.wf
  | .cinv x => x.wf
  | .alinv x => x.wf
  | .amo x => x.wf
  | .red x => x.wf
  | .cas x => x.wf
  | .barr x => x.wf
  | .barw x => x.wf
  | .bara x => x.wf
  | .mwait x => x.wf
  | .launch x => x.wf
  | .fence x => x.wf
  | .qfence x => x.wf
  | .lrw x => x.wf
  | .sch x => x.wf
  | .rrel x => x.wf
  | .rdx x => x.wf
  | .rqz x => x.wf
  | .hnew x => x.wf
  | .hfree x => x.wf
  | .hdown x => x.wf
  | .hup x => x.wf
  | .hprio x => x.wf
  | .haddr x => x.wf
  | .hld x => x.wf
  | .hldw x => x.wf
  | .hst x => x.wf
  | .gqclm x => x.wf
  | .baddq x => x.wf
  | .resultDelivery _ _ _ => true
  | .unpark _ _ => true
  | .checkerRetry _ _ _ => true
  | .iterationClaim _ _ => true
  | .sectorRequest _ _ => true
  | .sectorArrival _ _ _ => true
  | .loadFault _ _ _ _ => true
  | .translationWalk _ _ _ _ => true
  | .shootDown _ _ _ _ => true
  | .linkWordArrival _ _ _ _ _ => true
  | .copyOperation _ _ => true
  | .registerMessage _ => true
  | .wakeReinstate _ _ => true
  | .wakeEndGang _ _ => true
  | .wakeResumeLoad _ _ => true
  | .wakeEndLoad _ _ => true
  | .wakePassOver _ _ => true
  | .reinstatement _ => true
  | .flitRouting _ => true
  | .epochBoundary => true
  | .migrationRequest _ => true
  | .requestRepeat _ => true
  | .grant _ _ _ => true
  | .migrationContext _ _ => true
  | .serviceMessage _ => true
  | .redTranslation _ => true
  | .launchRetirement _ => true
  | .gangPlacement => true
  | .placementTimeout _ => true
  | .quantumExpiry _ _ => true
  | .preemption _ _ => true
  | .gangRestore _ _ => true
  | .clearing => true
  | .selfTestEnd => true
  | .rdxOperation _ => true
  | .rqzOperation _ => true
  | .reclaimPass _ => true
  | .tenureExpiry _ => true
  | .lrwRepeat _ _ => true
  | .scrubPatrol _ _ => true
  | .asrec => true
  | .faultdest => true
  | .cereplyResume => true
  | .cereplyEnd => true
  | .redreplyResume => true
  | .redreplyDrop => true
  | .migpool => true
  | .decwin => true
  | .objtab => true
  | .faqpop => true
  | .thrtab => true
  | .policy => true
  | .lend => true
  | .coreRestart => true
  | .coreHold => true
  | .coreRelease => true
  | .tracebuf => true
  | .traceptr => true
  | .partset => true
  | .hostsvc => true
  | .collectiveBind => true
  | .collectiveBlockArrival _ _ _ _ => true
  | .collectiveTimeout => true
  | .dataFlit _ _ => true
  | .idleFlit _ _ => true
  | .replayRequest _ _ => true
  | .laneRepair _ => true
  | .retrainComplete _ _ => true
  | .doorbell _ _ => true
  | .attest _ _ => true
  | .hostAccess _ _ _ _ => true
  | .registerWrite _ _ _ => true
  | .boot => true
  | .clockCap _ => true
  | .turn => true
  | .illegalWord _ => true
  | .streamPrefetch _ _ _ => true
  | .drainLimitExpiry _ => true
  | .classTransitionClear _ _ _ _ => true
  | .pageRetirementMove _ _ => true
  | .recoveryImage _ => true

/-- Whether an instruction is a word of R46, which the decoder can read, and no step of another agent. -/
def Instr.isWord : Instr → Bool
  | .add _ => true
  | .addImm _ => true
  | .sub _ => true
  | .subImm _ => true
  | .mul _ => true
  | .mulImm _ => true
  | .mulh _ => true
  | .mulhImm _ => true
  | .mulhu _ => true
  | .mulhuImm _ => true
  | .div _ => true
  | .divImm _ => true
  | .divu _ => true
  | .divuImm _ => true
  | .rem _ => true
  | .remImm _ => true
  | .remu _ => true
  | .remuImm _ => true
  | .and _ => true
  | .andImm _ => true
  | .or _ => true
  | .orImm _ => true
  | .xor _ => true
  | .xorImm _ => true
  | .andn _ => true
  | .andnImm _ => true
  | .shl _ => true
  | .shlImm _ => true
  | .shr _ => true
  | .shrImm _ => true
  | .sra _ => true
  | .sraImm _ => true
  | .rot _ => true
  | .rotImm _ => true
  | .min _ => true
  | .minImm _ => true
  | .max _ => true
  | .maxImm _ => true
  | .minu _ => true
  | .minuImm _ => true
  | .maxu _ => true
  | .maxuImm _ => true
  | .clz _ => true
  | .ctz _ => true
  | .popc _ => true
  | .brev _ => true
  | .bext _ => true
  | .bins _ => true
  | .sext _ => true
  | .zext _ => true
  | .abs _ => true
  | .neg _ => true
  | .cmpeq _ => true
  | .cmpne _ => true
  | .cmplt _ => true
  | .cmple _ => true
  | .cmpltu _ => true
  | .cmpleu _ => true
  | .sel _ => true
  | .li _ => true
  | .lih _ => true
  | .lea _ => true
  | .skipz _ => true
  | .skipnz _ => true
  | .br _ => true
  | .brz _ => true
  | .brnz _ => true
  | .call _ => true
  | .callr _ => true
  | .jmpr _ => true
  | .ret _ => true
  | .nest _ => true
  | .iter _ => true
  | .nop _ => true
  | .stalln _ => true
  | .yield _ => true
  | .park _ => true
  | .exit _ => true
  | .fadd _ => true
  | .fsub _ => true
  | .fmul _ => true
  | .fdiv _ => true
  | .fsqrt _ => true
  | .fmin _ => true
  | .fmax _ => true
  | .frcp _ => true
  | .frsq _ => true
  | .flog2 _ => true
  | .fexp2 _ => true
  | .fma _ => true
  | .fms _ => true
  | .fnma _ => true
  | .fceq _ => true
  | .fclt _ => true
  | .fcle _ => true
  | .fcun _ => true
  | .fclass _ => true
  | .fcvt _ => true
  | .sysrd _ => true
  | .syswr _ => true
  | .trap _ => true
  | .eret _ => true
  | .trace _ => true
  | .vadd _ => true
  | .vsub _ => true
  | .vmul _ => true
  | .vdiv _ => true
  | .vsqrt _ => true
  | .vmin _ => true
  | .vmax _ => true
  | .vrcp _ => true
  | .vrsq _ => true
  | .vlog2 _ => true
  | .vexp2 _ => true
  | .vfma _ => true
  | .vfms _ => true
  | .viadd _ => true
  | .visub _ => true
  | .vimul _ => true
  | .vand _ => true
  | .vor _ => true
  | .vxor _ => true
  | .vshl _ => true
  | .vshr _ => true
  | .vimin _ => true
  | .vimax _ => true
  | .vceq _ => true
  | .vclt _ => true
  | .vcle _ => true
  | .vcun _ => true
  | .vsel _ => true
  | .vred _ => true
  | .vscan _ => true
  | .vrmaxi _ => true
  | .vsplat _ => true
  | .vlane _ => true
  | .vins _ => true
  | .vperm _ => true
  | .vmaxi _ => true
  | .vcmpr _ => true
  | .vselk _ => true
  | .vcvt _ => true
  | .vldl _ => true
  | .vstl _ => true
  | .odef _ => true
  | .spfence _ => true
  | .czero _ => true
  | .crd _ => true
  | .cwr _ => true
  | .cld _ => true
  | .cwait _ => true
  | .cqry _ => true
  | .cabort _ => true
  | .ld _ => true
  | .st _ => true
  | .vld _ => true
  | .vst _ => true
  | .vlds _ => true
  | .vsts _ => true
  | .vgth _ => true
  | .vsct _ => true
  | .vldb _ => true
  | .vstb _ => true
  | .pref _ => true
  | .sbind _ => true
  | .sunb _ => true
  | .sstat _ => true
  | .cbdef _ => true
  | .cbrsv _ => true
  | .cbpub _ => true
  | .cbtake _ => true
  | .cbrel _ => true
  | .ldc _ => true
  | .stf _ => true
  | .cpy _ => true
  | .cpyl _ => true
  | .eqry _ => true
  | .send _ => true
  | .mpeek _ => true
  | .mclr _ => true
  | .lbsend _ => true
  | .inbx _ => true
  | .migrate _ => true
  | .homec _ => true
  | .cwb _ => true
  | .cinv _ => true
  | .alinv _ => true
  | .amo _ => true
  | .red _ => true
  | .cas _ => true
  | .barr _ => true
  | .barw _ => true
  | .bara _ => true
  | .mwait _ => true
  | .launch _ => true
  | .fence _ => true
  | .qfence _ => true
  | .lrw _ => true
  | .sch _ => true
  | .rrel _ => true
  | .rdx _ => true
  | .rqz _ => true
  | .hnew _ => true
  | .hfree _ => true
  | .hdown _ => true
  | .hup _ => true
  | .hprio _ => true
  | .haddr _ => true
  | .hld _ => true
  | .hldw _ => true
  | .hst _ => true
  | .gqclm _ => true
  | .baddq _ => true
  | .resultDelivery _ _ _ => false
  | .unpark _ _ => false
  | .checkerRetry _ _ _ => false
  | .iterationClaim _ _ => false
  | .sectorRequest _ _ => false
  | .sectorArrival _ _ _ => false
  | .loadFault _ _ _ _ => false
  | .translationWalk _ _ _ _ => false
  | .shootDown _ _ _ _ => false
  | .linkWordArrival _ _ _ _ _ => false
  | .copyOperation _ _ => false
  | .registerMessage _ => false
  | .wakeReinstate _ _ => false
  | .wakeEndGang _ _ => false
  | .wakeResumeLoad _ _ => false
  | .wakeEndLoad _ _ => false
  | .wakePassOver _ _ => false
  | .reinstatement _ => false
  | .flitRouting _ => false
  | .epochBoundary => false
  | .migrationRequest _ => false
  | .requestRepeat _ => false
  | .grant _ _ _ => false
  | .migrationContext _ _ => false
  | .serviceMessage _ => false
  | .redTranslation _ => false
  | .launchRetirement _ => false
  | .gangPlacement => false
  | .placementTimeout _ => false
  | .quantumExpiry _ _ => false
  | .preemption _ _ => false
  | .gangRestore _ _ => false
  | .clearing => false
  | .selfTestEnd => false
  | .rdxOperation _ => false
  | .rqzOperation _ => false
  | .reclaimPass _ => false
  | .tenureExpiry _ => false
  | .lrwRepeat _ _ => false
  | .scrubPatrol _ _ => false
  | .asrec => false
  | .faultdest => false
  | .cereplyResume => false
  | .cereplyEnd => false
  | .redreplyResume => false
  | .redreplyDrop => false
  | .migpool => false
  | .decwin => false
  | .objtab => false
  | .faqpop => false
  | .thrtab => false
  | .policy => false
  | .lend => false
  | .coreRestart => false
  | .coreHold => false
  | .coreRelease => false
  | .tracebuf => false
  | .traceptr => false
  | .partset => false
  | .hostsvc => false
  | .collectiveBind => false
  | .collectiveBlockArrival _ _ _ _ => false
  | .collectiveTimeout => false
  | .dataFlit _ _ => false
  | .idleFlit _ _ => false
  | .replayRequest _ _ => false
  | .laneRepair _ => false
  | .retrainComplete _ _ => false
  | .doorbell _ _ => false
  | .attest _ _ => false
  | .hostAccess _ _ _ _ => false
  | .registerWrite _ _ _ => false
  | .boot => false
  | .clockCap _ => false
  | .turn => false
  | .illegalWord _ => false
  | .streamPrefetch _ _ _ => false
  | .drainLimitExpiry _ => false
  | .classTransitionClear _ _ _ _ => false
  | .pageRetirementMove _ _ => false
  | .recoveryImage _ => false

end Sys2Proof
end

