-- ==== Sys2Proof/Decode.lean ====
section
/-!
DEFINITION. The decoder of instruction words (R36–R47), total on any bytes and rejecting by name, the fields of a block
header word (R48), and after it an encoder written from the same tables.
-/

namespace Sys2Proof

/-- Why a word is no instruction. Every reason raises ILLEGAL when the word is reached (R47, R52). -/
inductive Reject where
  /-- fewer than eight bytes -/
  | truncated
  /-- an opcode absent from the map, 0x00 and 0xFF among them -/
  | opcode
  /-- opcode 0xFE: a block header, never issued as an instruction (R52) -/
  | header
  /-- an operation selector absent from the opcode's row -/
  | fn
  /-- a reserved field or bit that is not zero -/
  | reserved
  /-- an operand code that R41 marks ILLEGAL for its position -/
  | operand
  /-- a modifier code that R43–R45 do not accept -/
  | modifier
  /-- a static limit of the instruction's own description -/
  | limit
  deriving DecidableEq, Repr

/-- Bits [p + n − 1 : p] of a word (R6). -/
def fld (w p n : Nat) : Nat := w / 2 ^ p % 2 ^ n

/-- A reserved field must hold zero (R39). -/
def zeroBits (w p n : Nat) : Except Reject Unit :=
  if fld w p n = 0 then .ok () else .error .reserved

/-- The direction with operand code 0x38 + k (R180). -/
def Dir.ofCode : Nat → Dir
  | 0 => .dn
  | 1 => .de
  | 2 => .ds
  | _ => .dw

/-- The position of a direction's operand code after 0x38 (R180). -/
def Dir.code : Dir → Nat
  | .dn => 0
  | .de => 1
  | .ds => 2
  | .dw => 3

/-- A source position (R41). The code 0x3D is read as the immediate; well-formedness says where it may stand. -/
def Src.dec (c : Nat) : Except Reject Src :=
  if c < 0x10 then .ok (.q (Fin.ofNat 16 c))
  else if c < 0x28 then .ok (.n (Fin.ofNat 24 (c - 0x10)))
  else if c < 0x30 then .ok (.s (Fin.ofNat 8 (c - 0x28)))
  else if c < 0x38 then .ok (.m (Fin.ofNat 8 (c - 0x30)))
  else if c < 0x3C then .ok (.link (Dir.ofCode (c - 0x38)))
  else if c = 0x3C then .ok .z
  else if c = 0x3D then .ok .imm
  else if c = 0x3E then .ok .hb
  else .error .operand

/-- A destination position (R41). -/
def Dst.dec (c : Nat) : Except Reject Dst :=
  if c = 0 then .ok .push
  else if c < 0x10 then .error .operand
  else if c < 0x28 then .ok (.n (Fin.ofNat 24 (c - 0x10)))
  else if c < 0x30 then .ok (.s (Fin.ofNat 8 (c - 0x28)))
  else if c < 0x38 then .ok (.m (Fin.ofNat 8 (c - 0x30)))
  else if c < 0x3C then .ok (.link (Dir.ofCode (c - 0x38)))
  else if c = 0x3C then .ok .z
  else .error .operand

/-- A vector position (R41). -/
def VReg.dec (c : Nat) : Except Reject VReg :=
  if c < 0x10 then .ok (Fin.ofNat 16 c) else .error .operand

/-- The first register of ITER: n0–n23 (R103). -/
def NReg.dec (c : Nat) : Except Reject (Fin 24) :=
  if 0x10 ≤ c ∧ c < 0x28 then .ok (Fin.ofNat 24 (c - 0x10)) else .error .operand

/-- Integer type of an arith or imm layout that takes .D and .W only (R45). -/
def WTy.dec : Nat → Except Reject WTy
  | 0 => .ok .d
  | 1 => .ok .w
  | _ => .error .modifier

/-- Integer type or memory width (R43). -/
def IntTy.dec : Nat → Except Reject IntTy
  | 0 => .ok .d
  | 1 => .ok .w
  | 2 => .ok .h
  | 3 => .ok .b
  | _ => .error .modifier

/-- FP type (R43). -/
def FpTy.dec : Nat → Except Reject FpTy
  | 0 => .ok .f32
  | 1 => .ok .f64
  | 2 => .ok .f16
  | 3 => .ok .bf16
  | _ => .error .modifier

/-- Element kind of the forms that read numbers (R116). -/
def NumTy.dec : Nat → Except Reject NumTy
  | 0 => .ok .d
  | 1 => .ok .w
  | 2 => .ok .h
  | _ => .error .modifier

/-- Element kind of VMAXI, VCMPR and VSELK (R127). -/
def RankTy.dec : Nat → Except Reject RankTy
  | 1 => .ok .w
  | 2 => .ok .h
  | _ => .error .modifier

/-- Rounding mode (R43). -/
def Rm.dec : Nat → Except Reject Rm
  | 0 => .ok .rne
  | 1 => .ok .rtz
  | 2 => .ok .rdn
  | 3 => .ok .rup
  | _ => .error .modifier

/-- Space (R43). -/
def Space.dec : Nat → Except Reject Space
  | 0 => .ok .glb
  | 1 => .ok .spd
  | 2 => .ok .cls
  | 3 => .ok .chp
  | _ => .error .modifier

/-- Space of CBDEF (R173). -/
def CbSpace.dec : Nat → Except Reject CbSpace
  | 1 => .ok .spd
  | 2 => .ok .cls
  | _ => .error .modifier

/-- Policy (R43). -/
def Policy.dec : Nat → Except Reject Policy
  | 0 => .ok .nrm
  | 1 => .ok .once
  | 2 => .ok .noal
  | 3 => .ok .keep
  | _ => .error .modifier

/-- The scope at a position of the code order of R44. -/
def Scope.ofCode : Nat → Scope
  | 0 => .co
  | 1 => .cl
  | 2 => .di
  | 3 => .pk
  | _ => .sy

/-- The position of a scope in the code order of R44. -/
def Scope.code : Scope → Nat
  | .co => 0
  | .cl => 1
  | .di => 2
  | .pk => 3
  | .sy => 4

/-- Ordering and scope (R44). -/
def Ord.dec (c : Nat) : Except Reject Ord :=
  if c = 0 then .ok .rlx
  else if c < 6 then .ok (.acq (Scope.ofCode (c - 1)))
  else if c < 11 then .ok (.rel (Scope.ofCode (c - 6)))
  else if c < 16 then .ok (.ar (Scope.ofCode (c - 11)))
  else .error .modifier

/-- Conversion kind (R45). -/
def Kind.dec : Nat → Except Reject Kind
  | 0 => .ok .f32
  | 1 => .ok .f64
  | 2 => .ok .f16
  | 3 => .ok .bf16
  | 4 => .ok .nf
  | 5 => .ok .i8
  | 6 => .ok .i16
  | 7 => .ok .i32
  | 8 => .ok .i64
  | 9 => .ok .u8
  | 10 => .ok .u16
  | 11 => .ok .u32
  | 12 => .ok .u64
  | _ => .error .modifier

/-- Streamed kind of CLD (R143). -/
def CldKind.dec : Nat → Except Reject CldKind
  | 0 => .ok .f32
  | 2 => .ok .f16
  | 3 => .ok .bf16
  | 4 => .ok .nf
  | 5 => .ok .i8
  | _ => .error .modifier

/-- Operation of VRED, its fn value (R46). -/
def RedOp.dec : Nat → Except Reject RedOp
  | 0 => .ok .add
  | 1 => .ok .min
  | 2 => .ok .max
  | _ => .error .fn

/-- Operation of AMO and RED, its fn value (R46). -/
def AmoOp.dec : Nat → Except Reject AmoOp
  | 0 => .ok .add
  | 1 => .ok .min
  | 2 => .ok .max
  | 3 => .ok .minu
  | 4 => .ok .maxu
  | 5 => .ok .and
  | 6 => .ok .or
  | 7 => .ok .xor
  | 8 => .ok .swap
  | 9 => .ok .fadd
  | 10 => .ok .fmin
  | 11 => .ok .fmax
  | 12 => .ok .badd
  | 13 => .ok .bmin
  | 14 => .ok .bmax
  | _ => .error .fn

/-- FP type of RDX (R310). -/
def RdxTy.dec : Nat → Except Reject RdxTy
  | 0 => .ok .f32
  | 3 => .ok .bf16
  | _ => .error .modifier

/-- Layout of ODEF (R137). -/
def Layout.dec : Nat → Except Reject Layout
  | 0 => .ok .km
  | 1 => .ok .mk
  | _ => .error .modifier

/-- Register count of ITER (R103). -/
def IterCount.dec : Nat → Except Reject IterCount
  | 1 => .ok .one
  | 2 => .ok .two
  | 3 => .ok .three
  | _ => .error .limit


/-- Reads the fields of IntR; every other bit below the opcode is reserved (R39). -/
def IntR.dec (word : Nat) : Except Reject IntR := do
  zeroBits word 0 21
  zeroBits word 29 6
  let dv ← Dst.dec (fld word 47 6)
  let av ← Src.dec (fld word 41 6)
  let bv ← Src.dec (fld word 35 6)
  let wv ← WTy.dec (fld word 21 3)
  pure { stall := BitVec.ofNat 3 (fld word 53 3), d := dv, a := av, b := bv, w := wv }

/-- Reads the fields of IntI; every other bit below the opcode is reserved (R39). -/
def IntI.dec (word : Nat) : Except Reject IntI := do
  zeroBits word 32 1
  let dv ← Dst.dec (fld word 47 6)
  let av ← Src.dec (fld word 41 6)
  let wv ← WTy.dec (fld word 34 2)
  pure { stall := BitVec.ofNat 3 (fld word 53 3), d := dv, a := av, w := wv, zx := fld word 33 1 == 1, imm := BitVec.ofNat 32 (fld word 0 32) }

/-- Reads the fields of BitU; every other bit below the opcode is reserved (R39). -/
def BitU.dec (word : Nat) : Except Reject BitU := do
  zeroBits word 0 21
  zeroBits word 29 12
  let dv ← Dst.dec (fld word 47 6)
  let av ← Src.dec (fld word 41 6)
  let wv ← IntTy.dec (fld word 21 3)
  pure { stall := BitVec.ofNat 3 (fld word 53 3), d := dv, a := av, w := wv }

/-- Reads the fields of BitT; every other bit below the opcode is reserved (R39). -/
def BitT.dec (word : Nat) : Except Reject BitT := do
  zeroBits word 0 21
  let dv ← Dst.dec (fld word 47 6)
  let av ← Src.dec (fld word 41 6)
  let bv ← Src.dec (fld word 35 6)
  let cv ← Src.dec (fld word 29 6)
  let wv ← IntTy.dec (fld word 21 3)
  pure { stall := BitVec.ofNat 3 (fld word 53 3), d := dv, a := av, b := bv, c := cv, w := wv }

/-- Reads the fields of CmpR; every other bit below the opcode is reserved (R39). -/
def CmpR.dec (word : Nat) : Except Reject CmpR := do
  zeroBits word 0 21
  zeroBits word 29 6
  let dv ← Dst.dec (fld word 47 6)
  let av ← Src.dec (fld word 41 6)
  let bv ← Src.dec (fld word 35 6)
  let wv ← IntTy.dec (fld word 21 3)
  pure { stall := BitVec.ofNat 3 (fld word 53 3), d := dv, a := av, b := bv, w := wv }

/-- Reads the fields of SelR; every other bit below the opcode is reserved (R39). -/
def SelR.dec (word : Nat) : Except Reject SelR := do
  zeroBits word 0 24
  let dv ← Dst.dec (fld word 47 6)
  let av ← Src.dec (fld word 41 6)
  let bv ← Src.dec (fld word 35 6)
  let cv ← Src.dec (fld word 29 6)
  pure { stall := BitVec.ofNat 3 (fld word 53 3), d := dv, a := av, b := bv, c := cv }

/-- Reads the fields of LiI; every other bit below the opcode is reserved (R39). -/
def LiI.dec (word : Nat) : Except Reject LiI := do
  zeroBits word 32 1
  zeroBits word 34 2
  zeroBits word 41 6
  let dv ← Dst.dec (fld word 47 6)
  pure { stall := BitVec.ofNat 3 (fld word 53 3), d := dv, zx := fld word 33 1 == 1, imm := BitVec.ofNat 32 (fld word 0 32) }

/-- Reads the fields of LihI; every other bit below the opcode is reserved (R39). -/
def LihI.dec (word : Nat) : Except Reject LihI := do
  zeroBits word 32 4
  let dv ← Dst.dec (fld word 47 6)
  let av ← Src.dec (fld word 41 6)
  pure { stall := BitVec.ofNat 3 (fld word 53 3), d := dv, a := av, imm := BitVec.ofNat 32 (fld word 0 32) }

/-- Reads the fields of LeaM; every other bit below the opcode is reserved (R39). -/
def LeaM.dec (word : Nat) : Except Reject LeaM := do
  zeroBits word 27 3
  let dv ← Dst.dec (fld word 47 6)
  let av ← Src.dec (fld word 41 6)
  let bv ← Src.dec (fld word 35 6)
  pure { stall := BitVec.ofNat 3 (fld word 53 3), d := dv, a := av, b := bv, sh := BitVec.ofNat 3 (fld word 24 3), off := BitVec.ofNat 24 (fld word 0 24) }

/-- Reads the fields of SkipC; every other bit below the opcode is reserved (R39). -/
def SkipC.dec (word : Nat) : Except Reject SkipC := do
  zeroBits word 32 4
  zeroBits word 47 6
  let av ← Src.dec (fld word 41 6)
  pure { stall := BitVec.ofNat 3 (fld word 53 3), a := av, cnt := BitVec.ofNat 32 (fld word 0 32) }

/-- Reads the fields of JmpC; every other bit below the opcode is reserved (R39). -/
def JmpC.dec (word : Nat) : Except Reject JmpC := do
  zeroBits word 32 4
  zeroBits word 41 12
  pure { stall := BitVec.ofNat 3 (fld word 53 3), disp := BitVec.ofNat 32 (fld word 0 32) }

/-- Reads the fields of JmpA; every other bit below the opcode is reserved (R39). -/
def JmpA.dec (word : Nat) : Except Reject JmpA := do
  zeroBits word 32 4
  zeroBits word 47 6
  let av ← Src.dec (fld word 41 6)
  pure { stall := BitVec.ofNat 3 (fld word 53 3), a := av, disp := BitVec.ofNat 32 (fld word 0 32) }

/-- Reads the fields of UnC; every other bit below the opcode is reserved (R39). -/
def UnC.dec (word : Nat) : Except Reject UnC := do
  zeroBits word 0 36
  zeroBits word 47 6
  let av ← Src.dec (fld word 41 6)
  pure { stall := BitVec.ofNat 3 (fld word 53 3), a := av }

/-- Reads the fields of BareC; every other bit below the opcode is reserved (R39). -/
def BareC.dec (word : Nat) : Except Reject BareC := do
  zeroBits word 0 36
  zeroBits word 41 12
  pure { stall := BitVec.ofNat 3 (fld word 53 3) }

/-- Reads the fields of IterC; every other bit below the opcode is reserved (R39). -/
def IterC.dec (word : Nat) : Except Reject IterC := do
  zeroBits word 34 2
  zeroBits word 41 6
  let dv ← NReg.dec (fld word 47 6)
  let cntv ← IterCount.dec (fld word 32 2)
  pure { stall := BitVec.ofNat 3 (fld word 53 3), d := dv, cnt := cntv, disp := BitVec.ofNat 32 (fld word 0 32) }

/-- Reads the fields of BareI; every other bit below the opcode is reserved (R39). -/
def BareI.dec (word : Nat) : Except Reject BareI := do
  zeroBits word 0 36
  zeroBits word 41 12
  pure { stall := BitVec.ofNat 3 (fld word 53 3) }

/-- Reads the fields of CountI; every other bit below the opcode is reserved (R39). -/
def CountI.dec (word : Nat) : Except Reject CountI := do
  zeroBits word 32 4
  zeroBits word 41 12
  pure { stall := BitVec.ofNat 3 (fld word 53 3), n := BitVec.ofNat 32 (fld word 0 32) }

/-- Reads the fields of Fp2; every other bit below the opcode is reserved (R39). -/
def Fp2.dec (word : Nat) : Except Reject Fp2 := do
  zeroBits word 0 18
  zeroBits word 29 6
  let dv ← Dst.dec (fld word 47 6)
  let av ← Src.dec (fld word 41 6)
  let bv ← Src.dec (fld word 35 6)
  let tyv ← FpTy.dec (fld word 21 3)
  let rmv ← Rm.dec (fld word 19 2)
  pure { stall := BitVec.ofNat 3 (fld word 53 3), d := dv, a := av, b := bv, ty := tyv, rm := rmv, ftz := fld word 18 1 == 1 }

/-- Reads the fields of Fp1; every other bit below the opcode is reserved (R39). -/
def Fp1.dec (word : Nat) : Except Reject Fp1 := do
  zeroBits word 0 18
  zeroBits word 29 12
  let dv ← Dst.dec (fld word 47 6)
  let av ← Src.dec (fld word 41 6)
  let tyv ← FpTy.dec (fld word 21 3)
  let rmv ← Rm.dec (fld word 19 2)
  pure { stall := BitVec.ofNat 3 (fld word 53 3), d := dv, a := av, ty := tyv, rm := rmv, ftz := fld word 18 1 == 1 }

/-- Reads the fields of Fp2n; every other bit below the opcode is reserved (R39). -/
def Fp2n.dec (word : Nat) : Except Reject Fp2n := do
  zeroBits word 0 18
  zeroBits word 19 2
  zeroBits word 29 6
  let dv ← Dst.dec (fld word 47 6)
  let av ← Src.dec (fld word 41 6)
  let bv ← Src.dec (fld word 35 6)
  let tyv ← FpTy.dec (fld word 21 3)
  pure { stall := BitVec.ofNat 3 (fld word 53 3), d := dv, a := av, b := bv, ty := tyv, ftz := fld word 18 1 == 1 }

/-- Reads the fields of Fp1n; every other bit below the opcode is reserved (R39). -/
def Fp1n.dec (word : Nat) : Except Reject Fp1n := do
  zeroBits word 0 18
  zeroBits word 19 2
  zeroBits word 29 12
  let dv ← Dst.dec (fld word 47 6)
  let av ← Src.dec (fld word 41 6)
  let tyv ← FpTy.dec (fld word 21 3)
  pure { stall := BitVec.ofNat 3 (fld word 53 3), d := dv, a := av, ty := tyv, ftz := fld word 18 1 == 1 }

/-- Reads the fields of Fp3; every other bit below the opcode is reserved (R39). -/
def Fp3.dec (word : Nat) : Except Reject Fp3 := do
  zeroBits word 0 18
  let dv ← Dst.dec (fld word 47 6)
  let av ← Src.dec (fld word 41 6)
  let bv ← Src.dec (fld word 35 6)
  let cv ← Src.dec (fld word 29 6)
  let tyv ← FpTy.dec (fld word 21 3)
  let rmv ← Rm.dec (fld word 19 2)
  pure { stall := BitVec.ofNat 3 (fld word 53 3), d := dv, a := av, b := bv, c := cv, ty := tyv, rm := rmv, ftz := fld word 18 1 == 1 }

/-- Reads the fields of ConvR; every other bit below the opcode is reserved (R39). -/
def ConvR.dec (word : Nat) : Except Reject ConvR := do
  zeroBits word 0 10
  zeroBits word 29 12
  let dv ← Dst.dec (fld word 47 6)
  let av ← Src.dec (fld word 41 6)
  let dkv ← Kind.dec (fld word 20 4)
  let skv ← Kind.dec (fld word 16 4)
  let rmv ← Rm.dec (fld word 14 2)
  pure { stall := BitVec.ofNat 3 (fld word 53 3), d := dv, a := av, dk := dkv, sk := skv, rm := rmv, ftz := fld word 13 1 == 1, fmt := Fin.ofNat 8 (fld word 10 3) }

/-- Reads the fields of ConvV; every other bit below the opcode is reserved (R39). -/
def ConvV.dec (word : Nat) : Except Reject ConvV := do
  zeroBits word 0 10
  zeroBits word 29 6
  let dv ← VReg.dec (fld word 47 6)
  let av ← VReg.dec (fld word 41 6)
  let kv ← Src.dec (fld word 35 6)
  let dkv ← Kind.dec (fld word 20 4)
  let skv ← Kind.dec (fld word 16 4)
  let rmv ← Rm.dec (fld word 14 2)
  pure { stall := BitVec.ofNat 3 (fld word 53 3), d := dv, a := av, k := kv, dk := dkv, sk := skv, rm := rmv, ftz := fld word 13 1 == 1, fmt := Fin.ofNat 8 (fld word 10 3) }

/-- Reads the fields of SysrdI; every other bit below the opcode is reserved (R39). -/
def SysrdI.dec (word : Nat) : Except Reject SysrdI := do
  zeroBits word 32 4
  zeroBits word 41 6
  let dv ← Dst.dec (fld word 47 6)
  pure { stall := BitVec.ofNat 3 (fld word 53 3), d := dv, reg := BitVec.ofNat 32 (fld word 0 32) }

/-- Reads the fields of SyswrI; every other bit below the opcode is reserved (R39). -/
def SyswrI.dec (word : Nat) : Except Reject SyswrI := do
  zeroBits word 32 4
  zeroBits word 47 6
  let av ← Src.dec (fld word 41 6)
  pure { stall := BitVec.ofNat 3 (fld word 53 3), a := av, reg := BitVec.ofNat 32 (fld word 0 32) }

/-- Reads the fields of TrapI; every other bit below the opcode is reserved (R39). -/
def TrapI.dec (word : Nat) : Except Reject TrapI := do
  zeroBits word 32 4
  zeroBits word 41 12
  pure { stall := BitVec.ofNat 3 (fld word 53 3), imm := BitVec.ofNat 32 (fld word 0 32) }

/-- Reads the fields of TraceI; every other bit below the opcode is reserved (R39). -/
def TraceI.dec (word : Nat) : Except Reject TraceI := do
  zeroBits word 32 4
  zeroBits word 47 6
  let av ← Src.dec (fld word 41 6)
  pure { stall := BitVec.ofNat 3 (fld word 53 3), a := av, tag := BitVec.ofNat 32 (fld word 0 32) }

/-- Reads the fields of V2; every other bit below the opcode is reserved (R39). -/
def V2.dec (word : Nat) : Except Reject V2 := do
  zeroBits word 0 12
  zeroBits word 29 6
  let dv ← VReg.dec (fld word 47 6)
  let av ← VReg.dec (fld word 41 6)
  let bv ← VReg.dec (fld word 35 6)
  let tyv ← FpTy.dec (fld word 21 3)
  let rmv ← Rm.dec (fld word 19 2)
  let kv ← Src.dec (fld word 12 6)
  pure { stall := BitVec.ofNat 3 (fld word 53 3), d := dv, a := av, b := bv, ty := tyv, rm := rmv, ftz := fld word 18 1 == 1, k := kv }

/-- Reads the fields of V2n; every other bit below the opcode is reserved (R39). -/
def V2n.dec (word : Nat) : Except Reject V2n := do
  zeroBits word 0 12
  zeroBits word 19 2
  zeroBits word 29 6
  let dv ← VReg.dec (fld word 47 6)
  let av ← VReg.dec (fld word 41 6)
  let bv ← VReg.dec (fld word 35 6)
  let tyv ← FpTy.dec (fld word 21 3)
  let kv ← Src.dec (fld word 12 6)
  pure { stall := BitVec.ofNat 3 (fld word 53 3), d := dv, a := av, b := bv, ty := tyv, ftz := fld word 18 1 == 1, k := kv }

/-- Reads the fields of V1; every other bit below the opcode is reserved (R39). -/
def V1.dec (word : Nat) : Except Reject V1 := do
  zeroBits word 0 12
  zeroBits word 29 12
  let dv ← VReg.dec (fld word 47 6)
  let av ← VReg.dec (fld word 41 6)
  let tyv ← FpTy.dec (fld word 21 3)
  let rmv ← Rm.dec (fld word 19 2)
  let kv ← Src.dec (fld word 12 6)
  pure { stall := BitVec.ofNat 3 (fld word 53 3), d := dv, a := av, ty := tyv, rm := rmv, ftz := fld word 18 1 == 1, k := kv }

/-- Reads the fields of V3; every other bit below the opcode is reserved (R39). -/
def V3.dec (word : Nat) : Except Reject V3 := do
  zeroBits word 0 12
  let dv ← VReg.dec (fld word 47 6)
  let av ← VReg.dec (fld word 41 6)
  let bv ← VReg.dec (fld word 35 6)
  let cv ← VReg.dec (fld word 29 6)
  let tyv ← FpTy.dec (fld word 21 3)
  let rmv ← Rm.dec (fld word 19 2)
  let kv ← Src.dec (fld word 12 6)
  pure { stall := BitVec.ofNat 3 (fld word 53 3), d := dv, a := av, b := bv, c := cv, ty := tyv, rm := rmv, ftz := fld word 18 1 == 1, k := kv }

/-- Reads the fields of VI2; every other bit below the opcode is reserved (R39). -/
def VI2.dec (word : Nat) : Except Reject VI2 := do
  zeroBits word 0 12
  zeroBits word 18 3
  zeroBits word 29 6
  let dv ← VReg.dec (fld word 47 6)
  let av ← VReg.dec (fld word 41 6)
  let bv ← VReg.dec (fld word 35 6)
  let wv ← IntTy.dec (fld word 21 3)
  let kv ← Src.dec (fld word 12 6)
  pure { stall := BitVec.ofNat 3 (fld word 53 3), d := dv, a := av, b := bv, w := wv, k := kv }

/-- Reads the fields of VCmp; every other bit below the opcode is reserved (R39). -/
def VCmp.dec (word : Nat) : Except Reject VCmp := do
  zeroBits word 0 12
  zeroBits word 19 2
  zeroBits word 29 6
  let dv ← Dst.dec (fld word 47 6)
  let av ← VReg.dec (fld word 41 6)
  let bv ← VReg.dec (fld word 35 6)
  let tyv ← NumTy.dec (fld word 21 3)
  let kv ← Src.dec (fld word 12 6)
  pure { stall := BitVec.ofNat 3 (fld word 53 3), d := dv, a := av, b := bv, ty := tyv, ftz := fld word 18 1 == 1, k := kv }

/-- Reads the fields of VSelR; every other bit below the opcode is reserved (R39). -/
def VSelR.dec (word : Nat) : Except Reject VSelR := do
  zeroBits word 0 12
  zeroBits word 18 3
  let dv ← VReg.dec (fld word 47 6)
  let av ← VReg.dec (fld word 41 6)
  let bv ← VReg.dec (fld word 35 6)
  let cv ← Src.dec (fld word 29 6)
  let wv ← WTy.dec (fld word 21 3)
  let kv ← Src.dec (fld word 12 6)
  pure { stall := BitVec.ofNat 3 (fld word 53 3), d := dv, a := av, b := bv, c := cv, w := wv, k := kv }

/-- Reads the fields of VRedR; every other bit below the opcode is reserved (R39). -/
def VRedR.dec (word : Nat) : Except Reject VRedR := do
  zeroBits word 0 12
  zeroBits word 29 12
  let opv ← RedOp.dec (fld word 24 5)
  let dv ← Dst.dec (fld word 47 6)
  let av ← VReg.dec (fld word 41 6)
  let tyv ← NumTy.dec (fld word 21 3)
  if opv == .add then pure () else zeroBits word 19 2
  let rmv ← Rm.dec (fld word 19 2)
  let kv ← Src.dec (fld word 12 6)
  pure { stall := BitVec.ofNat 3 (fld word 53 3), op := opv, d := dv, a := av, ty := tyv, rm := rmv, ftz := fld word 18 1 == 1, k := kv }

/-- Reads the fields of VRmaxR; every other bit below the opcode is reserved (R39). -/
def VRmaxR.dec (word : Nat) : Except Reject VRmaxR := do
  zeroBits word 0 12
  zeroBits word 19 2
  zeroBits word 29 12
  let dv ← Dst.dec (fld word 47 6)
  let av ← VReg.dec (fld word 41 6)
  let tyv ← NumTy.dec (fld word 21 3)
  let kv ← Src.dec (fld word 12 6)
  pure { stall := BitVec.ofNat 3 (fld word 53 3), d := dv, a := av, ty := tyv, ftz := fld word 18 1 == 1, k := kv }

/-- Reads the fields of VScanR; every other bit below the opcode is reserved (R39). -/
def VScanR.dec (word : Nat) : Except Reject VScanR := do
  zeroBits word 0 12
  zeroBits word 29 12
  let dv ← VReg.dec (fld word 47 6)
  let av ← VReg.dec (fld word 41 6)
  let tyv ← NumTy.dec (fld word 21 3)
  let rmv ← Rm.dec (fld word 19 2)
  let kv ← Src.dec (fld word 12 6)
  pure { stall := BitVec.ofNat 3 (fld word 53 3), d := dv, a := av, ty := tyv, rm := rmv, ftz := fld word 18 1 == 1, k := kv }

/-- Reads the fields of VSplatR; every other bit below the opcode is reserved (R39). -/
def VSplatR.dec (word : Nat) : Except Reject VSplatR := do
  zeroBits word 0 12
  zeroBits word 18 3
  zeroBits word 29 12
  let dv ← VReg.dec (fld word 47 6)
  let av ← Src.dec (fld word 41 6)
  let wv ← WTy.dec (fld word 21 3)
  let kv ← Src.dec (fld word 12 6)
  pure { stall := BitVec.ofNat 3 (fld word 53 3), d := dv, a := av, w := wv, k := kv }

/-- Reads the fields of VLaneR; every other bit below the opcode is reserved (R39). -/
def VLaneR.dec (word : Nat) : Except Reject VLaneR := do
  zeroBits word 0 12
  zeroBits word 18 3
  zeroBits word 29 6
  let dv ← Dst.dec (fld word 47 6)
  let av ← VReg.dec (fld word 41 6)
  let bv ← Src.dec (fld word 35 6)
  let wv ← WTy.dec (fld word 21 3)
  let kv ← Src.dec (fld word 12 6)
  pure { stall := BitVec.ofNat 3 (fld word 53 3), d := dv, a := av, b := bv, w := wv, k := kv }

/-- Reads the fields of VInsR; every other bit below the opcode is reserved (R39). -/
def VInsR.dec (word : Nat) : Except Reject VInsR := do
  zeroBits word 0 12
  zeroBits word 18 3
  let dv ← VReg.dec (fld word 47 6)
  let av ← VReg.dec (fld word 41 6)
  let bv ← Src.dec (fld word 35 6)
  let cv ← Src.dec (fld word 29 6)
  let wv ← WTy.dec (fld word 21 3)
  let kv ← Src.dec (fld word 12 6)
  pure { stall := BitVec.ofNat 3 (fld word 53 3), d := dv, a := av, b := bv, c := cv, w := wv, k := kv }

/-- Reads the fields of VPermR; every other bit below the opcode is reserved (R39). -/
def VPermR.dec (word : Nat) : Except Reject VPermR := do
  zeroBits word 0 12
  zeroBits word 18 3
  zeroBits word 29 6
  let dv ← VReg.dec (fld word 47 6)
  let av ← VReg.dec (fld word 41 6)
  let bv ← VReg.dec (fld word 35 6)
  let wv ← WTy.dec (fld word 21 3)
  let kv ← Src.dec (fld word 12 6)
  pure { stall := BitVec.ofNat 3 (fld word 53 3), d := dv, a := av, b := bv, w := wv, k := kv }

/-- Reads the fields of VRankR; every other bit below the opcode is reserved (R39). -/
def VRankR.dec (word : Nat) : Except Reject VRankR := do
  zeroBits word 0 12
  zeroBits word 19 2
  zeroBits word 29 6
  let dv ← VReg.dec (fld word 47 6)
  let av ← VReg.dec (fld word 41 6)
  let bv ← VReg.dec (fld word 35 6)
  let tyv ← RankTy.dec (fld word 21 3)
  let kv ← Src.dec (fld word 12 6)
  pure { stall := BitVec.ofNat 3 (fld word 53 3), d := dv, a := av, b := bv, ty := tyv, ftz := fld word 18 1 == 1, k := kv }

/-- Reads the fields of VSelkR; every other bit below the opcode is reserved (R39). -/
def VSelkR.dec (word : Nat) : Except Reject VSelkR := do
  zeroBits word 0 12
  zeroBits word 19 2
  zeroBits word 29 6
  let dv ← Dst.dec (fld word 47 6)
  let av ← VReg.dec (fld word 41 6)
  let bv ← Src.dec (fld word 35 6)
  let tyv ← RankTy.dec (fld word 21 3)
  let kv ← Src.dec (fld word 12 6)
  pure { stall := BitVec.ofNat 3 (fld word 53 3), d := dv, a := av, b := bv, ty := tyv, ftz := fld word 18 1 == 1, k := kv }

/-- Reads the fields of VldlR; every other bit below the opcode is reserved (R39). -/
def VldlR.dec (word : Nat) : Except Reject VldlR := do
  zeroBits word 0 10
  zeroBits word 16 8
  zeroBits word 29 12
  let dv ← VReg.dec (fld word 47 6)
  let av ← Src.dec (fld word 41 6)
  let kv ← Src.dec (fld word 10 6)
  pure { stall := BitVec.ofNat 3 (fld word 53 3), d := dv, a := av, k := kv }

/-- Reads the fields of VstlR; every other bit below the opcode is reserved (R39). -/
def VstlR.dec (word : Nat) : Except Reject VstlR := do
  zeroBits word 0 10
  zeroBits word 16 8
  zeroBits word 29 6
  zeroBits word 47 6
  let av ← Src.dec (fld word 41 6)
  let bv ← VReg.dec (fld word 35 6)
  let kv ← Src.dec (fld word 10 6)
  pure { stall := BitVec.ofNat 3 (fld word 53 3), a := av, b := bv, k := kv }

/-- Reads the fields of OdefR; every other bit below the opcode is reserved (R39). -/
def OdefR.dec (word : Nat) : Except Reject OdefR := do
  zeroBits word 0 16
  zeroBits word 47 6
  let av ← Src.dec (fld word 41 6)
  let bv ← Src.dec (fld word 35 6)
  let cv ← Src.dec (fld word 29 6)
  let layoutv ← Layout.dec (fld word 16 2)
  pure { stall := BitVec.ofNat 3 (fld word 53 3), a := av, b := bv, c := cv, os := Fin.ofNat 8 (fld word 21 3), fmt := Fin.ofNat 8 (fld word 18 3), layout := layoutv }

/-- Reads the fields of SpfI; every other bit below the opcode is reserved (R39). -/
def SpfI.dec (word : Nat) : Except Reject SpfI := do
  zeroBits word 8 28
  zeroBits word 41 12
  pure { stall := BitVec.ofNat 3 (fld word 53 3), mask := BitVec.ofNat 8 (fld word 0 8) }

/-- Reads the fields of TileR; every other bit below the opcode is reserved (R39). -/
def TileR.dec (word : Nat) : Except Reject TileR := do
  zeroBits word 0 20
  zeroBits word 29 24
  pure { stall := BitVec.ofNat 3 (fld word 53 3), tile := Fin.ofNat 16 (fld word 20 4) }

/-- Reads the fields of CrdR; every other bit below the opcode is reserved (R39). -/
def CrdR.dec (word : Nat) : Except Reject CrdR := do
  zeroBits word 0 20
  zeroBits word 29 12
  let dv ← VReg.dec (fld word 47 6)
  let av ← Src.dec (fld word 41 6)
  pure { stall := BitVec.ofNat 3 (fld word 53 3), d := dv, a := av, tile := Fin.ofNat 16 (fld word 20 4) }

/-- Reads the fields of CwrR; every other bit below the opcode is reserved (R39). -/
def CwrR.dec (word : Nat) : Except Reject CwrR := do
  zeroBits word 0 20
  zeroBits word 29 6
  zeroBits word 47 6
  let av ← Src.dec (fld word 41 6)
  let bv ← VReg.dec (fld word 35 6)
  pure { stall := BitVec.ofNat 3 (fld word 53 3), a := av, b := bv, tile := Fin.ofNat 16 (fld word 20 4) }

/-- Reads the fields of CldR; every other bit below the opcode is reserved (R39). -/
def CldR.dec (word : Nat) : Except Reject CldR := do
  zeroBits word 0 10
  zeroBits word 47 6
  let av ← Src.dec (fld word 41 6)
  let bv ← Src.dec (fld word 35 6)
  let cv ← Src.dec (fld word 29 6)
  let kindv ← CldKind.dec (fld word 13 4)
  pure { stall := BitVec.ofNat 3 (fld word 53 3), a := av, b := bv, c := cv, tile := Fin.ofNat 16 (fld word 20 4), os := Fin.ofNat 8 (fld word 17 3), kind := kindv, fmt := Fin.ofNat 8 (fld word 10 3) }

/-- Reads the fields of CqryR; every other bit below the opcode is reserved (R39). -/
def CqryR.dec (word : Nat) : Except Reject CqryR := do
  zeroBits word 0 20
  zeroBits word 29 18
  let dv ← Dst.dec (fld word 47 6)
  pure { stall := BitVec.ofNat 3 (fld word 53 3), d := dv, tile := Fin.ofNat 16 (fld word 20 4) }

/-- Reads the fields of LdM; every other bit below the opcode is reserved (R39). -/
def LdM.dec (word : Nat) : Except Reject LdM := do
  zeroBits word 35 6
  let dv ← Dst.dec (fld word 47 6)
  let av ← Src.dec (fld word 41 6)
  let wv ← IntTy.dec (fld word 33 2)
  let spv ← Space.dec (fld word 30 2)
  let polv ← Policy.dec (fld word 28 2)
  let ordv ← Ord.dec (fld word 24 4)
  pure { stall := BitVec.ofNat 3 (fld word 53 3), d := dv, a := av, off := BitVec.ofNat 24 (fld word 0 24), w := wv, sx := fld word 32 1 == 1, sp := spv, pol := polv, ord := ordv }

/-- Reads the fields of StM; every other bit below the opcode is reserved (R39). -/
def StM.dec (word : Nat) : Except Reject StM := do
  zeroBits word 32 1
  zeroBits word 47 6
  let av ← Src.dec (fld word 41 6)
  let bv ← Src.dec (fld word 35 6)
  let wv ← IntTy.dec (fld word 33 2)
  let spv ← Space.dec (fld word 30 2)
  let polv ← Policy.dec (fld word 28 2)
  let ordv ← Ord.dec (fld word 24 4)
  pure { stall := BitVec.ofNat 3 (fld word 53 3), a := av, b := bv, off := BitVec.ofNat 24 (fld word 0 24), w := wv, sp := spv, pol := polv, ord := ordv }

/-- Reads the fields of LdcM; every other bit below the opcode is reserved (R39). -/
def LdcM.dec (word : Nat) : Except Reject LdcM := do
  zeroBits word 24 6
  zeroBits word 35 6
  let dv ← Dst.dec (fld word 47 6)
  let av ← Src.dec (fld word 41 6)
  pure { stall := BitVec.ofNat 3 (fld word 53 3), d := dv, a := av, off := BitVec.ofNat 24 (fld word 0 24) }

/-- Reads the fields of StfM; every other bit below the opcode is reserved (R39). -/
def StfM.dec (word : Nat) : Except Reject StfM := do
  zeroBits word 24 6
  zeroBits word 47 6
  let av ← Src.dec (fld word 41 6)
  let bv ← Src.dec (fld word 35 6)
  pure { stall := BitVec.ofNat 3 (fld word 53 3), a := av, b := bv, off := BitVec.ofNat 24 (fld word 0 24) }

/-- Reads the fields of SbindR; every other bit below the opcode is reserved (R39). -/
def SbindR.dec (word : Nat) : Except Reject SbindR := do
  zeroBits word 0 16
  zeroBits word 47 6
  let av ← Src.dec (fld word 41 6)
  let bv ← Src.dec (fld word 35 6)
  let cv ← Src.dec (fld word 29 6)
  let spv ← Space.dec (fld word 19 2)
  pure { stall := BitVec.ofNat 3 (fld word 53 3), a := av, b := bv, c := cv, es := BitVec.ofNat 2 (fld word 22 2), wr := fld word 21 1 == 1, sp := spv, s := Fin.ofNat 8 (fld word 16 3) }

/-- Reads the fields of SunbR; every other bit below the opcode is reserved (R39). -/
def SunbR.dec (word : Nat) : Except Reject SunbR := do
  zeroBits word 0 16
  zeroBits word 19 5
  zeroBits word 29 24
  pure { stall := BitVec.ofNat 3 (fld word 53 3), s := Fin.ofNat 8 (fld word 16 3) }

/-- Reads the fields of DR; every other bit below the opcode is reserved (R39). -/
def DR.dec (word : Nat) : Except Reject DR := do
  zeroBits word 0 24
  zeroBits word 29 18
  let dv ← Dst.dec (fld word 47 6)
  pure { stall := BitVec.ofNat 3 (fld word 53 3), d := dv }

/-- Reads the fields of PrefM; every other bit below the opcode is reserved (R39). -/
def PrefM.dec (word : Nat) : Except Reject PrefM := do
  zeroBits word 24 2
  zeroBits word 35 6
  zeroBits word 47 6
  let av ← Src.dec (fld word 41 6)
  let polv ← Policy.dec (fld word 28 2)
  let spv ← Space.dec (fld word 26 2)
  pure { stall := BitVec.ofNat 3 (fld word 53 3), a := av, off := BitVec.ofNat 24 (fld word 0 24), pol := polv, sp := spv }

/-- Reads the fields of RngM; every other bit below the opcode is reserved (R39). -/
def RngM.dec (word : Nat) : Except Reject RngM := do
  zeroBits word 24 6
  zeroBits word 47 6
  let av ← Src.dec (fld word 41 6)
  let bv ← Src.dec (fld word 35 6)
  pure { stall := BitVec.ofNat 3 (fld word 53 3), a := av, b := bv, off := BitVec.ofNat 24 (fld word 0 24) }

/-- Reads the fields of FenceI; every other bit below the opcode is reserved (R39). -/
def FenceI.dec (word : Nat) : Except Reject FenceI := do
  zeroBits word 0 32
  zeroBits word 41 12
  let ordv ← Ord.dec (fld word 32 4)
  pure { stall := BitVec.ofNat 3 (fld word 53 3), ord := ordv }

/-- Reads the fields of QfI; every other bit below the opcode is reserved (R39). -/
def QfI.dec (word : Nat) : Except Reject QfI := do
  zeroBits word 6 30
  zeroBits word 41 12
  pure { stall := BitVec.ofNat 3 (fld word 53 3), mask := BitVec.ofNat 6 (fld word 0 6) }

/-- Reads the fields of VldR; every other bit below the opcode is reserved (R39). -/
def VldR.dec (word : Nat) : Except Reject VldR := do
  zeroBits word 0 10
  zeroBits word 29 12
  let dv ← VReg.dec (fld word 47 6)
  let av ← Src.dec (fld word 41 6)
  let spv ← Space.dec (fld word 22 2)
  let polv ← Policy.dec (fld word 20 2)
  let ordv ← Ord.dec (fld word 16 4)
  let kv ← Src.dec (fld word 10 6)
  pure { stall := BitVec.ofNat 3 (fld word 53 3), d := dv, a := av, sp := spv, pol := polv, ord := ordv, k := kv }

/-- Reads the fields of VstR; every other bit below the opcode is reserved (R39). -/
def VstR.dec (word : Nat) : Except Reject VstR := do
  zeroBits word 0 10
  zeroBits word 29 6
  zeroBits word 47 6
  let av ← Src.dec (fld word 41 6)
  let bv ← VReg.dec (fld word 35 6)
  let spv ← Space.dec (fld word 22 2)
  let polv ← Policy.dec (fld word 20 2)
  let ordv ← Ord.dec (fld word 16 4)
  let kv ← Src.dec (fld word 10 6)
  pure { stall := BitVec.ofNat 3 (fld word 53 3), a := av, b := bv, sp := spv, pol := polv, ord := ordv, k := kv }

/-- Reads the fields of VldsR; every other bit below the opcode is reserved (R39). -/
def VldsR.dec (word : Nat) : Except Reject VldsR := do
  zeroBits word 0 10
  zeroBits word 35 6
  let dv ← VReg.dec (fld word 47 6)
  let av ← Src.dec (fld word 41 6)
  let cv ← Src.dec (fld word 29 6)
  let spv ← Space.dec (fld word 22 2)
  let polv ← Policy.dec (fld word 20 2)
  let ordv ← Ord.dec (fld word 16 4)
  let kv ← Src.dec (fld word 10 6)
  pure { stall := BitVec.ofNat 3 (fld word 53 3), d := dv, a := av, c := cv, sp := spv, pol := polv, ord := ordv, k := kv }

/-- Reads the fields of VstsR; every other bit below the opcode is reserved (R39). -/
def VstsR.dec (word : Nat) : Except Reject VstsR := do
  zeroBits word 0 10
  zeroBits word 47 6
  let av ← Src.dec (fld word 41 6)
  let bv ← VReg.dec (fld word 35 6)
  let cv ← Src.dec (fld word 29 6)
  let spv ← Space.dec (fld word 22 2)
  let polv ← Policy.dec (fld word 20 2)
  let ordv ← Ord.dec (fld word 16 4)
  let kv ← Src.dec (fld word 10 6)
  pure { stall := BitVec.ofNat 3 (fld word 53 3), a := av, b := bv, c := cv, sp := spv, pol := polv, ord := ordv, k := kv }

/-- Reads the fields of VgthR; every other bit below the opcode is reserved (R39). -/
def VgthR.dec (word : Nat) : Except Reject VgthR := do
  zeroBits word 0 10
  zeroBits word 29 6
  let dv ← VReg.dec (fld word 47 6)
  let av ← Src.dec (fld word 41 6)
  let bv ← VReg.dec (fld word 35 6)
  let spv ← Space.dec (fld word 22 2)
  let polv ← Policy.dec (fld word 20 2)
  let ordv ← Ord.dec (fld word 16 4)
  let kv ← Src.dec (fld word 10 6)
  pure { stall := BitVec.ofNat 3 (fld word 53 3), d := dv, a := av, b := bv, sp := spv, pol := polv, ord := ordv, k := kv }

/-- Reads the fields of VsctR; every other bit below the opcode is reserved (R39). -/
def VsctR.dec (word : Nat) : Except Reject VsctR := do
  zeroBits word 0 10
  zeroBits word 47 6
  let av ← Src.dec (fld word 41 6)
  let bv ← VReg.dec (fld word 35 6)
  let cv ← VReg.dec (fld word 29 6)
  let spv ← Space.dec (fld word 22 2)
  let polv ← Policy.dec (fld word 20 2)
  let ordv ← Ord.dec (fld word 16 4)
  let kv ← Src.dec (fld word 10 6)
  pure { stall := BitVec.ofNat 3 (fld word 53 3), a := av, b := bv, c := cv, sp := spv, pol := polv, ord := ordv, k := kv }

/-- Reads the fields of VldbR; every other bit below the opcode is reserved (R39). -/
def VldbR.dec (word : Nat) : Except Reject VldbR := do
  zeroBits word 0 10
  zeroBits word 35 6
  let dv ← VReg.dec (fld word 47 6)
  let av ← Src.dec (fld word 41 6)
  let cv ← Src.dec (fld word 29 6)
  let spv ← Space.dec (fld word 22 2)
  let polv ← Policy.dec (fld word 20 2)
  let ordv ← Ord.dec (fld word 16 4)
  let kv ← Src.dec (fld word 10 6)
  pure { stall := BitVec.ofNat 3 (fld word 53 3), fmt := Fin.ofNat 8 (fld word 24 3), d := dv, a := av, c := cv, sp := spv, pol := polv, ord := ordv, k := kv }

/-- Reads the fields of VstbR; every other bit below the opcode is reserved (R39). -/
def VstbR.dec (word : Nat) : Except Reject VstbR := do
  zeroBits word 0 10
  zeroBits word 47 6
  let av ← Src.dec (fld word 41 6)
  let bv ← VReg.dec (fld word 35 6)
  let cv ← Src.dec (fld word 29 6)
  let spv ← Space.dec (fld word 22 2)
  let polv ← Policy.dec (fld word 20 2)
  let ordv ← Ord.dec (fld word 16 4)
  let kv ← Src.dec (fld word 10 6)
  pure { stall := BitVec.ofNat 3 (fld word 53 3), fmt := Fin.ofNat 8 (fld word 24 3), a := av, b := bv, c := cv, sp := spv, pol := polv, ord := ordv, k := kv }

/-- Reads the fields of CbdefR; every other bit below the opcode is reserved (R39). -/
def CbdefR.dec (word : Nat) : Except Reject CbdefR := do
  zeroBits word 0 19
  zeroBits word 47 6
  let av ← Src.dec (fld word 41 6)
  let bv ← Src.dec (fld word 35 6)
  let cv ← Src.dec (fld word 29 6)
  let spv ← CbSpace.dec (fld word 19 2)
  pure { stall := BitVec.ofNat 3 (fld word 53 3), a := av, b := bv, c := cv, cb := Fin.ofNat 8 (fld word 21 3), sp := spv }

/-- Reads the fields of CbdR; every other bit below the opcode is reserved (R39). -/
def CbdR.dec (word : Nat) : Except Reject CbdR := do
  zeroBits word 0 21
  zeroBits word 29 18
  let dv ← Dst.dec (fld word 47 6)
  pure { stall := BitVec.ofNat 3 (fld word 53 3), d := dv, cb := Fin.ofNat 8 (fld word 21 3) }

/-- Reads the fields of CbR; every other bit below the opcode is reserved (R39). -/
def CbR.dec (word : Nat) : Except Reject CbR := do
  zeroBits word 0 21
  zeroBits word 29 24
  pure { stall := BitVec.ofNat 3 (fld word 53 3), cb := Fin.ofNat 8 (fld word 21 3) }

/-- Reads the fields of AmoR; every other bit below the opcode is reserved (R39). -/
def AmoR.dec (word : Nat) : Except Reject AmoR := do
  zeroBits word 0 15
  zeroBits word 29 6
  let opv ← AmoOp.dec (fld word 24 5)
  let dv ← Dst.dec (fld word 47 6)
  let av ← Src.dec (fld word 41 6)
  let bv ← Src.dec (fld word 35 6)
  let wv ← WTy.dec (fld word 21 3)
  let spv ← Space.dec (fld word 19 2)
  let ordv ← Ord.dec (fld word 15 4)
  pure { stall := BitVec.ofNat 3 (fld word 53 3), op := opv, d := dv, a := av, b := bv, w := wv, sp := spv, ord := ordv }

/-- Reads the fields of RedR; every other bit below the opcode is reserved (R39). -/
def RedR.dec (word : Nat) : Except Reject RedR := do
  zeroBits word 0 15
  zeroBits word 29 6
  zeroBits word 47 6
  let opv ← AmoOp.dec (fld word 24 5)
  let av ← Src.dec (fld word 41 6)
  let bv ← Src.dec (fld word 35 6)
  let wv ← WTy.dec (fld word 21 3)
  let spv ← Space.dec (fld word 19 2)
  let ordv ← Ord.dec (fld word 15 4)
  pure { stall := BitVec.ofNat 3 (fld word 53 3), op := opv, a := av, b := bv, w := wv, sp := spv, ord := ordv }

/-- Reads the fields of CasR; every other bit below the opcode is reserved (R39). -/
def CasR.dec (word : Nat) : Except Reject CasR := do
  zeroBits word 0 15
  let dv ← Dst.dec (fld word 47 6)
  let av ← Src.dec (fld word 41 6)
  let bv ← Src.dec (fld word 35 6)
  let cv ← Src.dec (fld word 29 6)
  let wv ← WTy.dec (fld word 21 3)
  let spv ← Space.dec (fld word 19 2)
  let ordv ← Ord.dec (fld word 15 4)
  pure { stall := BitVec.ofNat 3 (fld word 53 3), d := dv, a := av, b := bv, c := cv, w := wv, sp := spv, ord := ordv }

/-- Reads the fields of LrwR; every other bit below the opcode is reserved (R39). -/
def LrwR.dec (word : Nat) : Except Reject LrwR := do
  zeroBits word 0 15
  zeroBits word 19 2
  zeroBits word 29 12
  let dv ← Dst.dec (fld word 47 6)
  let av ← Src.dec (fld word 41 6)
  let wv ← WTy.dec (fld word 21 3)
  let ordv ← Ord.dec (fld word 15 4)
  pure { stall := BitVec.ofNat 3 (fld word 53 3), d := dv, a := av, w := wv, ord := ordv }

/-- Reads the fields of SchR; every other bit below the opcode is reserved (R39). -/
def SchR.dec (word : Nat) : Except Reject SchR := do
  zeroBits word 0 21
  zeroBits word 29 6
  let dv ← Dst.dec (fld word 47 6)
  let av ← Src.dec (fld word 41 6)
  let bv ← Src.dec (fld word 35 6)
  let wv ← WTy.dec (fld word 21 3)
  pure { stall := BitVec.ofNat 3 (fld word 53 3), d := dv, a := av, b := bv, w := wv }

/-- Reads the fields of RrelR; every other bit below the opcode is reserved (R39). -/
def RrelR.dec (word : Nat) : Except Reject RrelR := do
  zeroBits word 0 21
  zeroBits word 29 12
  zeroBits word 47 6
  let av ← Src.dec (fld word 41 6)
  let wv ← WTy.dec (fld word 21 3)
  pure { stall := BitVec.ofNat 3 (fld word 53 3), a := av, w := wv }

/-- Reads the fields of DlA; every other bit below the opcode is reserved (R39). -/
def DlA.dec (word : Nat) : Except Reject DlA := do
  zeroBits word 0 24
  zeroBits word 29 12
  let dv ← Dst.dec (fld word 47 6)
  let av ← Src.dec (fld word 41 6)
  pure { stall := BitVec.ofNat 3 (fld word 53 3), d := dv, a := av }

/-- Reads the fields of AB; every other bit below the opcode is reserved (R39). -/
def AB.dec (word : Nat) : Except Reject AB := do
  zeroBits word 0 24
  zeroBits word 29 6
  zeroBits word 47 6
  let av ← Src.dec (fld word 41 6)
  let bv ← Src.dec (fld word 35 6)
  pure { stall := BitVec.ofNat 3 (fld word 53 3), a := av, b := bv }

/-- Reads the fields of UnR; every other bit below the opcode is reserved (R39). -/
def UnR.dec (word : Nat) : Except Reject UnR := do
  zeroBits word 0 24
  zeroBits word 29 12
  zeroBits word 47 6
  let av ← Src.dec (fld word 41 6)
  pure { stall := BitVec.ofNat 3 (fld word 53 3), a := av }

/-- Reads the fields of SendR; every other bit below the opcode is reserved (R39). -/
def SendR.dec (word : Nat) : Except Reject SendR := do
  zeroBits word 0 21
  zeroBits word 29 6
  zeroBits word 47 6
  let av ← Src.dec (fld word 41 6)
  let bv ← Src.dec (fld word 35 6)
  pure { stall := BitVec.ofNat 3 (fld word 53 3), a := av, b := bv, mreg := Fin.ofNat 8 (fld word 21 3) }

/-- Reads the fields of MpeekR; every other bit below the opcode is reserved (R39). -/
def MpeekR.dec (word : Nat) : Except Reject MpeekR := do
  zeroBits word 0 21
  zeroBits word 29 18
  let dv ← Dst.dec (fld word 47 6)
  pure { stall := BitVec.ofNat 3 (fld word 53 3), d := dv, mreg := Fin.ofNat 8 (fld word 21 3) }

/-- Reads the fields of MclrR; every other bit below the opcode is reserved (R39). -/
def MclrR.dec (word : Nat) : Except Reject MclrR := do
  zeroBits word 0 21
  zeroBits word 29 24
  pure { stall := BitVec.ofNat 3 (fld word 53 3), mreg := Fin.ofNat 8 (fld word 21 3) }

/-- Reads the fields of DlR; every other bit below the opcode is reserved (R39). -/
def DlR.dec (word : Nat) : Except Reject DlR := do
  zeroBits word 0 24
  zeroBits word 29 18
  let dv ← Dst.dec (fld word 47 6)
  pure { stall := BitVec.ofNat 3 (fld word 53 3), d := dv }

/-- Reads the fields of MigC; every other bit below the opcode is reserved (R39). -/
def MigC.dec (word : Nat) : Except Reject MigC := do
  zeroBits word 32 4
  zeroBits word 47 6
  let av ← Src.dec (fld word 41 6)
  pure { stall := BitVec.ofNat 3 (fld word 53 3), a := av, disp := BitVec.ofNat 32 (fld word 0 32) }

/-- Reads the fields of HomeC; every other bit below the opcode is reserved (R39). -/
def HomeC.dec (word : Nat) : Except Reject HomeC := do
  zeroBits word 0 36
  let dv ← Dst.dec (fld word 47 6)
  let av ← Src.dec (fld word 41 6)
  pure { stall := BitVec.ofNat 3 (fld word 53 3), d := dv, a := av }

/-- Reads the fields of CpyR; every other bit below the opcode is reserved (R39). -/
def CpyR.dec (word : Nat) : Except Reject CpyR := do
  zeroBits word 0 22
  zeroBits word 29 6
  zeroBits word 47 6
  let av ← Src.dec (fld word 41 6)
  let bv ← Src.dec (fld word 35 6)
  pure { stall := BitVec.ofNat 3 (fld word 53 3), a := av, b := bv, eq := Fin.ofNat 4 (fld word 22 2) }

/-- Reads the fields of CpylR; every other bit below the opcode is reserved (R39). -/
def CpylR.dec (word : Nat) : Except Reject CpylR := do
  zeroBits word 0 22
  zeroBits word 47 6
  let av ← Src.dec (fld word 41 6)
  let bv ← Src.dec (fld word 35 6)
  let cv ← Src.dec (fld word 29 6)
  pure { stall := BitVec.ofNat 3 (fld word 53 3), a := av, b := bv, c := cv, eq := Fin.ofNat 4 (fld word 22 2) }

/-- Reads the fields of EqryR; every other bit below the opcode is reserved (R39). -/
def EqryR.dec (word : Nat) : Except Reject EqryR := do
  zeroBits word 0 22
  zeroBits word 29 18
  let dv ← Dst.dec (fld word 47 6)
  pure { stall := BitVec.ofNat 3 (fld word 53 3), d := dv, eq := Fin.ofNat 4 (fld word 22 2) }

/-- Reads the fields of RdxR; every other bit below the opcode is reserved (R39). -/
def RdxR.dec (word : Nat) : Except Reject RdxR := do
  zeroBits word 0 21
  zeroBits word 29 6
  zeroBits word 47 6
  let av ← Src.dec (fld word 41 6)
  let bv ← Src.dec (fld word 35 6)
  let tyv ← RdxTy.dec (fld word 21 3)
  pure { stall := BitVec.ofNat 3 (fld word 53 3), a := av, b := bv, ty := tyv }

/-- Reads the fields of ABC; every other bit below the opcode is reserved (R39). -/
def ABC.dec (word : Nat) : Except Reject ABC := do
  zeroBits word 0 24
  zeroBits word 47 6
  let av ← Src.dec (fld word 41 6)
  let bv ← Src.dec (fld word 35 6)
  let cv ← Src.dec (fld word 29 6)
  pure { stall := BitVec.ofNat 3 (fld word 53 3), a := av, b := bv, c := cv }

/-- Reads the fields of HnewR; every other bit below the opcode is reserved (R39). -/
def HnewR.dec (word : Nat) : Except Reject HnewR := do
  zeroBits word 0 24
  zeroBits word 29 6
  let dv ← Dst.dec (fld word 47 6)
  let av ← Src.dec (fld word 41 6)
  let bv ← Src.dec (fld word 35 6)
  pure { stall := BitVec.ofNat 3 (fld word 53 3), d := dv, a := av, b := bv }

/-- Reads the fields of HldM; every other bit below the opcode is reserved (R39). -/
def HldM.dec (word : Nat) : Except Reject HldM := do
  zeroBits word 24 3
  zeroBits word 35 6
  let dv ← Dst.dec (fld word 47 6)
  let av ← Src.dec (fld word 41 6)
  let wv ← IntTy.dec (fld word 28 2)
  pure { stall := BitVec.ofNat 3 (fld word 53 3), d := dv, a := av, off := BitVec.ofNat 24 (fld word 0 24), w := wv, sx := fld word 27 1 == 1 }

/-- Reads the fields of HstM; every other bit below the opcode is reserved (R39). -/
def HstM.dec (word : Nat) : Except Reject HstM := do
  zeroBits word 24 4
  zeroBits word 47 6
  let av ← Src.dec (fld word 41 6)
  let bv ← Src.dec (fld word 35 6)
  let wv ← IntTy.dec (fld word 28 2)
  pure { stall := BitVec.ofNat 3 (fld word 53 3), a := av, b := bv, off := BitVec.ofNat 24 (fld word 0 24), w := wv }

/-- Reads the fields of BaddqR; every other bit below the opcode is reserved (R39). -/
def BaddqR.dec (word : Nat) : Except Reject BaddqR := do
  zeroBits word 0 21
  zeroBits word 47 6
  let av ← Src.dec (fld word 41 6)
  let bv ← Src.dec (fld word 35 6)
  let cv ← Src.dec (fld word 29 6)
  pure { stall := BitVec.ofNat 3 (fld word 53 3), a := av, b := bv, c := cv, fmt := Fin.ofNat 8 (fld word 21 3) }

/-- Reads a word by opcode and operation selector (R46), before the static limits are checked. -/
def decodeRaw (w : Nat) : Except Reject Instr :=
  match fld w 56 8 with
  | 0x01 =>
    match fld w 24 5 with
    | 0 => (IntR.dec w).map .add
    | 1 => (IntR.dec w).map .sub
    | 2 => (IntR.dec w).map .mul
    | 3 => (IntR.dec w).map .mulh
    | 4 => (IntR.dec w).map .mulhu
    | 5 => (IntR.dec w).map .div
    | 6 => (IntR.dec w).map .divu
    | 7 => (IntR.dec w).map .rem
    | 8 => (IntR.dec w).map .remu
    | 9 => (IntR.dec w).map .and
    | 10 => (IntR.dec w).map .or
    | 11 => (IntR.dec w).map .xor
    | 12 => (IntR.dec w).map .andn
    | 13 => (IntR.dec w).map .shl
    | 14 => (IntR.dec w).map .shr
    | 15 => (IntR.dec w).map .sra
    | 16 => (IntR.dec w).map .rot
    | 17 => (IntR.dec w).map .min
    | 18 => (IntR.dec w).map .max
    | 19 => (IntR.dec w).map .minu
    | 20 => (IntR.dec w).map .maxu
    | _ => .error .fn
  | 0x02 =>
    match fld w 36 5 with
    | 0 => (IntI.dec w).map .addImm
    | 1 => (IntI.dec w).map .subImm
    | 2 => (IntI.dec w).map .mulImm
    | 3 => (IntI.dec w).map .mulhImm
    | 4 => (IntI.dec w).map .mulhuImm
    | 5 => (IntI.dec w).map .divImm
    | 6 => (IntI.dec w).map .divuImm
    | 7 => (IntI.dec w).map .remImm
    | 8 => (IntI.dec w).map .remuImm
    | 9 => (IntI.dec w).map .andImm
    | 10 => (IntI.dec w).map .orImm
    | 11 => (IntI.dec w).map .xorImm
    | 12 => (IntI.dec w).map .andnImm
    | 13 => (IntI.dec w).map .shlImm
    | 14 => (IntI.dec w).map .shrImm
    | 15 => (IntI.dec w).map .sraImm
    | 16 => (IntI.dec w).map .rotImm
    | 17 => (IntI.dec w).map .minImm
    | 18 => (IntI.dec w).map .maxImm
    | 19 => (IntI.dec w).map .minuImm
    | 20 => (IntI.dec w).map .maxuImm
    | _ => .error .fn
  | 0x03 =>
    match fld w 24 5 with
    | 0 => (BitU.dec w).map .clz
    | 1 => (BitU.dec w).map .ctz
    | 2 => (BitU.dec w).map .popc
    | 3 => (BitU.dec w).map .brev
    | 4 => (BitT.dec w).map .bext
    | 5 => (BitT.dec w).map .bins
    | 6 => (BitU.dec w).map .sext
    | 7 => (BitU.dec w).map .zext
    | 8 => (BitU.dec w).map .abs
    | 9 => (BitU.dec w).map .neg
    | _ => .error .fn
  | 0x04 =>
    match fld w 24 5 with
    | 0 => (CmpR.dec w).map .cmpeq
    | 1 => (CmpR.dec w).map .cmpne
    | 2 => (CmpR.dec w).map .cmplt
    | 3 => (CmpR.dec w).map .cmple
    | 4 => (CmpR.dec w).map .cmpltu
    | 5 => (CmpR.dec w).map .cmpleu
    | _ => .error .fn
  | 0x05 =>
    match fld w 24 5 with
    | 0 => (SelR.dec w).map .sel
    | _ => .error .fn
  | 0x06 =>
    match fld w 36 5 with
    | 0 => (LiI.dec w).map .li
    | 1 => (LihI.dec w).map .lih
    | _ => .error .fn
  | 0x07 =>
    match fld w 30 5 with
    | 0 => (LeaM.dec w).map .lea
    | _ => .error .fn
  | 0x10 =>
    match fld w 36 5 with
    | 0 => (SkipC.dec w).map .skipz
    | 1 => (SkipC.dec w).map .skipnz
    | _ => .error .fn
  | 0x11 =>
    match fld w 36 5 with
    | 0 => (JmpC.dec w).map .br
    | 1 => (JmpA.dec w).map .brz
    | 2 => (JmpA.dec w).map .brnz
    | 3 => (JmpC.dec w).map .call
    | 4 => (UnC.dec w).map .callr
    | 5 => (UnC.dec w).map .jmpr
    | 6 => (BareC.dec w).map .ret
    | _ => .error .fn
  | 0x12 =>
    match fld w 36 5 with
    | 0 => (UnC.dec w).map .nest
    | 1 => (IterC.dec w).map .iter
    | _ => .error .fn
  | 0x13 =>
    match fld w 36 5 with
    | 0 => (BareI.dec w).map .nop
    | 1 => (CountI.dec w).map .stalln
    | 2 => (BareI.dec w).map .yield
    | 3 => (CountI.dec w).map .park
    | 4 => (BareI.dec w).map .exit
    | _ => .error .fn
  | 0x20 =>
    match fld w 24 5 with
    | 0 => (Fp2.dec w).map .fadd
    | 1 => (Fp2.dec w).map .fsub
    | 2 => (Fp2.dec w).map .fmul
    | 3 => (Fp2.dec w).map .fdiv
    | 4 => (Fp1.dec w).map .fsqrt
    | 5 => (Fp2n.dec w).map .fmin
    | 6 => (Fp2n.dec w).map .fmax
    | 7 => (Fp1.dec w).map .frcp
    | 8 => (Fp1.dec w).map .frsq
    | 9 => (Fp1.dec w).map .flog2
    | 10 => (Fp1.dec w).map .fexp2
    | _ => .error .fn
  | 0x21 =>
    match fld w 24 5 with
    | 0 => (Fp3.dec w).map .fma
    | 1 => (Fp3.dec w).map .fms
    | 2 => (Fp3.dec w).map .fnma
    | _ => .error .fn
  | 0x22 =>
    match fld w 24 5 with
    | 0 => (Fp2n.dec w).map .fceq
    | 1 => (Fp2n.dec w).map .fclt
    | 2 => (Fp2n.dec w).map .fcle
    | 3 => (Fp2n.dec w).map .fcun
    | 4 => (Fp1n.dec w).map .fclass
    | _ => .error .fn
  | 0x23 =>
    match fld w 24 5 with
    | 0 => (ConvR.dec w).map .fcvt
    | _ => .error .fn
  | 0x30 =>
    match fld w 24 5 with
    | 0 => (V2.dec w).map .vadd
    | 1 => (V2.dec w).map .vsub
    | 2 => (V2.dec w).map .vmul
    | 3 => (V2.dec w).map .vdiv
    | 4 => (V1.dec w).map .vsqrt
    | 5 => (V2n.dec w).map .vmin
    | 6 => (V2n.dec w).map .vmax
    | 7 => (V1.dec w).map .vrcp
    | 8 => (V1.dec w).map .vrsq
    | 9 => (V1.dec w).map .vlog2
    | 10 => (V1.dec w).map .vexp2
    | _ => .error .fn
  | 0x31 =>
    match fld w 24 5 with
    | 0 => (V3.dec w).map .vfma
    | 1 => (V3.dec w).map .vfms
    | _ => .error .fn
  | 0x32 =>
    match fld w 24 5 with
    | 0 => (VI2.dec w).map .viadd
    | 1 => (VI2.dec w).map .visub
    | 2 => (VI2.dec w).map .vimul
    | 3 => (VI2.dec w).map .vand
    | 4 => (VI2.dec w).map .vor
    | 5 => (VI2.dec w).map .vxor
    | 6 => (VI2.dec w).map .vshl
    | 7 => (VI2.dec w).map .vshr
    | 8 => (VI2.dec w).map .vimin
    | 9 => (VI2.dec w).map .vimax
    | _ => .error .fn
  | 0x33 =>
    match fld w 24 5 with
    | 0 => (VCmp.dec w).map .vceq
    | 1 => (VCmp.dec w).map .vclt
    | 2 => (VCmp.dec w).map .vcle
    | 3 => (VCmp.dec w).map .vcun
    | 4 => (VSelR.dec w).map .vsel
    | _ => .error .fn
  | 0x34 =>
    match fld w 24 5 with
    | 3 => (VRmaxR.dec w).map .vrmaxi
    | 4 => (VScanR.dec w).map .vscan
    | 0 => (VRedR.dec w).map .vred
    | 1 => (VRedR.dec w).map .vred
    | 2 => (VRedR.dec w).map .vred
    | _ => .error .fn
  | 0x35 =>
    match fld w 24 5 with
    | 0 => (VSplatR.dec w).map .vsplat
    | 1 => (VLaneR.dec w).map .vlane
    | 2 => (VInsR.dec w).map .vins
    | 3 => (VPermR.dec w).map .vperm
    | _ => .error .fn
  | 0x36 =>
    match fld w 24 5 with
    | 0 => (VRankR.dec w).map .vmaxi
    | 1 => (VRankR.dec w).map .vcmpr
    | 2 => (VSelkR.dec w).map .vselk
    | _ => .error .fn
  | 0x37 =>
    match fld w 24 5 with
    | 0 => (ConvV.dec w).map .vcvt
    | _ => .error .fn
  | 0x40 => (LdM.dec w).map .ld
  | 0x41 => (StM.dec w).map .st
  | 0x42 =>
    match fld w 30 5 with
    | 0 => (LdcM.dec w).map .ldc
    | 1 => (StfM.dec w).map .stf
    | _ => .error .fn
  | 0x43 =>
    match fld w 24 5 with
    | 0 => (SbindR.dec w).map .sbind
    | 1 => (SunbR.dec w).map .sunb
    | 2 => (DR.dec w).map .sstat
    | _ => .error .fn
  | 0x44 =>
    match fld w 30 5 with
    | 0 => (PrefM.dec w).map .pref
    | 1 => (RngM.dec w).map .cwb
    | 2 => (RngM.dec w).map .cinv
    | 3 => (RngM.dec w).map .alinv
    | _ => .error .fn
  | 0x45 =>
    match fld w 36 5 with
    | 0 => (FenceI.dec w).map .fence
    | 1 => (SpfI.dec w).map .spfence
    | 2 => (QfI.dec w).map .qfence
    | _ => .error .fn
  | 0x48 =>
    match fld w 24 5 with
    | 0 => (VldR.dec w).map .vld
    | 1 => (VstR.dec w).map .vst
    | 2 => (VldsR.dec w).map .vlds
    | 3 => (VstsR.dec w).map .vsts
    | _ => .error .fn
  | 0x49 =>
    match fld w 24 5 with
    | 0 => (VgthR.dec w).map .vgth
    | 1 => (VsctR.dec w).map .vsct
    | _ => .error .fn
  | 0x4A =>
    match fld w 24 5 with
    | 0 => (VldlR.dec w).map .vldl
    | 1 => (VstlR.dec w).map .vstl
    | _ => .error .fn
  | 0x4B =>
    match fld w 27 2 with
    | 0 => (VldbR.dec w).map .vldb
    | 1 => (VstbR.dec w).map .vstb
    | _ => .error .fn
  | 0x50 =>
    match fld w 24 5 with
    | 0 => (CbdefR.dec w).map .cbdef
    | 1 => (CbdR.dec w).map .cbrsv
    | 2 => (CbR.dec w).map .cbpub
    | 3 => (CbdR.dec w).map .cbtake
    | 4 => (CbR.dec w).map .cbrel
    | _ => .error .fn
  | 0x58 =>
    match fld w 24 5 with
    | 0 => (OdefR.dec w).map .odef
    | _ => .error .fn
  | 0x59 =>
    match fld w 24 5 with
    | 0 => (CldR.dec w).map .cld
    | _ => .error .fn
  | 0x5A =>
    match fld w 24 5 with
    | 0 => (TileR.dec w).map .cwait
    | 1 => (CqryR.dec w).map .cqry
    | 2 => (TileR.dec w).map .cabort
    | _ => .error .fn
  | 0x5B =>
    match fld w 24 5 with
    | 0 => (TileR.dec w).map .czero
    | 1 => (CrdR.dec w).map .crd
    | 2 => (CwrR.dec w).map .cwr
    | _ => .error .fn
  | 0x60 => (AmoR.dec w).map .amo
  | 0x61 => (RedR.dec w).map .red
  | 0x62 =>
    match fld w 24 5 with
    | 0 => (CasR.dec w).map .cas
    | _ => .error .fn
  | 0x63 =>
    match fld w 24 5 with
    | 0 => (LrwR.dec w).map .lrw
    | 1 => (SchR.dec w).map .sch
    | 2 => (RrelR.dec w).map .rrel
    | _ => .error .fn
  | 0x64 =>
    match fld w 24 5 with
    | 0 => (DlA.dec w).map .barr
    | 1 => (AB.dec w).map .barw
    | 2 => (DlA.dec w).map .bara
    | _ => .error .fn
  | 0x65 =>
    match fld w 24 5 with
    | 0 => (UnR.dec w).map .mwait
    | _ => .error .fn
  | 0x68 =>
    match fld w 24 5 with
    | 0 => (SendR.dec w).map .send
    | 1 => (MpeekR.dec w).map .mpeek
    | 2 => (MclrR.dec w).map .mclr
    | 3 => (SendR.dec w).map .lbsend
    | 4 => (DlR.dec w).map .inbx
    | _ => .error .fn
  | 0x69 =>
    match fld w 36 5 with
    | 0 => (MigC.dec w).map .migrate
    | 1 => (HomeC.dec w).map .homec
    | _ => .error .fn
  | 0x70 =>
    match fld w 24 5 with
    | 0 => (CpyR.dec w).map .cpy
    | 1 => (CpylR.dec w).map .cpyl
    | _ => .error .fn
  | 0x71 =>
    match fld w 24 5 with
    | 0 => (RdxR.dec w).map .rdx
    | _ => .error .fn
  | 0x72 =>
    match fld w 24 5 with
    | 0 => (ABC.dec w).map .rqz
    | _ => .error .fn
  | 0x73 =>
    match fld w 24 5 with
    | 0 => (EqryR.dec w).map .eqry
    | _ => .error .fn
  | 0x78 =>
    match fld w 24 5 with
    | 0 => (HnewR.dec w).map .hnew
    | 1 => (UnR.dec w).map .hfree
    | 2 => (DlA.dec w).map .hdown
    | 3 => (DlA.dec w).map .hup
    | 4 => (AB.dec w).map .hprio
    | 5 => (DlA.dec w).map .haddr
    | _ => .error .fn
  | 0x79 =>
    match fld w 30 5 with
    | 0 => (HldM.dec w).map .hld
    | 1 => (HldM.dec w).map .hldw
    | 2 => (HstM.dec w).map .hst
    | _ => .error .fn
  | 0x7C =>
    match fld w 24 5 with
    | 0 => (BaddqR.dec w).map .baddq
    | _ => .error .fn
  | 0x7D =>
    match fld w 24 5 with
    | 0 => (DlR.dec w).map .gqclm
    | _ => .error .fn
  | 0x80 =>
    match fld w 24 5 with
    | 0 => (DlA.dec w).map .launch
    | _ => .error .fn
  | 0x81 =>
    match fld w 36 5 with
    | 0 => (SysrdI.dec w).map .sysrd
    | 1 => (SyswrI.dec w).map .syswr
    | _ => .error .fn
  | 0x82 =>
    match fld w 36 5 with
    | 0 => (TrapI.dec w).map .trap
    | 1 => (BareI.dec w).map .eret
    | _ => .error .fn
  | 0x83 =>
    match fld w 36 5 with
    | 0 => (TraceI.dec w).map .trace
    | _ => .error .fn
  | 0xFE => .error .header
  | _ => .error .opcode

/-- Reads an instruction word (R36–R47): the fields, then the static limits. -/
def decodeWord (w : Nat) : Except Reject Instr :=
  match decodeRaw w with
  | .ok i => if i.wf then .ok i else .error .limit
  | .error e => .error e

/-- Little-endian value of a list of bytes (R6). -/
def leNat : List Byte → Nat
  | [] => 0
  | b :: bs => b.toNat + 256 * leNat bs

/-- Little-endian bytes of a number (R6). -/
def leBytes : Nat → Nat → List Byte
  | 0, _ => []
  | n + 1, w => BitVec.ofNat 8 w :: leBytes n (w / 256)

/-- Reads one instruction from the front of a byte string: eight bytes, little-endian (R36). -/
def decode (bs : List Byte) : Except Reject (Instr × List Byte) :=
  if bs.length < 8 then .error .truncated
  else
    match decodeWord (leNat (bs.take 8)) with
    | .ok i => .ok (i, bs.drop 8)
    | .error e => .error e

/-- The instruction the decoder reads from a word whose bits are `w`, laid out as eight bytes, little-endian. -/
def decodeTableWord (nbits w : Nat) : Option Instr :=
  match decode (leBytes 8 (w % 2 ^ nbits)) with
  | .ok (i, _) => some i
  | .error _ => none

/-- Opcode of a word (R36). -/
def opcodeOf (w : W64) : Nat := fld w.toNat 56 8

/-- Whether a word is a block header (R48). -/
def isHeader (w : W64) : Bool := opcodeOf w == 0xFE

/-- Number of instruction words minus one, [55:50] (R48). -/
def hdrLen (w : W64) : Nat := fld w.toNat 50 6

/-- Live mask, [49:34] (R48). -/
def hdrLive (w : W64) : Nat := fld w.toNat 34 16

/-- Live queue entries, [33:29] (R48). -/
def hdrLiveq (w : W64) : Nat := fld w.toNat 29 5

/-- Loop-head flag, [28] (R48). -/
def hdrLoop (w : W64) : Bool := fld w.toNat 28 1 == 1

/-- Migration-safe flag, [27] (R48). -/
def hdrMsafe (w : W64) : Bool := fld w.toNat 27 1 == 1

/-- Trace-quiet flag, [26] (R48). -/
def hdrQuiet (w : W64) : Bool := fld w.toNat 26 1 == 1

/-- Operand code of a source (R41). -/
def Src.enc : Src → Nat
  | .q i => i.val
  | .n i => 0x10 + i.val
  | .s i => 0x28 + i.val
  | .m i => 0x30 + i.val
  | .link d => 0x38 + d.code
  | .z => 0x3C
  | .imm => 0x3D
  | .hb => 0x3E

/-- Operand code of a destination (R41). -/
def Dst.enc : Dst → Nat
  | .push => 0
  | .n i => 0x10 + i.val
  | .s i => 0x28 + i.val
  | .m i => 0x30 + i.val
  | .link d => 0x38 + d.code
  | .z => 0x3C

/-- Operand code of a vector register (R41). -/
def VReg.enc (v : VReg) : Nat := v.val

/-- Operand code of ITER's first register (R103). -/
def NReg.enc (i : Fin 24) : Nat := 0x10 + i.val

/-- Code of an integer type (R43). -/
def WTy.enc : WTy → Nat
  | .d => 0
  | .w => 1

/-- Code of an integer type or memory width (R43). -/
def IntTy.enc : IntTy → Nat
  | .d => 0
  | .w => 1
  | .h => 2
  | .b => 3

/-- Code of an FP type (R43). -/
def FpTy.enc : FpTy → Nat
  | .f32 => 0
  | .f64 => 1
  | .f16 => 2
  | .bf16 => 3

/-- Code of an element kind (R116). -/
def NumTy.enc : NumTy → Nat
  | .d => 0
  | .w => 1
  | .h => 2

/-- Code of an element kind of the ranking forms (R127). -/
def RankTy.enc : RankTy → Nat
  | .w => 1
  | .h => 2

/-- Code of a rounding mode (R43). -/
def Rm.enc : Rm → Nat
  | .rne => 0
  | .rtz => 1
  | .rdn => 2
  | .rup => 3

/-- Code of a space (R43). -/
def Space.enc : Space → Nat
  | .glb => 0
  | .spd => 1
  | .cls => 2
  | .chp => 3

/-- Code of a circular buffer's space (R173). -/
def CbSpace.enc : CbSpace → Nat
  | .spd => 1
  | .cls => 2

/-- Code of a policy (R43). -/
def Policy.enc : Policy → Nat
  | .nrm => 0
  | .once => 1
  | .noal => 2
  | .keep => 3

/-- Ordering-and-scope code (R44). -/
def Ord.enc : Ord → Nat
  | .rlx => 0
  | .acq s => 1 + s.code
  | .rel s => 6 + s.code
  | .ar s => 11 + s.code

/-- Code of a conversion kind (R45). -/
def Kind.enc : Kind → Nat
  | .f32 => 0
  | .f64 => 1
  | .f16 => 2
  | .bf16 => 3
  | .nf => 4
  | .i8 => 5
  | .i16 => 6
  | .i32 => 7
  | .i64 => 8
  | .u8 => 9
  | .u16 => 10
  | .u32 => 11
  | .u64 => 12

/-- Code of a streamed kind (R143). -/
def CldKind.enc : CldKind → Nat
  | .f32 => 0
  | .f16 => 2
  | .bf16 => 3
  | .nf => 4
  | .i8 => 5

/-- fn value of a VRED operation (R46). -/
def RedOp.enc : RedOp → Nat
  | .add => 0
  | .min => 1
  | .max => 2

/-- fn value of an atomic operation (R46). -/
def AmoOp.enc : AmoOp → Nat
  | .add => 0
  | .min => 1
  | .max => 2
  | .minu => 3
  | .maxu => 4
  | .and => 5
  | .or => 6
  | .xor => 7
  | .swap => 8
  | .fadd => 9
  | .fmin => 10
  | .fmax => 11
  | .badd => 12
  | .bmin => 13
  | .bmax => 14

/-- Code of RDX's FP type (R310). -/
def RdxTy.enc : RdxTy → Nat
  | .f32 => 0
  | .bf16 => 3

/-- Code of a resident layout (R137). -/
def Layout.enc : Layout → Nat
  | .km => 0
  | .mk => 1

/-- Code of ITER's register count (R103). -/
def IterCount.enc : IterCount → Nat
  | .one => 1
  | .two => 2
  | .three => 3


/-- The bits of IntR below the opcode, less the operation selector. -/
def IntR.enc (x : IntR) : Nat :=
  x.stall.toNat * 2 ^ 53 + Dst.enc x.d * 2 ^ 47 + Src.enc x.a * 2 ^ 41 + Src.enc x.b * 2 ^ 35 + WTy.enc x.w * 2 ^ 21

/-- The bits of IntI below the opcode, less the operation selector. -/
def IntI.enc (x : IntI) : Nat :=
  x.stall.toNat * 2 ^ 53 + Dst.enc x.d * 2 ^ 47 + Src.enc x.a * 2 ^ 41 + WTy.enc x.w * 2 ^ 34 + x.zx.toNat * 2 ^ 33 + x.imm.toNat * 2 ^ 0

/-- The bits of BitU below the opcode, less the operation selector. -/
def BitU.enc (x : BitU) : Nat :=
  x.stall.toNat * 2 ^ 53 + Dst.enc x.d * 2 ^ 47 + Src.enc x.a * 2 ^ 41 + IntTy.enc x.w * 2 ^ 21

/-- The bits of BitT below the opcode, less the operation selector. -/
def BitT.enc (x : BitT) : Nat :=
  x.stall.toNat * 2 ^ 53 + Dst.enc x.d * 2 ^ 47 + Src.enc x.a * 2 ^ 41 + Src.enc x.b * 2 ^ 35 + Src.enc x.c * 2 ^ 29 + IntTy.enc x.w * 2 ^ 21

/-- The bits of CmpR below the opcode, less the operation selector. -/
def CmpR.enc (x : CmpR) : Nat :=
  x.stall.toNat * 2 ^ 53 + Dst.enc x.d * 2 ^ 47 + Src.enc x.a * 2 ^ 41 + Src.enc x.b * 2 ^ 35 + IntTy.enc x.w * 2 ^ 21

/-- The bits of SelR below the opcode, less the operation selector. -/
def SelR.enc (x : SelR) : Nat :=
  x.stall.toNat * 2 ^ 53 + Dst.enc x.d * 2 ^ 47 + Src.enc x.a * 2 ^ 41 + Src.enc x.b * 2 ^ 35 + Src.enc x.c * 2 ^ 29

/-- The bits of LiI below the opcode, less the operation selector. -/
def LiI.enc (x : LiI) : Nat :=
  x.stall.toNat * 2 ^ 53 + Dst.enc x.d * 2 ^ 47 + x.zx.toNat * 2 ^ 33 + x.imm.toNat * 2 ^ 0

/-- The bits of LihI below the opcode, less the operation selector. -/
def LihI.enc (x : LihI) : Nat :=
  x.stall.toNat * 2 ^ 53 + Dst.enc x.d * 2 ^ 47 + Src.enc x.a * 2 ^ 41 + x.imm.toNat * 2 ^ 0

/-- The bits of LeaM below the opcode, less the operation selector. -/
def LeaM.enc (x : LeaM) : Nat :=
  x.stall.toNat * 2 ^ 53 + Dst.enc x.d * 2 ^ 47 + Src.enc x.a * 2 ^ 41 + Src.enc x.b * 2 ^ 35 + x.sh.toNat * 2 ^ 24 + x.off.toNat * 2 ^ 0

/-- The bits of SkipC below the opcode, less the operation selector. -/
def SkipC.enc (x : SkipC) : Nat :=
  x.stall.toNat * 2 ^ 53 + Src.enc x.a * 2 ^ 41 + x.cnt.toNat * 2 ^ 0

/-- The bits of JmpC below the opcode, less the operation selector. -/
def JmpC.enc (x : JmpC) : Nat :=
  x.stall.toNat * 2 ^ 53 + x.disp.toNat * 2 ^ 0

/-- The bits of JmpA below the opcode, less the operation selector. -/
def JmpA.enc (x : JmpA) : Nat :=
  x.stall.toNat * 2 ^ 53 + Src.enc x.a * 2 ^ 41 + x.disp.toNat * 2 ^ 0

/-- The bits of UnC below the opcode, less the operation selector. -/
def UnC.enc (x : UnC) : Nat :=
  x.stall.toNat * 2 ^ 53 + Src.enc x.a * 2 ^ 41

/-- The bits of BareC below the opcode, less the operation selector. -/
def BareC.enc (x : BareC) : Nat :=
  x.stall.toNat * 2 ^ 53

/-- The bits of IterC below the opcode, less the operation selector. -/
def IterC.enc (x : IterC) : Nat :=
  x.stall.toNat * 2 ^ 53 + NReg.enc x.d * 2 ^ 47 + IterCount.enc x.cnt * 2 ^ 32 + x.disp.toNat * 2 ^ 0

/-- The bits of BareI below the opcode, less the operation selector. -/
def BareI.enc (x : BareI) : Nat :=
  x.stall.toNat * 2 ^ 53

/-- The bits of CountI below the opcode, less the operation selector. -/
def CountI.enc (x : CountI) : Nat :=
  x.stall.toNat * 2 ^ 53 + x.n.toNat * 2 ^ 0

/-- The bits of Fp2 below the opcode, less the operation selector. -/
def Fp2.enc (x : Fp2) : Nat :=
  x.stall.toNat * 2 ^ 53 + Dst.enc x.d * 2 ^ 47 + Src.enc x.a * 2 ^ 41 + Src.enc x.b * 2 ^ 35 + FpTy.enc x.ty * 2 ^ 21 + Rm.enc x.rm * 2 ^ 19 + x.ftz.toNat * 2 ^ 18

/-- The bits of Fp1 below the opcode, less the operation selector. -/
def Fp1.enc (x : Fp1) : Nat :=
  x.stall.toNat * 2 ^ 53 + Dst.enc x.d * 2 ^ 47 + Src.enc x.a * 2 ^ 41 + FpTy.enc x.ty * 2 ^ 21 + Rm.enc x.rm * 2 ^ 19 + x.ftz.toNat * 2 ^ 18

/-- The bits of Fp2n below the opcode, less the operation selector. -/
def Fp2n.enc (x : Fp2n) : Nat :=
  x.stall.toNat * 2 ^ 53 + Dst.enc x.d * 2 ^ 47 + Src.enc x.a * 2 ^ 41 + Src.enc x.b * 2 ^ 35 + FpTy.enc x.ty * 2 ^ 21 + x.ftz.toNat * 2 ^ 18

/-- The bits of Fp1n below the opcode, less the operation selector. -/
def Fp1n.enc (x : Fp1n) : Nat :=
  x.stall.toNat * 2 ^ 53 + Dst.enc x.d * 2 ^ 47 + Src.enc x.a * 2 ^ 41 + FpTy.enc x.ty * 2 ^ 21 + x.ftz.toNat * 2 ^ 18

/-- The bits of Fp3 below the opcode, less the operation selector. -/
def Fp3.enc (x : Fp3) : Nat :=
  x.stall.toNat * 2 ^ 53 + Dst.enc x.d * 2 ^ 47 + Src.enc x.a * 2 ^ 41 + Src.enc x.b * 2 ^ 35 + Src.enc x.c * 2 ^ 29 + FpTy.enc x.ty * 2 ^ 21 + Rm.enc x.rm * 2 ^ 19 + x.ftz.toNat * 2 ^ 18

/-- The bits of ConvR below the opcode, less the operation selector. -/
def ConvR.enc (x : ConvR) : Nat :=
  x.stall.toNat * 2 ^ 53 + Dst.enc x.d * 2 ^ 47 + Src.enc x.a * 2 ^ 41 + Kind.enc x.dk * 2 ^ 20 + Kind.enc x.sk * 2 ^ 16 + Rm.enc x.rm * 2 ^ 14 + x.ftz.toNat * 2 ^ 13 + x.fmt.val * 2 ^ 10

/-- The bits of ConvV below the opcode, less the operation selector. -/
def ConvV.enc (x : ConvV) : Nat :=
  x.stall.toNat * 2 ^ 53 + VReg.enc x.d * 2 ^ 47 + VReg.enc x.a * 2 ^ 41 + Src.enc x.k * 2 ^ 35 + Kind.enc x.dk * 2 ^ 20 + Kind.enc x.sk * 2 ^ 16 + Rm.enc x.rm * 2 ^ 14 + x.ftz.toNat * 2 ^ 13 + x.fmt.val * 2 ^ 10

/-- The bits of SysrdI below the opcode, less the operation selector. -/
def SysrdI.enc (x : SysrdI) : Nat :=
  x.stall.toNat * 2 ^ 53 + Dst.enc x.d * 2 ^ 47 + x.reg.toNat * 2 ^ 0

/-- The bits of SyswrI below the opcode, less the operation selector. -/
def SyswrI.enc (x : SyswrI) : Nat :=
  x.stall.toNat * 2 ^ 53 + Src.enc x.a * 2 ^ 41 + x.reg.toNat * 2 ^ 0

/-- The bits of TrapI below the opcode, less the operation selector. -/
def TrapI.enc (x : TrapI) : Nat :=
  x.stall.toNat * 2 ^ 53 + x.imm.toNat * 2 ^ 0

/-- The bits of TraceI below the opcode, less the operation selector. -/
def TraceI.enc (x : TraceI) : Nat :=
  x.stall.toNat * 2 ^ 53 + Src.enc x.a * 2 ^ 41 + x.tag.toNat * 2 ^ 0

/-- The bits of V2 below the opcode, less the operation selector. -/
def V2.enc (x : V2) : Nat :=
  x.stall.toNat * 2 ^ 53 + VReg.enc x.d * 2 ^ 47 + VReg.enc x.a * 2 ^ 41 + VReg.enc x.b * 2 ^ 35 + FpTy.enc x.ty * 2 ^ 21 + Rm.enc x.rm * 2 ^ 19 + x.ftz.toNat * 2 ^ 18 + Src.enc x.k * 2 ^ 12

/-- The bits of V2n below the opcode, less the operation selector. -/
def V2n.enc (x : V2n) : Nat :=
  x.stall.toNat * 2 ^ 53 + VReg.enc x.d * 2 ^ 47 + VReg.enc x.a * 2 ^ 41 + VReg.enc x.b * 2 ^ 35 + FpTy.enc x.ty * 2 ^ 21 + x.ftz.toNat * 2 ^ 18 + Src.enc x.k * 2 ^ 12

/-- The bits of V1 below the opcode, less the operation selector. -/
def V1.enc (x : V1) : Nat :=
  x.stall.toNat * 2 ^ 53 + VReg.enc x.d * 2 ^ 47 + VReg.enc x.a * 2 ^ 41 + FpTy.enc x.ty * 2 ^ 21 + Rm.enc x.rm * 2 ^ 19 + x.ftz.toNat * 2 ^ 18 + Src.enc x.k * 2 ^ 12

/-- The bits of V3 below the opcode, less the operation selector. -/
def V3.enc (x : V3) : Nat :=
  x.stall.toNat * 2 ^ 53 + VReg.enc x.d * 2 ^ 47 + VReg.enc x.a * 2 ^ 41 + VReg.enc x.b * 2 ^ 35 + VReg.enc x.c * 2 ^ 29 + FpTy.enc x.ty * 2 ^ 21 + Rm.enc x.rm * 2 ^ 19 + x.ftz.toNat * 2 ^ 18 + Src.enc x.k * 2 ^ 12

/-- The bits of VI2 below the opcode, less the operation selector. -/
def VI2.enc (x : VI2) : Nat :=
  x.stall.toNat * 2 ^ 53 + VReg.enc x.d * 2 ^ 47 + VReg.enc x.a * 2 ^ 41 + VReg.enc x.b * 2 ^ 35 + IntTy.enc x.w * 2 ^ 21 + Src.enc x.k * 2 ^ 12

/-- The bits of VCmp below the opcode, less the operation selector. -/
def VCmp.enc (x : VCmp) : Nat :=
  x.stall.toNat * 2 ^ 53 + Dst.enc x.d * 2 ^ 47 + VReg.enc x.a * 2 ^ 41 + VReg.enc x.b * 2 ^ 35 + NumTy.enc x.ty * 2 ^ 21 + x.ftz.toNat * 2 ^ 18 + Src.enc x.k * 2 ^ 12

/-- The bits of VSelR below the opcode, less the operation selector. -/
def VSelR.enc (x : VSelR) : Nat :=
  x.stall.toNat * 2 ^ 53 + VReg.enc x.d * 2 ^ 47 + VReg.enc x.a * 2 ^ 41 + VReg.enc x.b * 2 ^ 35 + Src.enc x.c * 2 ^ 29 + WTy.enc x.w * 2 ^ 21 + Src.enc x.k * 2 ^ 12

/-- The bits of VRedR below the opcode, less the operation selector. -/
def VRedR.enc (x : VRedR) : Nat :=
  x.stall.toNat * 2 ^ 53 + RedOp.enc x.op * 2 ^ 24 + Dst.enc x.d * 2 ^ 47 + VReg.enc x.a * 2 ^ 41 + NumTy.enc x.ty * 2 ^ 21 + Rm.enc x.rm * 2 ^ 19 + x.ftz.toNat * 2 ^ 18 + Src.enc x.k * 2 ^ 12

/-- The bits of VRmaxR below the opcode, less the operation selector. -/
def VRmaxR.enc (x : VRmaxR) : Nat :=
  x.stall.toNat * 2 ^ 53 + Dst.enc x.d * 2 ^ 47 + VReg.enc x.a * 2 ^ 41 + NumTy.enc x.ty * 2 ^ 21 + x.ftz.toNat * 2 ^ 18 + Src.enc x.k * 2 ^ 12

/-- The bits of VScanR below the opcode, less the operation selector. -/
def VScanR.enc (x : VScanR) : Nat :=
  x.stall.toNat * 2 ^ 53 + VReg.enc x.d * 2 ^ 47 + VReg.enc x.a * 2 ^ 41 + NumTy.enc x.ty * 2 ^ 21 + Rm.enc x.rm * 2 ^ 19 + x.ftz.toNat * 2 ^ 18 + Src.enc x.k * 2 ^ 12

/-- The bits of VSplatR below the opcode, less the operation selector. -/
def VSplatR.enc (x : VSplatR) : Nat :=
  x.stall.toNat * 2 ^ 53 + VReg.enc x.d * 2 ^ 47 + Src.enc x.a * 2 ^ 41 + WTy.enc x.w * 2 ^ 21 + Src.enc x.k * 2 ^ 12

/-- The bits of VLaneR below the opcode, less the operation selector. -/
def VLaneR.enc (x : VLaneR) : Nat :=
  x.stall.toNat * 2 ^ 53 + Dst.enc x.d * 2 ^ 47 + VReg.enc x.a * 2 ^ 41 + Src.enc x.b * 2 ^ 35 + WTy.enc x.w * 2 ^ 21 + Src.enc x.k * 2 ^ 12

/-- The bits of VInsR below the opcode, less the operation selector. -/
def VInsR.enc (x : VInsR) : Nat :=
  x.stall.toNat * 2 ^ 53 + VReg.enc x.d * 2 ^ 47 + VReg.enc x.a * 2 ^ 41 + Src.enc x.b * 2 ^ 35 + Src.enc x.c * 2 ^ 29 + WTy.enc x.w * 2 ^ 21 + Src.enc x.k * 2 ^ 12

/-- The bits of VPermR below the opcode, less the operation selector. -/
def VPermR.enc (x : VPermR) : Nat :=
  x.stall.toNat * 2 ^ 53 + VReg.enc x.d * 2 ^ 47 + VReg.enc x.a * 2 ^ 41 + VReg.enc x.b * 2 ^ 35 + WTy.enc x.w * 2 ^ 21 + Src.enc x.k * 2 ^ 12

/-- The bits of VRankR below the opcode, less the operation selector. -/
def VRankR.enc (x : VRankR) : Nat :=
  x.stall.toNat * 2 ^ 53 + VReg.enc x.d * 2 ^ 47 + VReg.enc x.a * 2 ^ 41 + VReg.enc x.b * 2 ^ 35 + RankTy.enc x.ty * 2 ^ 21 + x.ftz.toNat * 2 ^ 18 + Src.enc x.k * 2 ^ 12

/-- The bits of VSelkR below the opcode, less the operation selector. -/
def VSelkR.enc (x : VSelkR) : Nat :=
  x.stall.toNat * 2 ^ 53 + Dst.enc x.d * 2 ^ 47 + VReg.enc x.a * 2 ^ 41 + Src.enc x.b * 2 ^ 35 + RankTy.enc x.ty * 2 ^ 21 + x.ftz.toNat * 2 ^ 18 + Src.enc x.k * 2 ^ 12

/-- The bits of VldlR below the opcode, less the operation selector. -/
def VldlR.enc (x : VldlR) : Nat :=
  x.stall.toNat * 2 ^ 53 + VReg.enc x.d * 2 ^ 47 + Src.enc x.a * 2 ^ 41 + Src.enc x.k * 2 ^ 10

/-- The bits of VstlR below the opcode, less the operation selector. -/
def VstlR.enc (x : VstlR) : Nat :=
  x.stall.toNat * 2 ^ 53 + Src.enc x.a * 2 ^ 41 + VReg.enc x.b * 2 ^ 35 + Src.enc x.k * 2 ^ 10

/-- The bits of OdefR below the opcode, less the operation selector. -/
def OdefR.enc (x : OdefR) : Nat :=
  x.stall.toNat * 2 ^ 53 + Src.enc x.a * 2 ^ 41 + Src.enc x.b * 2 ^ 35 + Src.enc x.c * 2 ^ 29 + x.os.val * 2 ^ 21 + x.fmt.val * 2 ^ 18 + Layout.enc x.layout * 2 ^ 16

/-- The bits of SpfI below the opcode, less the operation selector. -/
def SpfI.enc (x : SpfI) : Nat :=
  x.stall.toNat * 2 ^ 53 + x.mask.toNat * 2 ^ 0

/-- The bits of TileR below the opcode, less the operation selector. -/
def TileR.enc (x : TileR) : Nat :=
  x.stall.toNat * 2 ^ 53 + x.tile.val * 2 ^ 20

/-- The bits of CrdR below the opcode, less the operation selector. -/
def CrdR.enc (x : CrdR) : Nat :=
  x.stall.toNat * 2 ^ 53 + VReg.enc x.d * 2 ^ 47 + Src.enc x.a * 2 ^ 41 + x.tile.val * 2 ^ 20

/-- The bits of CwrR below the opcode, less the operation selector. -/
def CwrR.enc (x : CwrR) : Nat :=
  x.stall.toNat * 2 ^ 53 + Src.enc x.a * 2 ^ 41 + VReg.enc x.b * 2 ^ 35 + x.tile.val * 2 ^ 20

/-- The bits of CldR below the opcode, less the operation selector. -/
def CldR.enc (x : CldR) : Nat :=
  x.stall.toNat * 2 ^ 53 + Src.enc x.a * 2 ^ 41 + Src.enc x.b * 2 ^ 35 + Src.enc x.c * 2 ^ 29 + x.tile.val * 2 ^ 20 + x.os.val * 2 ^ 17 + CldKind.enc x.kind * 2 ^ 13 + x.fmt.val * 2 ^ 10

/-- The bits of CqryR below the opcode, less the operation selector. -/
def CqryR.enc (x : CqryR) : Nat :=
  x.stall.toNat * 2 ^ 53 + Dst.enc x.d * 2 ^ 47 + x.tile.val * 2 ^ 20

/-- The bits of LdM below the opcode, less the operation selector. -/
def LdM.enc (x : LdM) : Nat :=
  x.stall.toNat * 2 ^ 53 + Dst.enc x.d * 2 ^ 47 + Src.enc x.a * 2 ^ 41 + x.off.toNat * 2 ^ 0 + IntTy.enc x.w * 2 ^ 33 + x.sx.toNat * 2 ^ 32 + Space.enc x.sp * 2 ^ 30 + Policy.enc x.pol * 2 ^ 28 + Ord.enc x.ord * 2 ^ 24

/-- The bits of StM below the opcode, less the operation selector. -/
def StM.enc (x : StM) : Nat :=
  x.stall.toNat * 2 ^ 53 + Src.enc x.a * 2 ^ 41 + Src.enc x.b * 2 ^ 35 + x.off.toNat * 2 ^ 0 + IntTy.enc x.w * 2 ^ 33 + Space.enc x.sp * 2 ^ 30 + Policy.enc x.pol * 2 ^ 28 + Ord.enc x.ord * 2 ^ 24

/-- The bits of LdcM below the opcode, less the operation selector. -/
def LdcM.enc (x : LdcM) : Nat :=
  x.stall.toNat * 2 ^ 53 + Dst.enc x.d * 2 ^ 47 + Src.enc x.a * 2 ^ 41 + x.off.toNat * 2 ^ 0

/-- The bits of StfM below the opcode, less the operation selector. -/
def StfM.enc (x : StfM) : Nat :=
  x.stall.toNat * 2 ^ 53 + Src.enc x.a * 2 ^ 41 + Src.enc x.b * 2 ^ 35 + x.off.toNat * 2 ^ 0

/-- The bits of SbindR below the opcode, less the operation selector. -/
def SbindR.enc (x : SbindR) : Nat :=
  x.stall.toNat * 2 ^ 53 + Src.enc x.a * 2 ^ 41 + Src.enc x.b * 2 ^ 35 + Src.enc x.c * 2 ^ 29 + x.es.toNat * 2 ^ 22 + x.wr.toNat * 2 ^ 21 + Space.enc x.sp * 2 ^ 19 + x.s.val * 2 ^ 16

/-- The bits of SunbR below the opcode, less the operation selector. -/
def SunbR.enc (x : SunbR) : Nat :=
  x.stall.toNat * 2 ^ 53 + x.s.val * 2 ^ 16

/-- The bits of DR below the opcode, less the operation selector. -/
def DR.enc (x : DR) : Nat :=
  x.stall.toNat * 2 ^ 53 + Dst.enc x.d * 2 ^ 47

/-- The bits of PrefM below the opcode, less the operation selector. -/
def PrefM.enc (x : PrefM) : Nat :=
  x.stall.toNat * 2 ^ 53 + Src.enc x.a * 2 ^ 41 + x.off.toNat * 2 ^ 0 + Policy.enc x.pol * 2 ^ 28 + Space.enc x.sp * 2 ^ 26

/-- The bits of RngM below the opcode, less the operation selector. -/
def RngM.enc (x : RngM) : Nat :=
  x.stall.toNat * 2 ^ 53 + Src.enc x.a * 2 ^ 41 + Src.enc x.b * 2 ^ 35 + x.off.toNat * 2 ^ 0

/-- The bits of FenceI below the opcode, less the operation selector. -/
def FenceI.enc (x : FenceI) : Nat :=
  x.stall.toNat * 2 ^ 53 + Ord.enc x.ord * 2 ^ 32

/-- The bits of QfI below the opcode, less the operation selector. -/
def QfI.enc (x : QfI) : Nat :=
  x.stall.toNat * 2 ^ 53 + x.mask.toNat * 2 ^ 0

/-- The bits of VldR below the opcode, less the operation selector. -/
def VldR.enc (x : VldR) : Nat :=
  x.stall.toNat * 2 ^ 53 + VReg.enc x.d * 2 ^ 47 + Src.enc x.a * 2 ^ 41 + Space.enc x.sp * 2 ^ 22 + Policy.enc x.pol * 2 ^ 20 + Ord.enc x.ord * 2 ^ 16 + Src.enc x.k * 2 ^ 10

/-- The bits of VstR below the opcode, less the operation selector. -/
def VstR.enc (x : VstR) : Nat :=
  x.stall.toNat * 2 ^ 53 + Src.enc x.a * 2 ^ 41 + VReg.enc x.b * 2 ^ 35 + Space.enc x.sp * 2 ^ 22 + Policy.enc x.pol * 2 ^ 20 + Ord.enc x.ord * 2 ^ 16 + Src.enc x.k * 2 ^ 10

/-- The bits of VldsR below the opcode, less the operation selector. -/
def VldsR.enc (x : VldsR) : Nat :=
  x.stall.toNat * 2 ^ 53 + VReg.enc x.d * 2 ^ 47 + Src.enc x.a * 2 ^ 41 + Src.enc x.c * 2 ^ 29 + Space.enc x.sp * 2 ^ 22 + Policy.enc x.pol * 2 ^ 20 + Ord.enc x.ord * 2 ^ 16 + Src.enc x.k * 2 ^ 10

/-- The bits of VstsR below the opcode, less the operation selector. -/
def VstsR.enc (x : VstsR) : Nat :=
  x.stall.toNat * 2 ^ 53 + Src.enc x.a * 2 ^ 41 + VReg.enc x.b * 2 ^ 35 + Src.enc x.c * 2 ^ 29 + Space.enc x.sp * 2 ^ 22 + Policy.enc x.pol * 2 ^ 20 + Ord.enc x.ord * 2 ^ 16 + Src.enc x.k * 2 ^ 10

/-- The bits of VgthR below the opcode, less the operation selector. -/
def VgthR.enc (x : VgthR) : Nat :=
  x.stall.toNat * 2 ^ 53 + VReg.enc x.d * 2 ^ 47 + Src.enc x.a * 2 ^ 41 + VReg.enc x.b * 2 ^ 35 + Space.enc x.sp * 2 ^ 22 + Policy.enc x.pol * 2 ^ 20 + Ord.enc x.ord * 2 ^ 16 + Src.enc x.k * 2 ^ 10

/-- The bits of VsctR below the opcode, less the operation selector. -/
def VsctR.enc (x : VsctR) : Nat :=
  x.stall.toNat * 2 ^ 53 + Src.enc x.a * 2 ^ 41 + VReg.enc x.b * 2 ^ 35 + VReg.enc x.c * 2 ^ 29 + Space.enc x.sp * 2 ^ 22 + Policy.enc x.pol * 2 ^ 20 + Ord.enc x.ord * 2 ^ 16 + Src.enc x.k * 2 ^ 10

/-- The bits of VldbR below the opcode, less the operation selector. -/
def VldbR.enc (x : VldbR) : Nat :=
  x.stall.toNat * 2 ^ 53 + x.fmt.val * 2 ^ 24 + VReg.enc x.d * 2 ^ 47 + Src.enc x.a * 2 ^ 41 + Src.enc x.c * 2 ^ 29 + Space.enc x.sp * 2 ^ 22 + Policy.enc x.pol * 2 ^ 20 + Ord.enc x.ord * 2 ^ 16 + Src.enc x.k * 2 ^ 10

/-- The bits of VstbR below the opcode, less the operation selector. -/
def VstbR.enc (x : VstbR) : Nat :=
  x.stall.toNat * 2 ^ 53 + x.fmt.val * 2 ^ 24 + Src.enc x.a * 2 ^ 41 + VReg.enc x.b * 2 ^ 35 + Src.enc x.c * 2 ^ 29 + Space.enc x.sp * 2 ^ 22 + Policy.enc x.pol * 2 ^ 20 + Ord.enc x.ord * 2 ^ 16 + Src.enc x.k * 2 ^ 10

/-- The bits of CbdefR below the opcode, less the operation selector. -/
def CbdefR.enc (x : CbdefR) : Nat :=
  x.stall.toNat * 2 ^ 53 + Src.enc x.a * 2 ^ 41 + Src.enc x.b * 2 ^ 35 + Src.enc x.c * 2 ^ 29 + x.cb.val * 2 ^ 21 + CbSpace.enc x.sp * 2 ^ 19

/-- The bits of CbdR below the opcode, less the operation selector. -/
def CbdR.enc (x : CbdR) : Nat :=
  x.stall.toNat * 2 ^ 53 + Dst.enc x.d * 2 ^ 47 + x.cb.val * 2 ^ 21

/-- The bits of CbR below the opcode, less the operation selector. -/
def CbR.enc (x : CbR) : Nat :=
  x.stall.toNat * 2 ^ 53 + x.cb.val * 2 ^ 21

/-- The bits of AmoR below the opcode, less the operation selector. -/
def AmoR.enc (x : AmoR) : Nat :=
  x.stall.toNat * 2 ^ 53 + AmoOp.enc x.op * 2 ^ 24 + Dst.enc x.d * 2 ^ 47 + Src.enc x.a * 2 ^ 41 + Src.enc x.b * 2 ^ 35 + WTy.enc x.w * 2 ^ 21 + Space.enc x.sp * 2 ^ 19 + Ord.enc x.ord * 2 ^ 15

/-- The bits of RedR below the opcode, less the operation selector. -/
def RedR.enc (x : RedR) : Nat :=
  x.stall.toNat * 2 ^ 53 + AmoOp.enc x.op * 2 ^ 24 + Src.enc x.a * 2 ^ 41 + Src.enc x.b * 2 ^ 35 + WTy.enc x.w * 2 ^ 21 + Space.enc x.sp * 2 ^ 19 + Ord.enc x.ord * 2 ^ 15

/-- The bits of CasR below the opcode, less the operation selector. -/
def CasR.enc (x : CasR) : Nat :=
  x.stall.toNat * 2 ^ 53 + Dst.enc x.d * 2 ^ 47 + Src.enc x.a * 2 ^ 41 + Src.enc x.b * 2 ^ 35 + Src.enc x.c * 2 ^ 29 + WTy.enc x.w * 2 ^ 21 + Space.enc x.sp * 2 ^ 19 + Ord.enc x.ord * 2 ^ 15

/-- The bits of LrwR below the opcode, less the operation selector. -/
def LrwR.enc (x : LrwR) : Nat :=
  x.stall.toNat * 2 ^ 53 + Dst.enc x.d * 2 ^ 47 + Src.enc x.a * 2 ^ 41 + WTy.enc x.w * 2 ^ 21 + Ord.enc x.ord * 2 ^ 15

/-- The bits of SchR below the opcode, less the operation selector. -/
def SchR.enc (x : SchR) : Nat :=
  x.stall.toNat * 2 ^ 53 + Dst.enc x.d * 2 ^ 47 + Src.enc x.a * 2 ^ 41 + Src.enc x.b * 2 ^ 35 + WTy.enc x.w * 2 ^ 21

/-- The bits of RrelR below the opcode, less the operation selector. -/
def RrelR.enc (x : RrelR) : Nat :=
  x.stall.toNat * 2 ^ 53 + Src.enc x.a * 2 ^ 41 + WTy.enc x.w * 2 ^ 21

/-- The bits of DlA below the opcode, less the operation selector. -/
def DlA.enc (x : DlA) : Nat :=
  x.stall.toNat * 2 ^ 53 + Dst.enc x.d * 2 ^ 47 + Src.enc x.a * 2 ^ 41

/-- The bits of AB below the opcode, less the operation selector. -/
def AB.enc (x : AB) : Nat :=
  x.stall.toNat * 2 ^ 53 + Src.enc x.a * 2 ^ 41 + Src.enc x.b * 2 ^ 35

/-- The bits of UnR below the opcode, less the operation selector. -/
def UnR.enc (x : UnR) : Nat :=
  x.stall.toNat * 2 ^ 53 + Src.enc x.a * 2 ^ 41

/-- The bits of SendR below the opcode, less the operation selector. -/
def SendR.enc (x : SendR) : Nat :=
  x.stall.toNat * 2 ^ 53 + Src.enc x.a * 2 ^ 41 + Src.enc x.b * 2 ^ 35 + x.mreg.val * 2 ^ 21

/-- The bits of MpeekR below the opcode, less the operation selector. -/
def MpeekR.enc (x : MpeekR) : Nat :=
  x.stall.toNat * 2 ^ 53 + Dst.enc x.d * 2 ^ 47 + x.mreg.val * 2 ^ 21

/-- The bits of MclrR below the opcode, less the operation selector. -/
def MclrR.enc (x : MclrR) : Nat :=
  x.stall.toNat * 2 ^ 53 + x.mreg.val * 2 ^ 21

/-- The bits of DlR below the opcode, less the operation selector. -/
def DlR.enc (x : DlR) : Nat :=
  x.stall.toNat * 2 ^ 53 + Dst.enc x.d * 2 ^ 47

/-- The bits of MigC below the opcode, less the operation selector. -/
def MigC.enc (x : MigC) : Nat :=
  x.stall.toNat * 2 ^ 53 + Src.enc x.a * 2 ^ 41 + x.disp.toNat * 2 ^ 0

/-- The bits of HomeC below the opcode, less the operation selector. -/
def HomeC.enc (x : HomeC) : Nat :=
  x.stall.toNat * 2 ^ 53 + Dst.enc x.d * 2 ^ 47 + Src.enc x.a * 2 ^ 41

/-- The bits of CpyR below the opcode, less the operation selector. -/
def CpyR.enc (x : CpyR) : Nat :=
  x.stall.toNat * 2 ^ 53 + Src.enc x.a * 2 ^ 41 + Src.enc x.b * 2 ^ 35 + x.eq.val * 2 ^ 22

/-- The bits of CpylR below the opcode, less the operation selector. -/
def CpylR.enc (x : CpylR) : Nat :=
  x.stall.toNat * 2 ^ 53 + Src.enc x.a * 2 ^ 41 + Src.enc x.b * 2 ^ 35 + Src.enc x.c * 2 ^ 29 + x.eq.val * 2 ^ 22

/-- The bits of EqryR below the opcode, less the operation selector. -/
def EqryR.enc (x : EqryR) : Nat :=
  x.stall.toNat * 2 ^ 53 + Dst.enc x.d * 2 ^ 47 + x.eq.val * 2 ^ 22

/-- The bits of RdxR below the opcode, less the operation selector. -/
def RdxR.enc (x : RdxR) : Nat :=
  x.stall.toNat * 2 ^ 53 + Src.enc x.a * 2 ^ 41 + Src.enc x.b * 2 ^ 35 + RdxTy.enc x.ty * 2 ^ 21

/-- The bits of ABC below the opcode, less the operation selector. -/
def ABC.enc (x : ABC) : Nat :=
  x.stall.toNat * 2 ^ 53 + Src.enc x.a * 2 ^ 41 + Src.enc x.b * 2 ^ 35 + Src.enc x.c * 2 ^ 29

/-- The bits of HnewR below the opcode, less the operation selector. -/
def HnewR.enc (x : HnewR) : Nat :=
  x.stall.toNat * 2 ^ 53 + Dst.enc x.d * 2 ^ 47 + Src.enc x.a * 2 ^ 41 + Src.enc x.b * 2 ^ 35

/-- The bits of HldM below the opcode, less the operation selector. -/
def HldM.enc (x : HldM) : Nat :=
  x.stall.toNat * 2 ^ 53 + Dst.enc x.d * 2 ^ 47 + Src.enc x.a * 2 ^ 41 + x.off.toNat * 2 ^ 0 + IntTy.enc x.w * 2 ^ 28 + x.sx.toNat * 2 ^ 27

/-- The bits of HstM below the opcode, less the operation selector. -/
def HstM.enc (x : HstM) : Nat :=
  x.stall.toNat * 2 ^ 53 + Src.enc x.a * 2 ^ 41 + Src.enc x.b * 2 ^ 35 + x.off.toNat * 2 ^ 0 + IntTy.enc x.w * 2 ^ 28

/-- The bits of BaddqR below the opcode, less the operation selector. -/
def BaddqR.enc (x : BaddqR) : Nat :=
  x.stall.toNat * 2 ^ 53 + Src.enc x.a * 2 ^ 41 + Src.enc x.b * 2 ^ 35 + Src.enc x.c * 2 ^ 29 + x.fmt.val * 2 ^ 21

/-- A word from its opcode, its operation selector at bit `p`, and its remaining fields (R36, R37). -/
def wordOf (op fn p body : Nat) : Nat := op * 2 ^ 56 + fn * 2 ^ p + body

/-- The word of an instruction (R36, R37, R46); none for a step of another agent, which has no word. -/
def encode : Instr → Option Nat
  | .add x => some (wordOf 0x01 0 24 x.enc)
  | .addImm x => some (wordOf 0x02 0 36 x.enc)
  | .sub x => some (wordOf 0x01 1 24 x.enc)
  | .subImm x => some (wordOf 0x02 1 36 x.enc)
  | .mul x => some (wordOf 0x01 2 24 x.enc)
  | .mulImm x => some (wordOf 0x02 2 36 x.enc)
  | .mulh x => some (wordOf 0x01 3 24 x.enc)
  | .mulhImm x => some (wordOf 0x02 3 36 x.enc)
  | .mulhu x => some (wordOf 0x01 4 24 x.enc)
  | .mulhuImm x => some (wordOf 0x02 4 36 x.enc)
  | .div x => some (wordOf 0x01 5 24 x.enc)
  | .divImm x => some (wordOf 0x02 5 36 x.enc)
  | .divu x => some (wordOf 0x01 6 24 x.enc)
  | .divuImm x => some (wordOf 0x02 6 36 x.enc)
  | .rem x => some (wordOf 0x01 7 24 x.enc)
  | .remImm x => some (wordOf 0x02 7 36 x.enc)
  | .remu x => some (wordOf 0x01 8 24 x.enc)
  | .remuImm x => some (wordOf 0x02 8 36 x.enc)
  | .and x => some (wordOf 0x01 9 24 x.enc)
  | .andImm x => some (wordOf 0x02 9 36 x.enc)
  | .or x => some (wordOf 0x01 10 24 x.enc)
  | .orImm x => some (wordOf 0x02 10 36 x.enc)
  | .xor x => some (wordOf 0x01 11 24 x.enc)
  | .xorImm x => some (wordOf 0x02 11 36 x.enc)
  | .andn x => some (wordOf 0x01 12 24 x.enc)
  | .andnImm x => some (wordOf 0x02 12 36 x.enc)
  | .shl x => some (wordOf 0x01 13 24 x.enc)
  | .shlImm x => some (wordOf 0x02 13 36 x.enc)
  | .shr x => some (wordOf 0x01 14 24 x.enc)
  | .shrImm x => some (wordOf 0x02 14 36 x.enc)
  | .sra x => some (wordOf 0x01 15 24 x.enc)
  | .sraImm x => some (wordOf 0x02 15 36 x.enc)
  | .rot x => some (wordOf 0x01 16 24 x.enc)
  | .rotImm x => some (wordOf 0x02 16 36 x.enc)
  | .min x => some (wordOf 0x01 17 24 x.enc)
  | .minImm x => some (wordOf 0x02 17 36 x.enc)
  | .max x => some (wordOf 0x01 18 24 x.enc)
  | .maxImm x => some (wordOf 0x02 18 36 x.enc)
  | .minu x => some (wordOf 0x01 19 24 x.enc)
  | .minuImm x => some (wordOf 0x02 19 36 x.enc)
  | .maxu x => some (wordOf 0x01 20 24 x.enc)
  | .maxuImm x => some (wordOf 0x02 20 36 x.enc)
  | .clz x => some (wordOf 0x03 0 24 x.enc)
  | .ctz x => some (wordOf 0x03 1 24 x.enc)
  | .popc x => some (wordOf 0x03 2 24 x.enc)
  | .brev x => some (wordOf 0x03 3 24 x.enc)
  | .bext x => some (wordOf 0x03 4 24 x.enc)
  | .bins x => some (wordOf 0x03 5 24 x.enc)
  | .sext x => some (wordOf 0x03 6 24 x.enc)
  | .zext x => some (wordOf 0x03 7 24 x.enc)
  | .abs x => some (wordOf 0x03 8 24 x.enc)
  | .neg x => some (wordOf 0x03 9 24 x.enc)
  | .cmpeq x => some (wordOf 0x04 0 24 x.enc)
  | .cmpne x => some (wordOf 0x04 1 24 x.enc)
  | .cmplt x => some (wordOf 0x04 2 24 x.enc)
  | .cmple x => some (wordOf 0x04 3 24 x.enc)
  | .cmpltu x => some (wordOf 0x04 4 24 x.enc)
  | .cmpleu x => some (wordOf 0x04 5 24 x.enc)
  | .sel x => some (wordOf 0x05 0 24 x.enc)
  | .li x => some (wordOf 0x06 0 36 x.enc)
  | .lih x => some (wordOf 0x06 1 36 x.enc)
  | .lea x => some (wordOf 0x07 0 30 x.enc)
  | .skipz x => some (wordOf 0x10 0 36 x.enc)
  | .skipnz x => some (wordOf 0x10 1 36 x.enc)
  | .br x => some (wordOf 0x11 0 36 x.enc)
  | .brz x => some (wordOf 0x11 1 36 x.enc)
  | .brnz x => some (wordOf 0x11 2 36 x.enc)
  | .call x => some (wordOf 0x11 3 36 x.enc)
  | .callr x => some (wordOf 0x11 4 36 x.enc)
  | .jmpr x => some (wordOf 0x11 5 36 x.enc)
  | .ret x => some (wordOf 0x11 6 36 x.enc)
  | .nest x => some (wordOf 0x12 0 36 x.enc)
  | .iter x => some (wordOf 0x12 1 36 x.enc)
  | .nop x => some (wordOf 0x13 0 36 x.enc)
  | .stalln x => some (wordOf 0x13 1 36 x.enc)
  | .yield x => some (wordOf 0x13 2 36 x.enc)
  | .park x => some (wordOf 0x13 3 36 x.enc)
  | .exit x => some (wordOf 0x13 4 36 x.enc)
  | .fadd x => some (wordOf 0x20 0 24 x.enc)
  | .fsub x => some (wordOf 0x20 1 24 x.enc)
  | .fmul x => some (wordOf 0x20 2 24 x.enc)
  | .fdiv x => some (wordOf 0x20 3 24 x.enc)
  | .fsqrt x => some (wordOf 0x20 4 24 x.enc)
  | .fmin x => some (wordOf 0x20 5 24 x.enc)
  | .fmax x => some (wordOf 0x20 6 24 x.enc)
  | .frcp x => some (wordOf 0x20 7 24 x.enc)
  | .frsq x => some (wordOf 0x20 8 24 x.enc)
  | .flog2 x => some (wordOf 0x20 9 24 x.enc)
  | .fexp2 x => some (wordOf 0x20 10 24 x.enc)
  | .fma x => some (wordOf 0x21 0 24 x.enc)
  | .fms x => some (wordOf 0x21 1 24 x.enc)
  | .fnma x => some (wordOf 0x21 2 24 x.enc)
  | .fceq x => some (wordOf 0x22 0 24 x.enc)
  | .fclt x => some (wordOf 0x22 1 24 x.enc)
  | .fcle x => some (wordOf 0x22 2 24 x.enc)
  | .fcun x => some (wordOf 0x22 3 24 x.enc)
  | .fclass x => some (wordOf 0x22 4 24 x.enc)
  | .fcvt x => some (wordOf 0x23 0 24 x.enc)
  | .sysrd x => some (wordOf 0x81 0 36 x.enc)
  | .syswr x => some (wordOf 0x81 1 36 x.enc)
  | .trap x => some (wordOf 0x82 0 36 x.enc)
  | .eret x => some (wordOf 0x82 1 36 x.enc)
  | .trace x => some (wordOf 0x83 0 36 x.enc)
  | .vadd x => some (wordOf 0x30 0 24 x.enc)
  | .vsub x => some (wordOf 0x30 1 24 x.enc)
  | .vmul x => some (wordOf 0x30 2 24 x.enc)
  | .vdiv x => some (wordOf 0x30 3 24 x.enc)
  | .vsqrt x => some (wordOf 0x30 4 24 x.enc)
  | .vmin x => some (wordOf 0x30 5 24 x.enc)
  | .vmax x => some (wordOf 0x30 6 24 x.enc)
  | .vrcp x => some (wordOf 0x30 7 24 x.enc)
  | .vrsq x => some (wordOf 0x30 8 24 x.enc)
  | .vlog2 x => some (wordOf 0x30 9 24 x.enc)
  | .vexp2 x => some (wordOf 0x30 10 24 x.enc)
  | .vfma x => some (wordOf 0x31 0 24 x.enc)
  | .vfms x => some (wordOf 0x31 1 24 x.enc)
  | .viadd x => some (wordOf 0x32 0 24 x.enc)
  | .visub x => some (wordOf 0x32 1 24 x.enc)
  | .vimul x => some (wordOf 0x32 2 24 x.enc)
  | .vand x => some (wordOf 0x32 3 24 x.enc)
  | .vor x => some (wordOf 0x32 4 24 x.enc)
  | .vxor x => some (wordOf 0x32 5 24 x.enc)
  | .vshl x => some (wordOf 0x32 6 24 x.enc)
  | .vshr x => some (wordOf 0x32 7 24 x.enc)
  | .vimin x => some (wordOf 0x32 8 24 x.enc)
  | .vimax x => some (wordOf 0x32 9 24 x.enc)
  | .vceq x => some (wordOf 0x33 0 24 x.enc)
  | .vclt x => some (wordOf 0x33 1 24 x.enc)
  | .vcle x => some (wordOf 0x33 2 24 x.enc)
  | .vcun x => some (wordOf 0x33 3 24 x.enc)
  | .vsel x => some (wordOf 0x33 4 24 x.enc)
  | .vred x => some (wordOf 0x34 0 0 x.enc)
  | .vscan x => some (wordOf 0x34 4 24 x.enc)
  | .vrmaxi x => some (wordOf 0x34 3 24 x.enc)
  | .vsplat x => some (wordOf 0x35 0 24 x.enc)
  | .vlane x => some (wordOf 0x35 1 24 x.enc)
  | .vins x => some (wordOf 0x35 2 24 x.enc)
  | .vperm x => some (wordOf 0x35 3 24 x.enc)
  | .vmaxi x => some (wordOf 0x36 0 24 x.enc)
  | .vcmpr x => some (wordOf 0x36 1 24 x.enc)
  | .vselk x => some (wordOf 0x36 2 24 x.enc)
  | .vcvt x => some (wordOf 0x37 0 24 x.enc)
  | .vldl x => some (wordOf 0x4A 0 24 x.enc)
  | .vstl x => some (wordOf 0x4A 1 24 x.enc)
  | .odef x => some (wordOf 0x58 0 24 x.enc)
  | .spfence x => some (wordOf 0x45 1 36 x.enc)
  | .czero x => some (wordOf 0x5B 0 24 x.enc)
  | .crd x => some (wordOf 0x5B 1 24 x.enc)
  | .cwr x => some (wordOf 0x5B 2 24 x.enc)
  | .cld x => some (wordOf 0x59 0 24 x.enc)
  | .cwait x => some (wordOf 0x5A 0 24 x.enc)
  | .cqry x => some (wordOf 0x5A 1 24 x.enc)
  | .cabort x => some (wordOf 0x5A 2 24 x.enc)
  | .ld x => some (wordOf 0x40 0 0 x.enc)
  | .st x => some (wordOf 0x41 0 0 x.enc)
  | .vld x => some (wordOf 0x48 0 24 x.enc)
  | .vst x => some (wordOf 0x48 1 24 x.enc)
  | .vlds x => some (wordOf 0x48 2 24 x.enc)
  | .vsts x => some (wordOf 0x48 3 24 x.enc)
  | .vgth x => some (wordOf 0x49 0 24 x.enc)
  | .vsct x => some (wordOf 0x49 1 24 x.enc)
  | .vldb x => some (wordOf 0x4B 0 0 x.enc)
  | .vstb x => some (wordOf 0x4B 1 27 x.enc)
  | .pref x => some (wordOf 0x44 0 30 x.enc)
  | .sbind x => some (wordOf 0x43 0 24 x.enc)
  | .sunb x => some (wordOf 0x43 1 24 x.enc)
  | .sstat x => some (wordOf 0x43 2 24 x.enc)
  | .cbdef x => some (wordOf 0x50 0 24 x.enc)
  | .cbrsv x => some (wordOf 0x50 1 24 x.enc)
  | .cbpub x => some (wordOf 0x50 2 24 x.enc)
  | .cbtake x => some (wordOf 0x50 3 24 x.enc)
  | .cbrel x => some (wordOf 0x50 4 24 x.enc)
  | .ldc x => some (wordOf 0x42 0 30 x.enc)
  | .stf x => some (wordOf 0x42 1 30 x.enc)
  | .cpy x => some (wordOf 0x70 0 24 x.enc)
  | .cpyl x => some (wordOf 0x70 1 24 x.enc)
  | .eqry x => some (wordOf 0x73 0 24 x.enc)
  | .send x => some (wordOf 0x68 0 24 x.enc)
  | .mpeek x => some (wordOf 0x68 1 24 x.enc)
  | .mclr x => some (wordOf 0x68 2 24 x.enc)
  | .lbsend x => some (wordOf 0x68 3 24 x.enc)
  | .inbx x => some (wordOf 0x68 4 24 x.enc)
  | .migrate x => some (wordOf 0x69 0 36 x.enc)
  | .homec x => some (wordOf 0x69 1 36 x.enc)
  | .cwb x => some (wordOf 0x44 1 30 x.enc)
  | .cinv x => some (wordOf 0x44 2 30 x.enc)
  | .alinv x => some (wordOf 0x44 3 30 x.enc)
  | .amo x => some (wordOf 0x60 0 0 x.enc)
  | .red x => some (wordOf 0x61 0 0 x.enc)
  | .cas x => some (wordOf 0x62 0 24 x.enc)
  | .barr x => some (wordOf 0x64 0 24 x.enc)
  | .barw x => some (wordOf 0x64 1 24 x.enc)
  | .bara x => some (wordOf 0x64 2 24 x.enc)
  | .mwait x => some (wordOf 0x65 0 24 x.enc)
  | .launch x => some (wordOf 0x80 0 24 x.enc)
  | .fence x => some (wordOf 0x45 0 36 x.enc)
  | .qfence x => some (wordOf 0x45 2 36 x.enc)
  | .lrw x => some (wordOf 0x63 0 24 x.enc)
  | .sch x => some (wordOf 0x63 1 24 x.enc)
  | .rrel x => some (wordOf 0x63 2 24 x.enc)
  | .rdx x => some (wordOf 0x71 0 24 x.enc)
  | .rqz x => some (wordOf 0x72 0 24 x.enc)
  | .hnew x => some (wordOf 0x78 0 24 x.enc)
  | .hfree x => some (wordOf 0x78 1 24 x.enc)
  | .hdown x => some (wordOf 0x78 2 24 x.enc)
  | .hup x => some (wordOf 0x78 3 24 x.enc)
  | .hprio x => some (wordOf 0x78 4 24 x.enc)
  | .haddr x => some (wordOf 0x78 5 24 x.enc)
  | .hld x => some (wordOf 0x79 0 30 x.enc)
  | .hldw x => some (wordOf 0x79 1 30 x.enc)
  | .hst x => some (wordOf 0x79 2 30 x.enc)
  | .gqclm x => some (wordOf 0x7D 0 24 x.enc)
  | .baddq x => some (wordOf 0x7C 0 24 x.enc)
  | .resultDelivery _ _ _ => none
  | .unpark _ _ => none
  | .checkerRetry _ _ _ => none
  | .iterationClaim _ _ => none
  | .sectorRequest _ _ => none
  | .sectorArrival _ _ _ => none
  | .loadFault _ _ _ _ => none
  | .translationWalk _ _ _ _ => none
  | .shootDown _ _ _ _ => none
  | .linkWordArrival _ _ _ _ _ => none
  | .copyOperation _ _ => none
  | .registerMessage _ => none
  | .wakeReinstate _ _ => none
  | .wakeEndGang _ _ => none
  | .wakeResumeLoad _ _ => none
  | .wakeEndLoad _ _ => none
  | .wakePassOver _ _ => none
  | .reinstatement _ => none
  | .flitRouting _ => none
  | .epochBoundary => none
  | .migrationRequest _ => none
  | .requestRepeat _ => none
  | .grant _ _ _ => none
  | .migrationContext _ _ => none
  | .serviceMessage _ => none
  | .redTranslation _ => none
  | .launchRetirement _ => none
  | .gangPlacement => none
  | .placementTimeout _ => none
  | .quantumExpiry _ _ => none
  | .preemption _ _ => none
  | .gangRestore _ _ => none
  | .clearing => none
  | .selfTestEnd => none
  | .rdxOperation _ => none
  | .rqzOperation _ => none
  | .reclaimPass _ => none
  | .tenureExpiry _ => none
  | .lrwRepeat _ _ => none
  | .scrubPatrol _ _ => none
  | .asrec => none
  | .faultdest => none
  | .cereplyResume => none
  | .cereplyEnd => none
  | .redreplyResume => none
  | .redreplyDrop => none
  | .migpool => none
  | .decwin => none
  | .objtab => none
  | .faqpop => none
  | .thrtab => none
  | .policy => none
  | .lend => none
  | .coreRestart => none
  | .coreHold => none
  | .coreRelease => none
  | .tracebuf => none
  | .traceptr => none
  | .partset => none
  | .hostsvc => none
  | .collectiveBind => none
  | .collectiveBlockArrival _ _ _ _ => none
  | .collectiveTimeout => none
  | .dataFlit _ _ => none
  | .idleFlit _ _ => none
  | .replayRequest _ _ => none
  | .laneRepair _ => none
  | .retrainComplete _ _ => none
  | .doorbell _ _ => none
  | .attest _ _ => none
  | .hostAccess _ _ _ _ => none
  | .registerWrite _ _ _ => none
  | .boot => none
  | .clockCap _ => none
  | .turn => none
  | .illegalWord _ => none
  | .streamPrefetch _ _ _ => none
  | .drainLimitExpiry _ => none
  | .classTransitionClear _ _ _ _ => none
  | .pageRetirementMove _ _ => none
  | .recoveryImage _ => none

end Sys2Proof
end

