-- ==== Sys2Proof/Machine/State.lean ====
section
/-!
DEFINITION. The state of the package as plain data: thread slots, cores, clusters, dies, partitions, memory, engines,
network, scheduler, ports and the host's registers; the reasons a step can stop; and the state right after reset.

What is keyed by a number (a register file, the cores of the package) is a list of keys and values with rising keys, in
which what is absent holds its reset value.
-/

namespace Sys2Proof.Machine

/-- Why a step stops the machine. -/
inductive Fault where
  /-- Raised by a word's meaning when the current slot holds no thread that may issue: a word issues only on a running
  or parked slot (R78, R86). `step` never raises it. Safe: the model stops where nothing is fetched at all. -/
  | noThread
  deriving DecidableEq, Repr

/-- Why a step has no meaning. -/
inductive Refusal where
  /-- Raised by `exec` for an instruction without a meaning in this model, under the table's mnemonic. Safe. -/
  | notModelled (mnemonic : String)
  deriving DecidableEq, Repr

/-- A table with rising keys. -/
abbrev Map (α : Type) := List (Nat × α)

/-- Memory: bytes by address, addresses rising, no byte equal to what an unlisted address reads as. -/
abbrev Memory := List Host.Cell

/-- Words of an accumulator file, in the same form as memory. -/
abbrev Words := List (Nat × BitVec 32)

/-! ### Slot state (R75) -/

/-- Whether a register or queue entry holds its result: `late` is a fixed-latency result that becomes ready after
`left` further turns of the slot (R84); `pending` is a variable-latency result owed under a tag, part 0 the status and
part 1 the data (R82). Until then the old value is held (R81, R85). -/
inductive Ready (α : Type) where
  | now
  | late (left : Nat) (new : α)
  | pending (tag part : Nat)
  deriving DecidableEq, Repr

/-- A register or queue entry: the value it reads as, and whether a newer one is on the way. -/
structure Cell (α : Type) where
  val : α
  st : Ready α
  deriving DecidableEq, Repr

/-- A variable-latency result that a slot is owed (R82). -/
inductive OwedVal where
  /-- the producing unit has not answered yet (HNEW behind a pass, GQCLM behind an entry) -/
  | waiting
  | scalar (status data : W64)
  | vector (v : VImage)
  /-- a reply marked uncorrectable (R298) -/
  | poison
  deriving DecidableEq, Repr

/-- A result owed under a tag. -/
structure Owed where
  tag : Nat
  val : OwedVal
  /-- the checker has rejected the delivery once (R133, R134) -/
  retried : Bool := false
  /-- opcode of the word that it is owed for (R201) -/
  op : Nat := 0
  deriving DecidableEq, Repr

/-- Park reasons (R87). -/
inductive Reason where
  | result | link | stream | message | fullempty | reservation | buffer | barrier | monitor | cld | sleep | grant
  deriving DecidableEq, Repr

/-- Slot states (R86); `lent` is a field beside it, since a lent slot runs or parks like another. -/
inductive SlotSt where
  | empty
  | running
  | parked (r : Reason)
  | faulted
  | sealed
  deriving DecidableEq, Repr

/-- What put a slot into the faulted state: a page fault, or a trap that escalated (R90, R200, R202). -/
inductive FaultedBy where
  | page
  | trap
  deriving DecidableEq, Repr

/-- A stream register's binding (R169) with the elements a read stream has prefetched (R170). -/
structure Stream where
  bound : Bool
  wr : Bool
  /-- element size: 2 ^ size bytes -/
  size : Nat
  sp : Space
  base : W64
  stride : W64
  count : Nat
  pos : Nat
  buf : List W64
  deriving DecidableEq, Repr

/-- A message register (R220). -/
structure MReg where
  val : W64
  full : Bool
  topx : Bool
  deriving DecidableEq, Repr

/-- The iteration fetcher of a slot (R100–R104). -/
structure Fetcher where
  bound : Bool
  desc : W64
  total : Nat
  e0 : Nat
  e1 : Nat
  parties : Nat
  guided : Nat
  minc : Nat
  /-- current chunk: first index and end -/
  cur : Option (Nat × Nat)
  next : Option (Nat × Nat)
  /-- a claim has been started and not yet answered; `failed`: it faulted and firmware has not replied -/
  claiming : Bool
  failed : Bool
  exhausted : Bool
  /-- address of the word that started the claim (R201) -/
  word : W64
  deriving DecidableEq, Repr

/-- State of a progress record (R151). -/
inductive LoadSt where
  | none | running | faulted | done | aborted
  deriving DecidableEq, Repr

/-- The progress record of a slot's contracting load with what the load captured (R146, R151, R159). -/
structure Record where
  state : LoadSt
  base : Nat
  /-- bit i: sector base + i has been absorbed -/
  bitmap : Nat
  sectors : Nat
  sat : Bool
  err : Bool
  faddr : W64
  /-- requests have stopped on a failure and the record waits for the sectors in flight (R152) -/
  failing : Bool
  /-- a fault message is outstanding (R159) -/
  msgOut : Bool
  /-- CABORT was issued while sectors are in flight (R153) -/
  aborting : Bool
  /-- a reply that arrived before the record became faulted: true resumes, false ends (R152, R202) -/
  held : Option Bool
  /-- sectors requested and not yet arrived -/
  inflight : List Nat
  tile : Nat
  oslot : Nat
  topx : Bool
  kind : CldKind
  layout : Layout
  sImage : BitVec 32
  rImage : BitVec 32
  rows : Nat
  rbase : Nat
  rK : Nat
  gen : Nat
  a : W64
  geo : W64
  c : W64
  cldser : W64
  /-- address of the CLD word, for its fault message (R201) -/
  word : W64
  /-- sectors whose absorption the checker has rejected once (R157) -/
  retried : List Nat := []
  /-- data that the engine holds of sectors it will absorb once more (R157) -/
  data : Map (List (W64 × Nat)) := []
  deriving DecidableEq, Repr

/-- The monitor of a slot (R244). -/
structure Monitor where
  armed : Bool
  woken : Bool
  line : Nat
  deriving DecidableEq, Repr

/-- Who the thread on a slot is: the launch (numbered by acceptance; its serial is this number modulo 2^16), the gang,
the position in it, and what the launch gives every thread (R111, R246). -/
structure Thread where
  launch : Nat
  gang : Nat
  j : Nat
  x : Nat
  y : Nat
  index : Nat
  prio : Nat
  stage : Nat
  part : Nat
  asid : Nat
  debug : Bool
  spill : Bool
  /-- the thread has a gang rectangle on this core, and so links (R183) -/
  rect : Bool
  deriving DecidableEq, Repr

/-- What a word that is retried has read (R134): the registers and the queue of its slot, and the directions whose neighbours
were sealed. -/
structure Regs where
  q : List (Cell W64)
  n : Map (Cell W64)
  v : Map (Cell VImage)
  cut : List Dir
  deriving DecidableEq, Repr

/-- An object-table entry (R318). -/
structure Entry where
  off : Nat
  size : Nat
  strong : Nat
  prio : Nat
  state : Nat
  gen : Nat
  own : Nat
  deriving DecidableEq, Repr

/-- The read of an object-table entry that an HLD, HST or HLDW is parked on (R322): under way, or what it found. -/
inductive EntryRead where
  | sent
  /-- no live object of the handle -/
  | gone
  | live (e : Entry)
  /-- data marked uncorrectable (R298) -/
  | marked
  deriving DecidableEq, Repr

/-- A thread slot (R75). -/
structure Slot where
  st : SlotSt
  lent : Bool
  faultedBy : Option FaultedBy
  thread : Thread
  /-- q0 first; an entry beyond the list holds zero -/
  q : List (Cell W64)
  n : Map (Cell W64)
  v : Map (Cell VImage)
  streams : Map Stream
  m : Map MReg
  fmt : Map (BitVec 32)
  status : W64
  tvec : W64
  tcause : W64
  tepc : W64
  cldser : W64
  record : Record
  /-- address of the header of the block that control has reached -/
  hdr : W64
  /-- instruction index: 1–64 in the block, len + 2 when control falls out of it and reaches no header; 0 before a slot's first
  thread -/
  idx : Nat
  /-- the words of the entered block, its header first (R57) -/
  block : List W64
  stall : Nat
  /-- turns since the last word issued (R105) -/
  since : Nat
  /-- turns STALLN, YIELD or PARK still waits; none: no limit, or no wait begun -/
  sleepLeft : Option Nat
  /-- a message register became full since the last word issued (R105) -/
  msgWake : Bool
  /-- the checker rejected the word once (R134) -/
  retry : Bool
  fetcher : Fetcher
  monitor : Monitor
  /-- the phase in which a waiting BARA has arrived (R243) -/
  arrived : Option Nat
  /-- a refused or waiting reservation or migration request has been sent by the unissued word -/
  asked : Bool
  /-- migration granted: core and pool slot (R226) -/
  granted : Option (Nat × Nat)
  owed : List Owed
  /-- MBT pass-over bitmap and the index of the last word that issued (R345) -/
  passed : Nat
  lastIdx : Nat
  /-- the checker is about to disagree with the word that issues next (R134) -/
  suspect : Bool := false
  /-- the registers as the word that is retried read them (R134) -/
  held : Option Regs := none
  /-- a FENCE that has issued and still waits for earlier accesses and messages of the slot (R273) -/
  fence : Option Ord := none
  /-- control has reached the header at `hdr` and its block's words are still to be fetched (R52, R57) -/
  entering : Bool := false
  /-- the handle of the unissued word and the read of its entry (R322) -/
  entryRead : Option (W64 × EntryRead) := none
  deriving DecidableEq, Repr

/-! ### Core state -/

/-- A gang's name: launch number and gang index. -/
abbrev GangId := Nat × Nat

/-- An operand slot (R136). -/
structure OpSlot where
  owner : Option GangId
  base : Nat
  rows : Nat
  cols : Nat
  layout : Layout
  image : BitVec 32
  gen : Nat
  /-- scratchpad stores since the ODEF or the latest SPFENCE, newest first, each as its address and the bytes that stood
  there: what the operand cache may still hold (R139, R140) -/
  seen : List (Nat × List Byte) := []
  deriving DecidableEq, Repr

/-- A circular buffer (R172); undefined without an owner. -/
structure CBuf where
  owner : Option GangId
  sp : CbSpace
  base : Nat
  size : Nat
  count : Nat
  free : Nat
  reserved : Nat
  filled : Nat
  taken : Nat
  rsv : Nat
  pub : Nat
  take : Nat
  rel : Nat
  /-- slots parked on the buffer in the order in which they parked; true: for CBTAKE (R173) -/
  waiters : List (Nat × Bool)
  deriving DecidableEq, Repr

/-- An outgoing link FIFO of a core, bound to (gang, j): the words still under way and those the neighbour can pop,
oldest first (R181, R182). -/
structure LinkFifo where
  dir : Dir
  gang : GangId
  j : Nat
  wire : List W64
  fifo : List W64
  deriving DecidableEq, Repr

/-- An inbox entry (R222). -/
structure InboxEntry where
  slot : Nat
  reg : Nat
  value : W64
  topx : Bool
  deriving DecidableEq, Repr

/-- A line of a core's L1 (R162). -/
structure L1Line where
  part : Nat
  asid : Nat
  /-- virtual address / 32 -/
  vline : Nat
  /-- physical address / 32 -/
  pline : Nat
  /-- coherence class: 0 HC, 1 SC, 2 CP -/
  cls : Nat
  /-- bit i: byte i has been written here and not yet written back; on an HC page the home answers with it all the same,
  since a read there recalls the owner's copy (R236) -/
  dirty : BitVec 32
  kept : Bool
  data : BitVec 256
  /-- the line carries an error of more bits than its code corrects (R163) -/
  flawed : Bool := false
  /-- the line is the first of its set to be replaced (R176) -/
  once : Bool := false
  deriving DecidableEq, Repr

/-- The arrays of a core that stand under the code of R163 beside its L1. -/
inductive CoreArray where
  | spd
  | tile
  | slice
  deriving DecidableEq, Repr

/-- A message to a service core: a fault message (R201), a launch's service message (R241, R250, R252), or a host
request (R335). -/
inductive SvcBody where
  | fault (addr thread : W64) (loc kind flags info : Nat) (word : W64)
  | launch (serial : Nat) (cause : String)
  | doorbell (func : Nat) (tail : W64)
  | attest (func : Nat) (addr : W64)
  deriving DecidableEq, Repr

/-- A stretch of physical memory that a captured range covers: address, length, and whether its page is HC (R308). -/
abbrev Piece := Nat × Nat × Bool

/-- An operation of the root-logic queues (R307) with what it captured at its issue, or a join marker of a QFENCE (R275):
the used buffers and the destination of an RDX, the entry and the destination handle of an RQZ, and the physical address of
the barrier. -/
inductive RootItem where
  | rdx (ty : RdxTy) (srcs : Map (List Piece)) (dst : List Piece) (count : Nat) (failed : Bool) (bar : Nat) (thr : Thread)
  | rqz (entry : Piece) (handle : W64) (bar : Nat) (thr : Thread)
  | marker (id : Nat)
  deriving DecidableEq, Repr

/-- A reassembly slot in use (R225). -/
structure Reasm where
  srcCore : Nat
  srcSlot : Nat
  /-- the pool slot a migration context will take -/
  slot : Nat
  /-- flits in the message; 0 until the first arrives -/
  nfl : Nat
  chunks : Map (List Byte)
  /-- the gang whose thread it is for: what a save of the gang waits for (R254) -/
  gang : GangId := (0, 0)
  /-- the thread that it is for, where it is firmware's own, of which a context does not tell everything (R227) -/
  own : Option Thread := none
  /-- a flit of the message has been turned away, since its partition no longer owns the core (R338) -/
  denied : Bool := false
  deriving DecidableEq, Repr

/-- The MBT ring of a core (R341, R345). -/
structure TraceRing where
  bound : Bool
  base : Nat
  size : Nat
  wr : Nat
  rd : Nat
  lost : Nat
  lastClk : Nat
  deriving DecidableEq, Repr

/-- What a flit carries (R214). -/
inductive Payload where
  | reg (m : RegMsg)
  /-- a service message of one flit (R201, R225) -/
  | svc (b : SvcBody)
  | request (r : XferReq)
  | grant (r : XferReq) (target slot : Nat)
  /-- a part of the context of a thread that is to take a slot -/
  | chunk (slot : Nat) (bytes : List Byte)
  deriving DecidableEq, Repr

/-- A flit under way on the understory (R214, R215): header fields, the router it stands at or travels to, and the clk at
which it arrives there. -/
structure Flit where
  kind : Nat
  part : Nat
  plane : Nat
  age : Nat
  seq : Nat
  nfl : Nat
  stamp : Nat
  msgid : Nat
  drouter : Nat
  dend : Nat
  srouter : Nat
  send : Nat
  dcore : Nat
  scoreId : Nat
  sslot : Nat
  at_ : Nat
  due : Nat
  payload : Payload
  deriving DecidableEq, Repr

/-- A core. -/
structure Core where
  slots : Map Slot
  tiles : Words
  spd : Memory
  lanes : Memory
  opslots : Map OpSlot
  cbufs : Map CBuf
  links : List LinkFifo
  inbox : List InboxEntry
  lost : Nat
  inject : List Flit
  reasm : List Reasm
  requests : List XferReq
  rdq : List RootItem
  rqq : List RootItem
  l1 : List L1Line
  isSealed : Bool
  isHeld : Bool
  svcCmd : W64
  svcArg : Map W64
  svcRes0 : W64
  svcRes1 : W64
  /-- a command started by svc.cmd has not completed; `svcDone` says that it has and the SYSWR may issue -/
  svcBusy : Bool
  svcDone : Bool
  /-- service messages delivered to this core -/
  mail : List SvcBody
  ring : TraceRing
  /-- woken threads that wait for a free slot, with their saved contexts (R204) -/
  waiting : List Slot
  /-- contexts spilled from lent slots, with the address of the spill record and the slot (R203) -/
  spilled : List (Nat × Nat × Slot)
  /-- 8-byte words of the scratchpad, the tiles and the lane slices that carry an uncorrectable error (R163) -/
  flaws : List (CoreArray × Nat) := []
  /-- a line with an uncorrectable error has been written back, and the core seals before it commits anything more (R163,
  R177) -/
  sealDue : Bool := false
  /-- message ids given by this source so far (R214) -/
  msgid : Nat := 0
  /-- refused transfer requests that the source repeats, each with the clk at which it does (R225) -/
  repeats : List (XferReq × Nat) := []
  /-- arguments of the service command under way, as they were when it started (R340) -/
  cmdArgs : Map W64 := []
  /-- id of the thread that started it, which may have left its slot since -/
  svcBy : W64 := 0
  deriving DecidableEq, Repr

/-- A placed gang (R205, R251). -/
structure Gang where
  id : GangId
  /-- 16 × die + cluster -/
  cluster : Nat
  row : Nat
  col : Nat
  w : Nat
  h : Nat
  t : Nat
  tiles : BitVec 16
  lanes : Bool
  spdBase : Nat
  spdSize : Nat
  clsBase : Nat
  clsSize : Nat
  part : Nat
  prio : Nat
  resident : Bool
  /-- order of placement -/
  order : Nat
  /-- threads that have not ended -/
  live : Nat
  /-- clk of the placement (R253) -/
  since : Nat
  /-- pre-emption has begun: its slots issue nothing more (R254) -/
  stopping : Bool := false
  deriving DecidableEq, Repr

/-! ### Cluster and die state -/

/-- A translation (R189): space, virtual page and size, and the leaf entry. -/
structure TlbEntry where
  part : Nat
  asid : Nat
  large : Bool
  /-- virtual address / 2^16, or / 2^29 for a large page -/
  vpage : Nat
  leaf : W64
  deriving DecidableEq, Repr

/-- An operation of a copy queue (R193): the barrier's physical address, the issuer, and how far it has come. -/
inductive CopyItem where
  | op (list : Bool) (desc : W64) (bar : Nat) (entries : Nat) (core slot : Nat) (thr : Thread) (row : Nat)
    /- the descriptor of a CPY, or the entries of a CPYL, once it has begun (R194), and the reservations of its gang (R193) -/
    (got : Option (List Byte)) (gang : Option Gang)
  /-- a join marker, and the gang whose thread placed it -/
  | marker (id : Nat) (by_ : GangId)
  deriving DecidableEq, Repr

/-- A copy queue (R193, R199). -/
structure CopyQueue where
  items : List CopyItem
  done : BitVec 32
  faulted : Bool
  bufwait : Bool
  deriving DecidableEq, Repr

/-- A cluster, numbered 16 × die + cluster. -/
structure Cluster where
  tlb : List TlbEntry
  queues : Map CopyQueue
  migpool : BitVec 16
  faultdest : Option Nat
  clearing : Bool
  testing : Bool
  /-- the gang a reserving cluster is kept for (R252) -/
  reserving : Option GangId
  defl : Nat
  lastDefl : Nat
  rate : Nat
  /-- clk at which the drain, and then the self-test, began (R257) -/
  since : Nat
  deriving DecidableEq, Repr

/-- A die. -/
structure Die where
  chip : Memory
  /-- the sixteen throttle values, THRTAB's arguments (R219, R341) -/
  thrLow : W64
  thrHigh : W64
  clearings : Nat
  deriving DecidableEq, Repr

/-! ### Package state -/

/-- A decode window (R232). -/
structure Window where
  src : Nat
  alias_ : Nat
  len : Nat
  scl : Nat
  image : BitVec 32
  ctl : Nat
  deriving DecidableEq, Repr

/-- A partition: what firmware gives it and its object table (R315–R323). -/
structure Partition where
  stackSet : Nat
  clusters : Nat
  vfs : Nat
  chip : Nat
  hostsvc : Option Nat
  tau : Nat
  table : Nat
  capacity : Nat
  hbase : Nat
  hphys : Nat
  hsize : Nat
  low : Nat
  high : Nat
  /-- a reclaim pass runs (R323) -/
  pass : Bool
  /-- HNEWs that wait for the pass: core, slot, tag, size, priority -/
  hnews : List (Nat × Nat × Nat × Nat × Nat)
  deriving DecidableEq, Repr

/-- An accepted launch (R246). -/
structure Launch where
  entry : W64
  params : W64
  waiton : W64
  done : W64
  gangs : Nat
  w : Nat
  h : Nat
  t : Nat
  stage : Nat
  prio : Nat
  tiles : BitVec 16
  lanes : Bool
  spd : Nat
  cls : Nat
  part : Nat
  layer : Bool
  resident : Bool
  debug : Bool
  spill : Bool
  asid : Nat
  wph : Nat
  spcore : Nat
  /-- index of the next gang to place; `gangs` when none is left -/
  next : Nat
  err : Bool
  /-- clk since which the next gang has waited (R252) -/
  since : Nat
  deriving DecidableEq, Repr

/-- What pre-emption saves of one core of a gang's rectangle (R255). -/
structure SavedCore where
  tiles : Words
  spd : Memory
  lanes : Memory
  opslots : Map OpSlot
  cbufs : Map CBuf
  links : List LinkFifo
  /-- its words that carry an uncorrectable error (R163) -/
  flaws : List (CoreArray × Nat) := []
  deriving DecidableEq, Repr

/-- A saved context: row and column in its gang's rectangle, none for a thread that stood outside it, and the cluster it
was on. -/
structure SavedSlot where
  place : Option (Nat × Nat)
  cluster : Nat
  slot : Slot
  deriving DecidableEq, Repr

/-- A saved gang (R254, R255): the inbox entries of its slots carry the `sys.thr` index of their thread in place of a slot;
`wakes` are held for it. -/
structure SavedGang where
  gang : Gang
  slots : List SavedSlot
  cores : List SavedCore
  cls : List Memory
  /-- words of `cls` that carry an uncorrectable error, core by core (R163) -/
  clsFlaws : List (List (CoreArray × Nat)) := []
  inbox : List InboxEntry
  copies : List (Nat × CopyItem)
  wakes : List (Nat × W64)
  /-- clk since which it waits for a place (R252) -/
  since : Nat := 0
  deriving DecidableEq, Repr

/-- A deferred .GLB RED (R240). -/
structure DefRed where
  id : Nat
  core : Nat
  slot : Nat
  thr : Thread
  op : AmoOp
  w : WTy
  addr : W64
  val : W64
  /-- address of the RED word, for its fault message (R201) -/
  word : W64
  /-- a fault message is out and firmware has not answered -/
  failed : Bool
  /-- its thread has executed EXIT or MIGRATE since, or its gang has ended (R240) -/
  left : Bool := false
  deriving DecidableEq, Repr

/-- An entry of a reservation queue (R300): the line, the thread, and since when it has held the reservation. -/
structure ResEntry where
  line : Nat
  tid : W64
  held : Option Nat
  deriving DecidableEq, Repr

/-- A fault-address entry (R305). -/
structure FaqEntry where
  pa : Nat
  kind : Nat
  info : Nat
  time : BitVec 32
  deriving DecidableEq, Repr

/-- The side bits of a line that outlive a step: layout, tolerant format, directory (R294). -/
structure SideBits where
  lay : Bool
  tfmt : BitVec 3
  dstate : BitVec 2
  dinfo : BitVec 13
  deriving DecidableEq, Repr

/-- The active collective (R351, R352). -/
structure Collective where
  addr : W64
  src : Nat
  dst : Nat
  stage : Nat
  status : Nat
  bar : Nat
  nblk : Nat
  image : BitVec 32
  inPorts : BitVec 16
  outPorts : BitVec 16
  id : Nat
  /-- received masks -/
  masks : Map (BitVec 16)
  /-- blocks enqueued so far -/
  enq : List Nat
  /-- entries not yet claimed: block, mask, incomplete -/
  queue : List (Nat × BitVec 16 × Bool)
  claims : Nat
  anyInc : Bool
  /-- clk at which the collective became active (R352) -/
  since : Nat
  deriving DecidableEq, Repr

/-- Blocks of a collective that a port has still to send: id, source, bytes of a block, next block, number of blocks
(R352). -/
structure SendJob where
  id : Nat
  src : Nat
  bb : Nat
  next : Nat
  nblk : Nat
  deriving DecidableEq, Repr

/-- A fabric port (R346–R350): the sender's replay buffer holds sequence numbers and flits not yet acknowledged, `wire`
what it has sent, oldest first. -/
structure Port where
  lanes : Nat
  down : Bool
  retrain : Bool
  repairs : Nat
  replays : Nat
  txSeq : Nat
  rxSeq : Nat
  unacked : List (Nat × List Byte)
  wire : List (List Byte)
  todo : List SendJob
  deriving DecidableEq, Repr

/-- The BAR0 registers of one function (R335). -/
structure FnRegs where
  qbase : W64
  qsize : W64
  attest : W64
  /-- the model's own: what the host's latest read returned -/
  data : List Byte
  deriving DecidableEq, Repr

/-- Firmware policy values (R341 0x0A). -/
structure Policies where
  placement : Nat
  drain : Nat
  clearing : Nat
  scrub : Nat
  quantum : Nat
  collective : Nat
  deriving DecidableEq, Repr

/-- Power-on state: the flash's parts, the measurement registers, and whether firmware runs (R306, R342). -/
structure BootState where
  image : List Byte
  config : List Byte
  badList : List Nat
  badListSigned : Bool
  badListFull : Bool
  m : Map (List Byte)
  ready : Bool
  recovery : Bool
  /-- the frames that boot left out of every partition's memory -/
  leftOut : List Nat := []
  /-- the bad-page list failed its verification at boot (R306, R343) -/
  listFailed : Bool := false
  deriving DecidableEq, Repr

/-- The whole package. -/
structure State where
  /-- clk periods since reset (R111) -/
  clk : W64
  /-- the model's own: the slot whose turn it is (core, slot) -/
  cur : Nat × Nat
  /-- the model's own: counter of the free values taken so far -/
  free : Nat
  /-- the model's own: counter of tags and other names given so far -/
  fresh : Nat
  /-- the model's own: steps that other agents have under way or that the outside world brings -/
  agenda : List Instr
  cores : Map Core
  clusters : Map Cluster
  dies : Map Die
  mem : Memory
  /-- words whose full/empty bit is 1, by physical address / 4, rising -/
  full : List Nat
  /-- poisoned lines, by physical address / 64, rising -/
  poison : List Nat
  /-- check bits of the lines whose check bits are not the code of their contents, by physical address / 64 (R294, R298) -/
  chk : Map (BitVec 32) := []
  side : Map SideBits
  faq : List FaqEntry
  faqOvf : Nat
  res : List ResEntry
  windows : Map Window
  /-- alias lines L2 holds, by physical address / 64 -/
  aliases : Map (List Byte)
  asrec : Map Nat
  parts : Map Partition
  launches : Map Launch
  /-- launches accepted so far -/
  accepted : Nat
  placed : Nat
  /-- clk of the latest clearing (R257) -/
  lastClear : Nat
  gangs : List Gang
  saved : List SavedGang
  policy : Policies
  svcCores : List Nat
  /-- cores with a service command under way, in order of arrival (R340) -/
  commands : List Nat
  /-- service messages at their endpoints, or of hardware that stands at no core: destination core and body -/
  posted : List (Nat × SvcBody)
  /-- FENCEs that threads on their way between two slots have issued and that still wait: id of the thread, and ordering (R267,
  R274) -/
  fences : List (W64 × Ord) := []
  flits : List Flit
  reds : List DefRed
  coll : Option Collective
  /-- GQCLMs that wait for an entry: core, slot, tag (R353) -/
  gqclms : List (Nat × Nat × Nat)
  ports : Map Port
  fns : Map FnRegs
  hostMem : Memory
  boot : BootState
  clockMHz : Nat
  /-- the model's own: steps since the oldest entry of the agenda, and since a turn, was taken -/
  headWait : Nat := 0
  turnWait : Nat := 0
  deriving DecidableEq, Repr

/-! ### Reset values -/

/-- A register or queue entry at reset: zero and ready (R249; before any thread a DESIGN CHOICE, log 1). -/
def Cell.zero : Cell W64 := { val := 0, st := .now }

/-- A vector register at reset (DESIGN CHOICE, log 1). -/
def Cell.vzero : Cell VImage := { val := 0, st := .now }

/-- An unbound stream register (R169). -/
def Stream.reset : Stream :=
  { bound := false, wr := false, size := 0, sp := .glb, base := 0, stride := 0, count := 0, pos := 0, buf := [] }

/-- An empty message register (R249). -/
def MReg.reset : MReg := { val := 0, full := false, topx := false }

/-- An unbound fetcher (R101). -/
def Fetcher.reset : Fetcher :=
  { bound := false, desc := 0, total := 0, e0 := 0, e1 := 0, parties := 0, guided := 0, minc := 0, cur := none,
    next := none, claiming := false, failed := false, exhausted := false, word := 0 }

/-- The record resets to state none with every field zero (R151). -/
def Record.reset : Record :=
  { state := .none, base := 0, bitmap := 0, sectors := 0, sat := false, err := false, faddr := 0, failing := false,
    msgOut := false, aborting := false, held := none, inflight := [], tile := 0, oslot := 0, topx := false,
    kind := .f32, layout := .km, sImage := 0, rImage := 0, rows := 0, rbase := 0, rK := 0, gen := 0, a := 0, geo := 0,
    c := 0, cldser := 0, word := 0 }

/-- No monitor. -/
def Monitor.reset : Monitor := { armed := false, woken := false, line := 0 }

/-- No thread: the fields that placement sets, at a choice of zero (R111 gives none; DESIGN CHOICE, log 1). -/
def Thread.none : Thread :=
  { launch := 0, gang := 0, j := 0, x := 0, y := 0, index := 0, prio := 0, stage := 0, part := 0, asid := 0,
    debug := false, spill := false, rect := false }

/-- A slot at reset: empty (R86), its system registers at their reset values (R64, R76, R77, R156). -/
def Slot.reset : Slot :=
  { st := .empty, lent := false, faultedBy := none, thread := Thread.none, q := [], n := [], v := [], streams := [], m := [],
    fmt := [], status := 0, tvec := 0, tcause := 0, tepc := 0, cldser := 0, record := Record.reset, hdr := 0, idx := 0,
    block := [], stall := 0, since := 0, sleepLeft := none, msgWake := false, retry := false,
    fetcher := Fetcher.reset, monitor := Monitor.reset, arrived := none, asked := false, granted := none, owed := [],
    passed := 0, lastIdx := 0 }

/-- A free operand slot of generation 0 (R136). -/
def OpSlot.reset : OpSlot :=
  { owner := none, base := 0, rows := 0, cols := 0, layout := .km, image := 0, gen := 0 }

/-- An undefined buffer (R172). -/
def CBuf.reset : CBuf :=
  { owner := none, sp := .spd, base := 0, size := 0, count := 0, free := 0, reserved := 0, filled := 0, taken := 0,
    rsv := 0, pub := 0, take := 0, rel := 0, waiters := [] }

/-- No MBT ring (R341). -/
def TraceRing.reset : TraceRing :=
  { bound := false, base := 0, size := 0, wr := 0, rd := 0, lost := 0, lastClk := 0 }

/-- A core at reset: every slot empty, every unit free. -/
def Core.reset : Core :=
  { slots := [], tiles := [], spd := [], lanes := [], opslots := [], cbufs := [], links := [],
    inbox := [], lost := 0, inject := [], reasm := [], requests := [], rdq := [], rqq := [], l1 := [],
    isSealed := false, isHeld := false, svcCmd := 0, svcArg := [], svcRes0 := 0, svcRes1 := 0, svcBusy := false,
    svcDone := false, mail := [], ring := TraceRing.reset, waiting := [], spilled := [] }

/-- An empty copy queue (R199). -/
def CopyQueue.reset : CopyQueue := { items := [], done := 0, faulted := false, bufwait := false }

/-- A cluster at reset: the pool is empty (R226), the rate is 64 (R219). -/
def Cluster.reset : Cluster :=
  { tlb := [], queues := [], migpool := 0, faultdest := none, clearing := false, testing := false, reserving := none,
    defl := 0, lastDefl := 0, rate := 64, since := 0 }

/-- A die at reset; the throttle table is 64 in every entry (DESIGN CHOICE, log 3). -/
def Die.reset : Die :=
  { chip := [], thrLow := 0x4040404040404040, thrHigh := 0x4040404040404040, clearings := 0 }

/-- A disabled window (R232). -/
def Window.reset : Window := { src := 0, alias_ := 0, len := 0, scl := 0, image := 0, ctl := 0 }

/-- A partition that firmware has not set up owns nothing. -/
def Partition.reset : Partition :=
  { stackSet := 0, clusters := 0, vfs := 0, chip := 0, hostsvc := none, tau := 0, table := 0, capacity := 0, hbase := 0,
    hphys := 0, hsize := 0, low := 0, high := 0, pass := false, hnews := [] }

/-- The side bits of an untouched line (R294). -/
def SideBits.reset : SideBits := { lay := false, tfmt := 0, dstate := 0, dinfo := 0 }

/-- A port at reset: eight lanes (R350). -/
def Port.reset : Port :=
  { lanes := 8, down := false, retrain := false, repairs := 0, replays := 0, txSeq := 0, rxSeq := 0, unacked := [],
    wire := [], todo := [] }

/-- BAR0 registers at reset (R335). -/
def FnRegs.reset : FnRegs := { qbase := 0, qsize := 0, attest := 0, data := [] }

/-- Core 15 of clusters 0, 5, 10 and 15 of each die, the firmware default (R3), as 256 × die + 16 × cluster + core. -/
def defaultSvcCores : List Nat :=
  [0x00F, 0x05F, 0x0AF, 0x0FF, 0x10F, 0x15F, 0x1AF, 0x1FF, 0x20F, 0x25F, 0x2AF, 0x2FF, 0x30F, 0x35F, 0x3AF, 0x3FF]

/-- Power-on, before BOOT: the measurement registers hold 64 zero bytes (R342). -/
def BootState.reset : BootState :=
  { image := [], config := [], badList := [], badListSigned := true, badListFull := false, m := [], ready := false,
    recovery := false }

/-- Firmware policy values before POLICY sets them: a choice of 0, which switches the timed action off (DESIGN CHOICE, log
3). -/
def Policies.reset : Policies := { placement := 0, drain := 0, clearing := 0, scrub := 0, quantum := 0, collective := 0 }

/-- The package right after reset. -/
def State.reset : State :=
  { clk := 0, cur := (0, 0), free := 0, fresh := 0, agenda := [.boot], cores := [], clusters := [], dies := [], mem := [],
    full := [], poison := [], side := [], faq := [], faqOvf := 0, res := [], windows := [], aliases := [], asrec := [],
    parts := [], launches := [], accepted := 0, placed := 0, lastClear := 0, gangs := [], saved := [], policy := Policies.reset,
    svcCores := defaultSvcCores, commands := [], posted := [], flits := [], reds := [], coll := none, gqclms := [], ports := [],
    fns := [], hostMem := [], boot := BootState.reset, clockMHz := 1600 }

end Sys2Proof.Machine
end

