-- ==== Sys2Proof/Machine/Mem.lean ====
section
/-!
DEFINITION. Tables with rising keys, sparse memories in canonical form, byte strings, and the accessors of cores, slots,
clusters and dies.
-/

namespace Sys2Proof.Machine

/-! ### Tables -/

/-- The entry of a key, if the table lists it. -/
def mapFind {α : Type} : Map α → Nat → Option α
  | [], _ => none
  | (j, a) :: m, k => if j = k then some a else mapFind m k

/-- The entry of a key, or what an absent entry stands for. -/
def mapGet {α : Type} (d : α) (m : Map α) (k : Nat) : α := (mapFind m k).getD d

/-- A table with the entry of a key written. -/
def mapSet {α : Type} : Map α → Nat → α → Map α
  | [], k, a => [(k, a)]
  | (j, b) :: m, k, a =>
    if j < k then (j, b) :: mapSet m k a
    else if j = k then (k, a) :: m
    else (k, a) :: (j, b) :: m

/-- A table without the entry of a key. -/
def mapErase {α : Type} (m : Map α) (k : Nat) : Map α := m.filter (fun e => e.1 != k)

/-! ### Sparse memories -/

/-- The cell at an address; an address that is not listed holds zero (R259). -/
def cellGet {w : Nat} : List (Nat × BitVec w) → Nat → BitVec w
  | [], _ => 0
  | (j, b) :: m, a => if j = a then b else cellGet m a

/-- Cells with one cell put in before the first one above it. -/
def cellIns {w : Nat} : List (Nat × BitVec w) → Nat → BitVec w → List (Nat × BitVec w)
  | [], a, v => [(a, v)]
  | e :: m, a, v => if a < e.1 then (a, v) :: e :: m else e :: cellIns m a v

/-- A memory with one cell written: a cell that becomes zero is no longer listed. -/
def cellSet {w : Nat} (m : List (Nat × BitVec w)) (a : Nat) (v : BitVec w) : List (Nat × BitVec w) :=
  let others := m.filter (fun e => e.1 != a)
  if v = 0 then others else cellIns others a v

/-- Whether cells lie above an address, rise, and are none of them zero. -/
def cellsAbove {w : Nat} : Nat → List (Nat × BitVec w) → Bool
  | _, [] => true
  | lo, (a, v) :: m => decide (lo ≤ a) && v != 0 && cellsAbove (a + 1) m

/-- The canonical form of a memory: addresses strictly rising, no cell equal to what an unlisted address reads as. -/
def Memory.wf (m : Memory) : Bool := cellsAbove 0 m

/-- Bytes of a memory from an address on. -/
def bytesAt (m : Memory) (a : Nat) : Nat → List Byte
  | 0 => []
  | n + 1 => cellGet m a :: bytesAt m (a + 1) n

/-- A memory with bytes written from an address on. -/
def putBytes (m : Memory) (a : Nat) : List Byte → Memory
  | [] => m
  | b :: bs => putBytes (cellSet m a b) (a + 1) bs

/-- Little-endian value of a byte string (R6). -/
def leValue : List Byte → Nat
  | [] => 0
  | b :: bs => b.toNat + 256 * leValue bs

/-- The n bytes of a value, little-endian (R6). -/
def toBytes : Nat → Nat → List Byte
  | 0, _ => []
  | n + 1, v => BitVec.ofNat 8 v :: toBytes n (v / 256)

/-- The value of n bytes at an address. -/
def readLe (m : Memory) (a n : Nat) : Nat := leValue (bytesAt m a n)

/-- A memory with the low n bytes of a value written at an address. -/
def writeLe (m : Memory) (a n v : Nat) : Memory := putBytes m a (toBytes n v)

/-- Field of a byte string: n bytes from offset o, little-endian. -/
def fieldAt (bs : List Byte) (o n : Nat) : Nat := leValue ((bs.drop o).take n)

/-- A sparse memory without the cells of a range. -/
def clearRange {w : Nat} (m : List (Nat × BitVec w)) (a n : Nat) : List (Nat × BitVec w) :=
  m.filter (fun c => decide (c.1 < a) || decide (a + n ≤ c.1))

/-- The cells of a range of a sparse memory. -/
def cellsIn {w : Nat} (m : List (Nat × BitVec w)) (a n : Nat) : List (Nat × BitVec w) :=
  m.filter (fun c => decide (a ≤ c.1) && decide (c.1 < a + n))

/-- A sparse memory with listed cells written. -/
def putCells {w : Nat} (m : List (Nat × BitVec w)) : List (Nat × BitVec w) → List (Nat × BitVec w)
  | [] => m
  | (a, v) :: cs => putCells (cellSet m a v) cs

/-- A rising list of numbers with one number in it. -/
def setIns : List Nat → Nat → List Nat
  | [], k => [k]
  | j :: l, k => if j < k then j :: setIns l k else if j = k then j :: l else k :: j :: l

/-- A rising list of numbers with one number out of it. -/
def setDel (l : List Nat) (k : Nat) : List Nat := l.filter (· != k)

/-- A list with the element of one position changed. -/
def modifyAt {α : Type} (f : α → α) : List α → Nat → List α
  | [], _ => []
  | a :: l, 0 => f a :: l
  | a :: l, i + 1 => a :: modifyAt f l i

/-- A list without the element of one position. -/
def dropAt {α : Type} : List α → Nat → List α
  | [], _ => []
  | _ :: l, 0 => l
  | a :: l, i + 1 => a :: dropAt l i

/-- Zero bytes. -/
def zeroBytes (n : Nat) : List Byte := List.replicate n 0

/-! ### Accessors -/

/-- A core: 256 × die + 16 × cluster + core, or 1,024 + port for a gateway core. -/
def State.core (s : State) (c : Nat) : Core := mapGet Core.reset s.cores c

/-- The state with a core replaced. -/
def State.setCore (s : State) (c : Nat) (x : Core) : State := { s with cores := mapSet s.cores c x }

/-- A slot of a core. -/
def State.slot (s : State) (c k : Nat) : Slot := mapGet Slot.reset (s.core c).slots k

/-- The state with a slot replaced. -/
def State.setSlot (s : State) (c k : Nat) (x : Slot) : State :=
  s.setCore c { s.core c with slots := mapSet (s.core c).slots k x }

/-- The slot whose turn it is. -/
def State.me (s : State) : Slot := s.slot s.cur.1 s.cur.2

/-- The state with the slot whose turn it is replaced. -/
def State.setMe (s : State) (x : Slot) : State := s.setSlot s.cur.1 s.cur.2 x

/-- The core whose turn it is. -/
def State.myCore (s : State) : Core := s.core s.cur.1

/-- A cluster: 16 × die + cluster. -/
def State.cluster (s : State) (p : Nat) : Cluster := mapGet Cluster.reset s.clusters p

/-- The state with a cluster replaced. -/
def State.setCluster (s : State) (p : Nat) (x : Cluster) : State := { s with clusters := mapSet s.clusters p x }

/-- A die. -/
def State.die (s : State) (d : Nat) : Die := mapGet Die.reset s.dies d

/-- The state with a die replaced. -/
def State.setDie (s : State) (d : Nat) (x : Die) : State := { s with dies := mapSet s.dies d x }

/-- A partition. -/
def State.part (s : State) (p : Nat) : Partition := mapGet Partition.reset s.parts p

/-- The state with a partition replaced. -/
def State.setPart (s : State) (p : Nat) (x : Partition) : State := { s with parts := mapSet s.parts p x }

/-- Steps added to what other agents have under way. -/
def State.post (s : State) (is : List Instr) : State := { s with agenda := s.agenda ++ is }

/-- A step put on the agenda unless it stands there already. -/
def postOnce (s : State) (i : Instr) : State := if s.agenda.contains i then s else s.post [i]

/-- The next free value and the state after taking it (DESIGN CHOICE, log 5 and log 6). -/
def State.choose (s : State) : Nat × State := (Config.freeNat s.free, { s with free := s.free + 1 })

/-- A fresh name. -/
def State.newName (s : State) : Nat × State := (s.fresh, { s with fresh := s.fresh + 1 })

/-! ### Places (R3, R212, R357) -/

/-- Whether a core is a gateway core. -/
def isGateway (c : Nat) : Bool := decide (1024 ≤ c)

/-- The cluster of a core; a gateway core stands for one of its own, 64 + port, which holds its translations. -/
def clusterOf (c : Nat) : Nat := if isGateway c then 64 + (c - 1024) else c / 16

/-- Die of a router (R212). -/
def routerDie (r : Nat) : Nat := 2 * (r / 16 / 8) + r % 16 / 8

/-- The routers on the edge of the mesh, which host memory controllers, fabric ports and gateway cores (R212). -/
def edgeRouters : List Nat :=
  (List.range 256).filter (fun r => r % 16 == 0 || r % 16 == 15 || r / 16 == 0 || r / 16 == 15)

/-- The router of a fabric port and its gateway core: an edge router, which one is open (R212, R346; DESIGN CHOICE, log 10). -/
def portRouterOf (p : Nat) : Nat := edgeRouters.getD (Config.portRouter p % 60) 0

/-- The die of a core; a gateway core's is its port's (R261). -/
def dieOf (c : Nat) : Nat := if isGateway c then routerDie (portRouterOf (c - 1024)) else c / 256

/-- Whether firmware has designated a core a service core. -/
def State.isSvc (s : State) (c : Nat) : Bool := s.svcCores.contains c

/-- The `sys.loc` image of a slot (R111). -/
def State.loc (s : State) (c k : Nat) : Nat :=
  if isGateway c then dieOf c * 2 ^ 14 + (c - 1024) * 64 + k * 4 + 2 + (s.isSvc c).toNat
  else c * 64 + k * 4 + (s.isSvc c).toNat

/-- The core of a core locator (R357): none outside its limits. -/
def locatorCore (v : W64) : Option Nat :=
  if v.toNat % 64 = 0 ∧ v.toNat < 2 ^ 16 then some (v.toNat / 64) else none

/-- Whether the save of a thread's gang has begun (R254). -/
def State.stopped (s : State) (t : Thread) : Bool := s.gangs.any (fun g => g.stopping && g.id == (t.launch, t.gang))

/-- The placed gang of a thread. -/
def State.gangOf (s : State) (t : Thread) : Option Gang := s.gangs.find? (fun g => g.id == (t.launch, t.gang))

/-- The gang number that firmware's own threads carry: no launch has a gang of it (R246 takes 32-bit counts). -/
def firmwareGang : Nat := 2 ^ 32

/-- Whether a thread is firmware's own. -/
def Thread.firmware (t : Thread) : Bool := t.gang == firmwareGang

/-- Row and column of a core in its cluster (R180). -/
def coreRow (c : Nat) : Nat := c % 16 / 4
def coreCol (c : Nat) : Nat := c % 4

/-- Whether a core lies in a gang's rectangle (R205). A gateway core carries a gang of its own. -/
def Gang.covers (g : Gang) (c : Nat) : Bool :=
  clusterOf c == g.cluster &&
    (isGateway c || (decide (g.row ≤ coreRow c) && decide (coreRow c < g.row + g.h) &&
      decide (g.col ≤ coreCol c) && decide (coreCol c < g.col + g.w)))

/-- The thread id of R201: serial, gang index and `sys.thr` index. -/
def threadId (t : Thread) : Nat := t.launch % 2 ^ 16 * 2 ^ 40 + t.gang % 2 ^ 32 * 2 ^ 8 + t.index % 2 ^ 8

/-- The id of the current thread. -/
def State.myTid (s : State) : W64 := BitVec.ofNat 64 (threadId s.me.thread)

/-- The slot of a core that holds a thread of a given id, or none. -/
def State.findThread (s : State) (c : Nat) (tid : Nat) : Option Nat :=
  ((s.core c).slots.find? (fun e => e.2.st != .empty && e.2.st != .sealed && threadId e.2.thread == tid)).map (·.1)

end Sys2Proof.Machine
end

