-- ==== Sys2Proof/Machine/Hash.lean ====
section
/-!
DEFINITION. SHAKE256 of FIPS 202 (R3): the Keccak permutation on 25 lanes of 64 bits, and the sponge of rate 136 bytes.
-/

namespace Sys2Proof.Machine

/-- The state of the permutation: lane x of plane y is element 5 y + x. -/
abbrev Lanes := List W64

/-- Lane i of a state. -/
def laneOf (a : Lanes) (i : Nat) : W64 := a.getD i 0

/-- Step θ: each lane takes the parities of two columns. -/
def keccakTheta (a : Lanes) : Lanes :=
  let c (x : Nat) : W64 :=
    laneOf a x ^^^ laneOf a (x + 5) ^^^ laneOf a (x + 10) ^^^ laneOf a (x + 15) ^^^ laneOf a (x + 20)
  let cs := (List.range 5).map c
  let d (x : Nat) : W64 := laneOf cs ((x + 4) % 5) ^^^ (laneOf cs ((x + 1) % 5)).rotateLeft 1
  let ds := (List.range 5).map d
  (List.range 25).map (fun i => laneOf a i ^^^ laneOf ds (i % 5))

/-- The lanes that step ρ turns, in the order in which it reaches them from lane (1, 0), each with its offset: the t-th by the
t-th triangular number. Lane (x, y) is followed by lane (y, 2 x + 3 y). -/
def rhoWalk : Nat → Nat → Nat → List (Nat × Nat)
  | 0, _, _ => []
  | n + 1, x, y =>
    let t := 24 - n
    (5 * y + x, t * (t + 1) / 2 % 64) :: rhoWalk n y ((2 * x + 3 * y) % 5)

/-- The offset of a lane in step ρ; lane (0, 0) is not turned. -/
def rhoOffset (i : Nat) : Nat := (((rhoWalk 24 1 0).find? (fun e => e.1 == i)).map (·.2)).getD 0

/-- The 25 offsets. -/
def keccakOffsets : List Nat := (List.range 25).map rhoOffset

/-- Steps ρ and π: lanes turned by their offsets and moved; lane (x, y) comes from (x + 3 y, x). -/
def keccakRhoPi (a : Lanes) : Lanes :=
  (List.range 25).map (fun i =>
    let x := i % 5
    let y := i / 5
    let j := 5 * x + (x + 3 * y) % 5
    (laneOf a j).rotateLeft (keccakOffsets.getD j 0))

/-- Step χ, the only one that is not linear. -/
def keccakChi (a : Lanes) : Lanes :=
  (List.range 25).map (fun i =>
    let row := i / 5 * 5
    laneOf a i ^^^ (~~~ laneOf a (row + (i + 1) % 5) &&& laneOf a (row + (i + 2) % 5)))

/-- The bits of step ι's shift register of 8 bits, with feedback x^8 + x^6 + x^5 + x^4 + 1, from a content on. -/
def iotaBits : Nat → Nat → List Bool
  | 0, _ => []
  | n + 1, r => r.testBit 0 :: iotaBits n (if r.testBit 7 then (2 * r) ^^^ 0x171 else 2 * r)

/-- A round constant: bit j of the register's next seven is bit 2^j − 1 of the lane. -/
def iotaLane (bits : List Bool) : W64 :=
  BitVec.ofNat 64 ((List.range 7).foldl (fun v j => if bits.getD j false then v + 2 ^ (2 ^ j - 1) else v) 0)

/-- The 24 round constants: seven bits of the register for each. -/
def keccakConstants : List W64 :=
  let bits := iotaBits 168 1
  (List.range 24).map (fun i => iotaLane (bits.drop (7 * i)))

/-- One round. -/
def keccakRound (a : Lanes) (k : W64) : Lanes :=
  match keccakChi (keccakRhoPi (keccakTheta a)) with
  | [] => []
  | l :: ls => (l ^^^ k) :: ls

/-- Keccak-p[1600, 24]. -/
def keccakF (a : Lanes) : Lanes := keccakConstants.foldl keccakRound a

/-- The rate of SHAKE256 in bytes. -/
def shakeRate : Nat := 136

/-- A message padded to whole blocks: the suffix and domain bits 1111, then pad10*1. -/
def shakePad (msg : List Byte) : List Byte :=
  let n := shakeRate - msg.length % shakeRate
  if n = 1 then msg ++ [0x9F] else msg ++ [0x1F] ++ zeroBytes (n - 2) ++ [0x80]

/-- A block taken into the state, and the permutation. -/
def shakeAbsorb (a : Lanes) (block : List Byte) : Lanes :=
  keccakF ((List.range 25).map (fun i => laneOf a i ^^^ BitVec.ofNat 64 (fieldAt block (8 * i) 8)))

/-- n blocks of a padded message absorbed. -/
def shakeAbsorbAll : Nat → Lanes → List Byte → Lanes
  | 0, a, _ => a
  | n + 1, a, bs => shakeAbsorbAll n (shakeAbsorb a (bs.take shakeRate)) (bs.drop shakeRate)

/-- Output bytes of n blocks. -/
def shakeSqueeze : Nat → Lanes → List Byte
  | 0, _ => []
  | n + 1, a => (a.flatMap (fun l => toBytes 8 l.toNat)).take shakeRate ++ shakeSqueeze n (keccakF a)

/-- SHAKE256 of a byte string, with an output length in bytes. -/
def shake256 (msg : List Byte) (n : Nat) : List Byte :=
  let p := shakePad msg
  (shakeSqueeze (n / shakeRate + 1) (shakeAbsorbAll (p.length / shakeRate) (List.replicate 25 0) p)).take n

end Sys2Proof.Machine
end

