-- ==== Sys2Proof/Machine/Flags.lean ====
section
/-!
DEFINITION. The status register (R76), the trap registers (R77), the trap causes (R91), and the flags a word sets.
-/

namespace Sys2Proof.Machine

/-! ### `sys.status` (R76) -/

/-- The bits of `sys.status` that are fields; the others are reserved and read as zero (R8). -/
def statusMask : W64 := 0xFF3D

/-- The bits of `sys.tvec` that are fields (R77). -/
def tvecMask : W64 := 0xFFFFFFFFFFFFFFF8

/-- The bits of a format register that are fields (R64). -/
def fmtMask : BitVec 32 := 0xFF03777F

/-- Slot flags. -/
def Slot.topx (x : Slot) : Bool := x.status.getLsbD 0
def Slot.trace (x : Slot) : Bool := x.status.getLsbD 2
def Slot.chk (x : Slot) : Bool := x.status.getLsbD 3
def Slot.snan (x : Slot) : Bool := x.status.getLsbD 4
def Slot.tin (x : Slot) : Bool := x.status.getLsbD 5

/-- The sticky bit of R63 set where a word read a signalling NaN. -/
def Slot.noteSnan (x : Slot) (b : Bool) : Slot := if b then { x with status := x.status ||| 0x10 } else x

/-- tin set on the delivery of a trap (R90). -/
def Slot.setTin (x : Slot) : Slot := { x with status := x.status ||| 0x20 }

/-- tin cleared by ERET (R113). -/
def Slot.clearTin (x : Slot) : Slot := { x with status := x.status &&& ~~~0x20#64 }

/-- send[k] set on exhaustion (R170). -/
def Slot.setSend (x : Slot) (k : Nat) : Slot := { x with status := x.status ||| (1#64 <<< (8 + k)) }

/-- send[k] cleared by SBIND (R169). -/
def Slot.clearSend (x : Slot) (k : Nat) : Slot := { x with status := x.status &&& ~~~(1#64 <<< (8 + k)) }

/-! ### Traps (R88–R91) -/

/-- What a trap delivers: cause code, kind of detail, detail (R77, R91). -/
structure Trap where
  code : Nat
  dk : Nat
  detail : Nat
  deriving DecidableEq, Repr

/-- Bits [47:0] of an address, as a detail (R91). -/
def detail48 (a : Nat) : Nat := a % 2 ^ 48

/-- The causes of R91. -/
def trapIllegal : Trap := { code := 1, dk := 0, detail := 0 }
def trapBadtgt (a : W64) : Trap := { code := 2, dk := 0, detail := detail48 a.toNat }
def trapStallShort (operand : Nat) : Trap := { code := 3, dk := 0, detail := operand }
def trapAlign (a : W64) : Trap := { code := 4, dk := 0, detail := detail48 a.toNat }
def trapAccess (a : W64) : Trap := { code := 5, dk := 0, detail := detail48 a.toNat }
def trapResource (r : Nat) : Trap := { code := 5, dk := 1, detail := r }
def trapHandleAccess (h : W64) : Trap := { code := 5, dk := 2, detail := detail48 h.toNat }
def trapTarget (a : W64) : Trap := { code := 5, dk := 3, detail := detail48 a.toNat }
def trapPriv (reg : Nat) : Trap := { code := 6, dk := 0, detail := reg }
def trapNoLink (operand : Nat) : Trap := { code := 7, dk := 0, detail := operand }
def trapFormat (r : Nat) : Trap := { code := 8, dk := 0, detail := r }
def trapSealed (operand : Nat) : Trap := { code := 9, dk := 0, detail := operand }
def trapHandleKind (h : W64) : Trap := { code := 10, dk := 0, detail := h.toNat % 2 ^ 32 }
def trapTrap (imm : Nat) : Trap := { code := 11, dk := 0, detail := imm }

/-- The image of `sys.tcause` (R77, R90). -/
def causeWord (t : Trap) (idx : Nat) : W64 :=
  BitVec.ofNat 64 (t.detail % 2 ^ 48 * 2 ^ 16 + t.dk % 4 * 2 ^ 14 + idx % 128 * 2 ^ 7 + t.code % 128)

/-- The idx field of `sys.tcause`. -/
def causeIdx (w : W64) : Nat := w.toNat / 2 ^ 7 % 128

/-- Why a memory access cannot be made: a trap, or a page fault with the flags of R201. -/
inductive Fail where
  | trap (t : Trap)
  | page (va : W64) (flags : Nat)
  deriving DecidableEq, Repr

end Sys2Proof.Machine
end

