-- ==== Sys2Proof/Machine/Num.lean ====
section
/-!
DEFINITION. Numbers (R58–R73): reading and writing of the IEEE and the narrow formats, exact arithmetic with one
rounding, conversions, and block scales. A finite number is an exact integer times a power of two; an operation whose
exact value is not such a number keeps at least 70 leading bits of it and sets its last bit, which rounds alike.
-/

namespace Sys2Proof.Machine

/-! ### Exact numbers -/

/-- A value: NaN, an infinity, or (−1)^neg × m × 2^e. -/
inductive Num where
  | nan
  | inf (neg : Bool)
  | fin (neg : Bool) (m : Nat) (e : Int)
  deriving DecidableEq, Repr

/-- A layout of R59 by its exponent bits, fraction bits and bias. -/
structure Fmt where
  eb : Nat
  mb : Nat
  bias : Nat
  deriving DecidableEq, Repr

/-- The IEEE layouts of R59. -/
def fmt64 : Fmt := { eb := 11, mb := 52, bias := 1023 }
def fmt32 : Fmt := { eb := 8, mb := 23, bias := 127 }
def fmt16 : Fmt := { eb := 5, mb := 10, bias := 15 }
def fmtBf : Fmt := { eb := 8, mb := 7, bias := 127 }

/-- Width of a layout in bits. -/
def fmtWidth (f : Fmt) : Nat := f.eb + f.mb + 1

/-- The code of +∞. -/
def infCode (f : Fmt) : Nat := (2 ^ f.eb - 1) <<< f.mb

/-- The canonical quiet NaN (R59). -/
def nanCode (f : Fmt) : Nat := infCode f + 2 ^ (f.mb - 1)

/-- A code with a sign bit. -/
def signed (f : Fmt) (neg : Bool) (code : Nat) : Nat := if neg then code + 2 ^ (f.eb + f.mb) else code

/-- The value of a code (R59, R60); under `ftz` a subnormal reads as a zero of its sign (R62). -/
def unpack (f : Fmt) (ftz : Bool) (bits : Nat) : Num :=
  let frac := bits % 2 ^ f.mb
  let ex := bits >>> f.mb % 2 ^ f.eb
  let neg := (bits >>> (f.mb + f.eb)) % 2 == 1
  if ex = 2 ^ f.eb - 1 then if frac = 0 then .inf neg else .nan
  else if ex = 0 then .fin neg (if ftz then 0 else frac) (1 - f.bias - f.mb)
  else .fin neg (frac + 2 ^ f.mb) ((ex : Int) - f.bias - f.mb)

/-- Whether a code is a signalling NaN (R63): a NaN whose leading fraction bit is 0. -/
def isSnan (f : Fmt) (bits : Nat) : Bool :=
  let frac := bits % 2 ^ f.mb
  (bits >>> f.mb) % 2 ^ f.eb == 2 ^ f.eb - 1 && frac != 0 && frac < 2 ^ (f.mb - 1)

/-- A magnitude m × 2^e as a multiple of 2^q, rounded in a mode (R61). -/
def roundAt (rm : Rm) (neg : Bool) (m : Nat) (e q : Int) : Nat :=
  if q ≤ e then m <<< (e - q).toNat
  else
    let s := (q - e).toNat
    let lo := m >>> s
    let rest := m % 2 ^ s
    let up : Bool := match rm with
      | .rne => decide (2 ^ s < 2 * rest) || (2 * rest == 2 ^ s && lo % 2 == 1)
      | .rtz => false
      | .rdn => neg && rest != 0
      | .rup => !neg && rest != 0
    if up then lo + 1 else lo

/-- Whether a finite overflow rounds to the infinity in a mode (R61). -/
def overflowsToInf (rm : Rm) (neg : Bool) : Bool :=
  match rm with
  | .rne => true
  | .rtz => false
  | .rdn => neg
  | .rup => !neg

/-- The magnitude code of a non-zero magnitude in a layout whose smallest normal exponent is `emin`, with unbounded
exponent range above (R61, R66). -/
def magCode (mb : Nat) (emin : Int) (rm : Rm) (neg : Bool) (m : Nat) (e : Int) : Nat :=
  let ex := max ((Nat.log2 m : Int) + e) emin
  (ex - emin).toNat <<< mb + roundAt rm neg m e (ex - mb)

/-- A value rounded once to an IEEE layout (R61, R63); under `ftz` a subnormal result becomes a zero (R62). -/
def pack (f : Fmt) (rm : Rm) (ftz : Bool) (x : Num) : Nat :=
  match x with
  | .nan => nanCode f
  | .inf neg => signed f neg (infCode f)
  | .fin neg m e =>
    if m = 0 then signed f neg 0
    else
      let c := magCode f.mb (1 - f.bias) rm neg m e
      if infCode f ≤ c then signed f neg (if overflowsToInf rm neg then infCode f else infCode f - 1)
      else if ftz && c < 2 ^ f.mb then signed f neg 0
      else signed f neg c

/-! ### Exact operations (R61, R63, R107) -/

/-- A value with its sign flipped. -/
def Num.neg : Num → Num
  | .nan => .nan
  | .inf s => .inf !s
  | .fin s m e => .fin (!s) m e

/-- The magnitude of a value. -/
def Num.abs : Num → Num
  | .nan => .nan
  | .inf _ => .inf false
  | .fin _ m e => .fin false m e

/-- A finite value as a multiple of 2^q, for q at or below its exponent. -/
def scaled (neg : Bool) (m : Nat) (e q : Int) : Int :=
  let v : Int := (m <<< (e - q).toNat : Nat)
  if neg then -v else v

/-- The exact sum; an exact zero of operands with opposite signs is +0, or −0 in .RDN (R61). -/
def Num.add (rm : Rm) (a b : Num) : Num :=
  match a, b with
  | .nan, _ => .nan
  | _, .nan => .nan
  | .inf s, .inf t => if s = t then .inf s else .nan
  | .inf s, .fin _ _ _ => .inf s
  | .fin _ _ _, .inf t => .inf t
  | .fin s m e, .fin t n g =>
    if m = 0 then if n = 0 then .fin (if s = t then s else rm = .rdn) 0 0 else .fin t n g
    else if n = 0 then .fin s m e
    else
      let q := min e g
      let v := scaled s m e q + scaled t n g q
      if v = 0 then .fin (rm = .rdn) 0 0 else .fin (v < 0) v.natAbs q

/-- The exact product. -/
def Num.mul (a b : Num) : Num :=
  match a, b with
  | .nan, _ => .nan
  | _, .nan => .nan
  | .inf s, .inf t => .inf (s != t)
  | .inf s, .fin t n _ => if n = 0 then .nan else .inf (s != t)
  | .fin s m _, .inf t => if m = 0 then .nan else .inf (s != t)
  | .fin s m e, .fin t n g => .fin (s != t) (m * n) (e + g)

/-- A quotient of naturals times 2^k with its last bit set when the division is not exact. -/
def oddDiv (a b : Nat) : Nat := 2 * (a / b) + (if a % b = 0 then 0 else 1)

/-- The quotient: non-zero ÷ 0 is an infinity, 0 ÷ 0 and ∞ ÷ ∞ are NaN (R107). -/
def Num.div (a b : Num) : Num :=
  match a, b with
  | .nan, _ => .nan
  | _, .nan => .nan
  | .inf _, .inf _ => .nan
  | .inf s, .fin t _ _ => .inf (s != t)
  | .fin s _ _, .inf t => .fin (s != t) 0 0
  | .fin s m e, .fin t n g =>
    if n = 0 then if m = 0 then .nan else .inf (s != t)
    else if m = 0 then .fin (s != t) 0 0
    else
      let k := 128 + Nat.log2 n
      .fin (s != t) (oddDiv (m <<< k) n) (e - g - k - 1)

/-- Integer square root by its bits, from bit `i − 1` down. -/
def isqrtBits (n : Nat) : Nat → Nat → Nat
  | 0, r => r
  | i + 1, r => let t := r + 2 ^ i; isqrtBits n i (if t * t ≤ n then t else r)

/-- The integer square root. -/
def isqrt (n : Nat) : Nat := isqrtBits n (Nat.log2 n / 2 + 1) 0

/-- A finite positive value with an even exponent. -/
def evenExp (m : Nat) (e : Int) : Nat × Int := if e % 2 = 0 then (m, e) else (2 * m, e - 1)

/-- The square root: √(−0) = −0, a negative operand gives NaN (R107). -/
def Num.sqrt : Num → Num
  | .nan => .nan
  | .inf s => if s then .nan else .inf false
  | .fin s m e =>
    if m = 0 then .fin s 0 0
    else if s then .nan
    else
      let (m, e) := evenExp m e
      let n := m <<< 160
      let r := isqrt n
      .fin false (2 * r + (if r * r = n then 0 else 1)) (e / 2 - 81)

/-- The reciprocal: ±0 gives ±∞, ±∞ gives ±0 (R107). -/
def Num.rcp (a : Num) : Num := Num.div (.fin false 1 0) a

/-- The reciprocal square root (R107). -/
def Num.rsq : Num → Num
  | .nan => .nan
  | .inf s => if s then .nan else .fin false 0 0
  | .fin s m e =>
    if m = 0 then .inf s
    else if s then .nan
    else
      let (m, e) := evenExp m e
      let r := isqrt (2 ^ 256 / m)
      .fin false (2 * r + (if r * r * m = 2 ^ 256 then 0 else 1)) (-(e / 2) - 129)

/-! ### Logarithm and exponential (R107; DESIGN CHOICE, log 8) -/

/-- n binary digits of log2 of a number between 2^256 and 2^257 over 2^256, each square rounded down or up. -/
def log2Digits (up : Bool) : Nat → Nat → Nat → Nat
  | 0, _, acc => acc
  | k + 1, x, acc =>
    let r (n d : Nat) : Nat := if up then (n + d - 1) / d else n / d
    let y := r (x * x) (2 ^ 256)
    if 2 ^ 257 ≤ y then log2Digits up k (r y 2) (2 * acc + 1) else log2Digits up k y (2 * acc)

/-- A value that is known exactly, as an interval. -/
def Num.both (x : Num) : Num × Num := (x, x)

/-- An integer over 2^n. -/
def fixed (v : Int) (n : Int) : Num := .fin (decide (v < 0)) v.natAbs (-n)

/-- The logarithm between two bounds, odd multiples of 2^(-129), so that no rounding boundary stands on them (R107): ±0 gives −∞, a
negative operand NaN, log2 1 = +0. -/
def Num.log2 : Num → Num × Num
  | .nan => Num.both .nan
  | .inf s => Num.both (if s then .nan else .inf false)
  | .fin s m e =>
    if m = 0 then Num.both (.inf true)
    else if s then Num.both .nan
    else
      let l := Nat.log2 m
      let ex : Int := l + e
      if m = 2 ^ l then Num.both (.fin (ex < 0) ex.natAbs 0)
      else
        let f := m <<< 256 >>> l
        let v (up : Bool) : Int := 2 * (ex * 2 ^ 128 + log2Digits up 128 f 0) + 1
        (fixed (v false) 129, fixed (v true) 129)

/-- ln 2 × 2^256, rounded down. -/
def ln2Fixed : Nat := 0xB17217F7D1CF79ABC9E3B39803F2F6AF40F343267298B62D8A0D175B8BAAFA2B

/-- Taylor terms of e^y at scale 2^256, rounded down: the sum from term k on, given term k. -/
def expTaylor (y : Nat) : Nat → Nat → Nat → Nat
  | 0, _, _ => 0
  | n + 1, k, t => t + expTaylor y n (k + 1) (t * y / 2 ^ 256 / (k + 1))

/-- The exponential between two such bounds (R107): −∞ gives +0, +∞ gives +∞. -/
def Num.exp2 : Num → Num × Num
  | .nan => Num.both .nan
  | .inf s => Num.both (if s then .fin false 0 0 else .inf false)
  | .fin s m e =>
    if m = 0 then Num.both (.fin false 1 0)
    else
      let top : Int := (Nat.log2 m : Int) + e
      if 20 ≤ top then Num.both (.fin false 1 (if s then -100000 else 100000))
      else if top < -140 then Num.both (.fin false (if s then 2 ^ 129 - 1 else 2 ^ 129 + 1) (-129))
      else
        -- the operand over 2^256, exactly
        let v : Int := scaled s m e (-256)
        let n := v / 2 ^ 256
        let phi := (v % 2 ^ 256).toNat
        if phi = 0 then Num.both (.fin false 1 n)
        else
          let sum := expTaylor (phi * ln2Fixed / 2 ^ 256) 80 0 (2 ^ 256)
          (.fin false (2 * (sum / 2 ^ 100) + 1) (n - 157), .fin false (2 * ((sum + 2 ^ 10) / 2 ^ 100) + 1) (n - 157))

/-! ### Order (R63, R108, R125) -/

/-- a < b for values that are no NaN, with −0 = +0. -/
def Num.lt (a b : Num) : Bool :=
  match a, b with
  | .nan, _ => false
  | _, .nan => false
  | .inf s, .inf t => s && !t
  | .inf s, .fin _ _ _ => s
  | .fin _ _ _, .inf t => !t
  | .fin s m e, .fin t n g => let q := min e g; scaled s m e q < scaled t n g q

/-- a = b for values that are no NaN, with −0 = +0. -/
def Num.eq (a b : Num) : Bool := a != .nan && b != .nan && !a.lt b && !b.lt a

/-- Sign bit. -/
def Num.isNeg : Num → Bool
  | .nan => false
  | .inf s => s
  | .fin s _ _ => s

/-- a < b with −0 below +0, as FMIN and FMAX and the rankings order (R63, R125). -/
def Num.ltz (a b : Num) : Bool := a.lt b || (a.eq b && a.isNeg && !b.isNeg)

/-- FMIN (R63). -/
def Num.min (a b : Num) : Num := if a = .nan then b else if b = .nan then a else if b.ltz a then b else a

/-- FMAX (R63). -/
def Num.max (a b : Num) : Num := if a = .nan then b else if b = .nan then a else if a.ltz b then b else a

/-! ### Scalar and lane operations on codes -/

/-- The layout of an FP type (R43). -/
def fpFmt : FpTy → Fmt
  | .f32 => fmt32
  | .f64 => fmt64
  | .f16 => fmt16
  | .bf16 => fmtBf

/-- The layout of an element kind that is read as a number (R116). -/
def numFmt : NumTy → Fmt
  | .d => fmt64
  | .w => fmt32
  | .h => fmtBf

/-- The layout of a ranking kind. -/
def rankFmt : RankTy → Fmt
  | .w => fmt32
  | .h => fmtBf

/-- The two-source operations of R107. -/
inductive FpOp2 where
  | add | sub | mul | div | min | max
  deriving DecidableEq, Repr

/-- The one-source operations of R107. -/
inductive FpOp1 where
  | sqrt | rcp | rsq | log2 | exp2
  deriving DecidableEq, Repr

/-- The three-source operations of R107. -/
inductive FpOp3 where
  | fma | fms | fnma
  deriving DecidableEq, Repr

/-- A two-source operation on codes. -/
def fp2 (op : FpOp2) (f : Fmt) (rm : Rm) (ftz : Bool) (a b : Nat) : Nat :=
  let x := unpack f ftz a
  let y := unpack f ftz b
  pack f rm ftz (match op with
    | .add => x.add rm y
    | .sub => x.add rm y.neg
    | .mul => x.mul y
    | .div => x.div y
    | .min => x.min y
    | .max => x.max y)

/-- The code to which a value between two bounds rounds; the free value k of a source only where the bounds round to different codes
(DESIGN CHOICE, log 8). -/
def packBetween (f : Fmt) (rm : Rm) (ftz : Bool) (k a : Nat) (x : Num × Num) : Nat :=
  let c := pack f rm ftz x.1
  if c = pack f rm ftz x.2 then c else Config.freeReal k (BitVec.ofNat 64 a) % 2 ^ fmtWidth f

/-- A one-source operation on a code. -/
def fp1 (op : FpOp1) (f : Fmt) (rm : Rm) (ftz : Bool) (a : Nat) : Nat :=
  let x := unpack f ftz a
  match op with
  | .sqrt => pack f rm ftz x.sqrt
  | .rcp => pack f rm ftz x.rcp
  | .rsq => pack f rm ftz x.rsq
  | .log2 => packBetween f rm ftz 0 a x.log2
  | .exp2 => packBetween f rm ftz 1 a x.exp2

/-- A three-source operation on codes, rounded once (R61). -/
def fp3 (op : FpOp3) (f : Fmt) (rm : Rm) (ftz : Bool) (a b c : Nat) : Nat :=
  let p := (unpack f ftz a).mul (unpack f ftz b)
  let z := unpack f ftz c
  pack f rm ftz (match op with
    | .fma => p.add rm z
    | .fms => p.add rm z.neg
    | .fnma => p.neg.add rm z)

/-- FP relations (R108). -/
inductive FpRel where
  | eq | lt | le | un
  deriving DecidableEq, Repr

/-- A relation between two codes. -/
def fpRel (r : FpRel) (f : Fmt) (ftz : Bool) (a b : Nat) : Bool :=
  let x := unpack f ftz a
  let y := unpack f ftz b
  match r with
  | .eq => x.eq y
  | .lt => x.lt y
  | .le => x.lt y || x.eq y
  | .un => x = .nan || y = .nan

/-- The FCLASS mask (R108). -/
def fpClass (f : Fmt) (a : Nat) : Nat :=
  if isSnan f a then 0x100
  else match unpack f false a with
    | .nan => 0x200
    | .inf s => if s then 0x01 else 0x80
    | .fin s m _ =>
      if m = 0 then if s then 0x08 else 0x10
      else if m < 2 ^ f.mb then if s then 0x04 else 0x20
      else if s then 0x02 else 0x40

/-! ### Narrow formats (R64–R68) -/

/-- A format image read by its fields (R64). -/
structure Narrow where
  width : Nat
  mb : Nat
  eb : Nat
  sign : Bool
  sub : Bool
  sat : Bool
  scale : Nat
  bias : Int
  deriving DecidableEq, Repr

/-- The fields of a format image (R64). -/
def narrowOf (i : BitVec 32) : Narrow :=
  { width := (i.extractLsb' 0 4).toNat, mb := (i.extractLsb' 4 3).toNat, eb := (i.extractLsb' 8 3).toNat,
    sign := i.getLsbD 12, sub := i.getLsbD 13, sat := i.getLsbD 14, scale := (i.extractLsb' 16 2).toNat,
    bias := (i.extractLsb' 24 8).toInt }

/-- Whether a format image is valid (R64). -/
def imageValid (i : BitVec 32) : Bool :=
  let n := narrowOf i
  n.width == n.sign.toNat + n.eb + n.mb && 2 ≤ n.width && n.width ≤ 8 && n.scale != 3

/-- Whether a format has infinities (R65). -/
def Narrow.hasInf (n : Narrow) (topx : Bool) : Bool := 4 ≤ n.eb && !topx

/-- Whether a format has a NaN code (R65). -/
def Narrow.hasNan (n : Narrow) (topx : Bool) : Bool := 4 ≤ n.eb && (topx || n.mb != 0)

/-- The magnitude code of the largest finite value of a format with exponent bits (R66). -/
def Narrow.maxCode (n : Narrow) (topx : Bool) : Nat :=
  if n.eb < 4 then 2 ^ (n.eb + n.mb) - 1
  else if topx then 2 ^ (n.eb + n.mb) - 2
  else (2 ^ n.eb - 1) <<< n.mb - 1

/-- The NaN written as output (R65). -/
def Narrow.nanCode (n : Narrow) (topx : Bool) : Nat :=
  if topx then 2 ^ (n.eb + n.mb) - 1 else (2 ^ n.eb - 1) <<< n.mb + 2 ^ (n.mb - 1)

/-- The value of a code (R65). -/
def Narrow.read (n : Narrow) (topx : Bool) (code : Nat) : Num :=
  let m := code % 2 ^ n.mb
  let e := (code >>> n.mb) % 2 ^ n.eb
  let s := n.sign && (code >>> (n.mb + n.eb)) % 2 == 1
  if n.eb = 0 then .fin s (if s then 2 ^ n.mb - m else m) (-n.bias)
  else if 4 ≤ n.eb && !topx && e == 2 ^ n.eb - 1 then if m = 0 then .inf s else .nan
  else if 4 ≤ n.eb && topx && e == 2 ^ n.eb - 1 && m == 2 ^ n.mb - 1 then .nan
  else if e = 0 then .fin s (if n.sub then m else 0) (1 - n.bias - n.mb)
  else .fin s (m + 2 ^ n.mb) ((e : Int) - n.bias - n.mb)

/-- A magnitude code with its sign. -/
def Narrow.withSign (n : Narrow) (neg : Bool) (code : Nat) : Nat :=
  if neg && n.sign then code + 2 ^ (n.eb + n.mb) else code

/-- The code that stands for ±∞ and for magnitudes beyond the largest finite value (R66). -/
def Narrow.over (n : Narrow) (topx neg : Bool) : Nat :=
  if n.sat then n.withSign neg (n.maxCode topx)
  else if n.hasInf topx then n.withSign neg ((2 ^ n.eb - 1) <<< n.mb)
  else if n.hasNan topx then n.nanCode topx
  else n.withSign neg (n.maxCode topx)

/-- An integer as a two's-complement code of a width, saturated to a range. -/
def clampCode (lo hi v : Int) (w : Nat) : Nat :=
  ((if v < lo then lo else if hi < v then hi else v) % 2 ^ w).toNat

/-- Smallest and largest integer of a format without exponent bits (R65). -/
def Narrow.intLo (n : Narrow) : Int := if n.sign then -(2 ^ n.mb : Nat) else 0
def Narrow.intHi (n : Narrow) : Int := (2 ^ n.mb : Nat) - 1

/-- A value converted into a narrow format (R66). -/
def Narrow.write (n : Narrow) (topx : Bool) (rm : Rm) (x : Num) : Nat :=
  match x with
  | .nan => if n.hasNan topx then n.nanCode topx else 0
  | .inf neg =>
    if neg && !n.sign then 0
    else if n.eb = 0 then clampCode n.intLo n.intHi (if neg then n.intLo else n.intHi) n.width
    else n.over topx neg
  | .fin neg m e =>
    if neg && !n.sign then 0
    else if n.eb = 0 then
      let v : Int := roundAt rm neg m e (-n.bias)
      clampCode n.intLo n.intHi (if neg then -v else v) n.width
    else if m = 0 then n.withSign neg 0
    else
      let c := magCode n.mb (1 - n.bias) rm neg m e
      if c < 2 ^ n.mb && !n.sub then n.withSign neg 0
      else if n.maxCode topx < c then n.over topx neg
      else n.withSign neg c

/-! ### Block scales (R69, R70) -/

/-- The E4M3 layout of block scales, read with TOPX = 1; its sign bit is ignored (R69). -/
def e4m3 : Narrow := { width := 7, mb := 3, eb := 4, sign := false, sub := true, sat := true, scale := 0, bias := 7 }

/-- The value of a scale byte of a kind: 1 for no scale. -/
def scaleRead (kind byte : Nat) : Num :=
  match kind with
  | 1 => if byte = 0xFF then .nan else .fin false 1 ((byte : Int) - 127)
  | 2 => e4m3.read true (byte % 128)
  | _ => .fin false 1 0

/-- Elements that share one scale byte; 0 where a kind has none. -/
def scaleBlock (kind : Nat) : Nat :=
  match kind with
  | 1 => 32
  | 2 => 16
  | _ => 0

/-- The element format's largest finite value, the positive one (R70; DEDUCED, log 12). -/
def Narrow.maxValue (n : Narrow) (topx : Bool) : Num :=
  if n.eb = 0 then .fin false n.intHi.toNat (-n.bias) else n.read topx (n.maxCode topx)

/-- Exponent of a non-zero finite value. -/
def Num.expo : Num → Int
  | .fin _ m e => (Nat.log2 m : Int) + e
  | _ => 0

/-- The larger magnitude of two, where a NaN is larger than all. -/
def Num.maxMag (a b : Num) : Num :=
  match a, b with
  | .nan, _ => .nan
  | _, .nan => .nan
  | a, b => if a.abs.lt b.abs then b.abs else a.abs

/-- The scale byte chosen for a block whose largest source magnitude is `a` (R70). -/
def scaleChoose (n : Narrow) (topx : Bool) (a : Num) : Nat :=
  match n.scale with
  | 1 => match a with
    | .nan => 0xFF
    | .inf _ => 0xFF
    | .fin _ m _ =>
      if m = 0 then 127
      else
        let x := a.expo - (n.maxValue topx).expo + 127
        if x < 0 then 0 else if 254 < x then 254 else x.toNat
  | 2 => match a with
    | .nan => 0x7F
    | .inf _ => 0x7F
    | .fin _ m _ => if m = 0 then 0x38 else e4m3.write true .rup (a.abs.div (n.maxValue topx))
  | _ => 0

/-- The value of an element under its scale (R69). -/
def scaledRead (n : Narrow) (topx : Bool) (scale code : Nat) : Num := (scaleRead n.scale scale).mul (n.read topx code)

/-- An element of a block written under its scale (R70): a NaN scale gives NaN, or the code 0. -/
def scaledWrite (n : Narrow) (topx : Bool) (rm : Rm) (scale : Nat) (x : Num) : Nat :=
  match scaleRead n.scale scale with
  | .nan => n.write topx rm .nan
  | s => n.write topx rm (x.div s)

/-! ### Conversions (R67, R109) -/

/-- An integer kind by its width and signedness; none for a kind that is no integer. -/
def kindInt : Kind → Option (Nat × Bool)
  | .i8 => some (8, true)
  | .i16 => some (16, true)
  | .i32 => some (32, true)
  | .i64 => some (64, true)
  | .u8 => some (8, false)
  | .u16 => some (16, false)
  | .u32 => some (32, false)
  | .u64 => some (64, false)
  | _ => none

/-- The layout of an IEEE kind. -/
def kindFmt : Kind → Option Fmt
  | .f32 => some fmt32
  | .f64 => some fmt64
  | .f16 => some fmt16
  | .bf16 => some fmtBf
  | _ => none

/-- Range of an integer kind. -/
def intLo (w : Nat) (sg : Bool) : Int := if sg then -(2 ^ (w - 1) : Nat) else 0
def intHi (w : Nat) (sg : Bool) : Int := if sg then (2 ^ (w - 1) : Nat) - 1 else (2 ^ w : Nat) - 1

/-- The integer held by the low w bits of a code. -/
def intRead (w : Nat) (sg : Bool) (bits : Nat) : Int :=
  let v := bits % 2 ^ w
  if sg && 2 ^ (w - 1) ≤ v then (v : Int) - (2 ^ w : Nat) else v

/-- A value converted into an integer kind: the integer, saturated (R67). -/
def numToInt (w : Nat) (sg : Bool) (rm : Rm) (x : Num) : Int :=
  match x with
  | .nan => 0
  | .inf neg => if neg then intLo w sg else intHi w sg
  | .fin neg m e =>
    -- beyond 2^100 every magnitude saturates alike
    let r : Nat := if 100 < (Nat.log2 m : Int) + e ∧ m ≠ 0 then 2 ^ 100 else roundAt rm neg m e 0
    let v : Int := if neg then -(r : Int) else r
    if v < intLo w sg then intLo w sg else if intHi w sg < v then intHi w sg else v

/-- A conversion between integer kinds: the value read in the destination kind (R67). -/
def intToInt (sw : Nat) (ss : Bool) (dw : Nat) (ds : Bool) (v : Int) : Int :=
  if sw = dw ∧ ss = ds then v
  else if dw ≤ sw then
    if v < intLo dw ds then intLo dw ds else if intHi dw ds < v then intHi dw ds else v
  else intRead dw ds ((v % (2 ^ dw : Nat)).toNat)

/-- An integer as an exact number. -/
def Num.ofInt (v : Int) : Num := .fin (v < 0) v.natAbs 0

/-- A source element as an exact number, or the integer it is. -/
inductive ConvSrc where
  | num (x : Num)
  | int (w : Nat) (sg : Bool) (v : Int)
  deriving DecidableEq, Repr

/-- A source element read in its kind; `x` is the narrow value, scale included, where the kind is narrow. -/
def convRead (k : Kind) (ftz : Bool) (narrow : Num) (bits : Nat) : ConvSrc :=
  match kindInt k, kindFmt k with
  | some (w, sg), _ => .int w sg (intRead w sg bits)
  | none, some f => .num (unpack f ftz bits)
  | none, none => .num narrow

/-- A source element as a number. -/
def ConvSrc.toNum : ConvSrc → Num
  | .num x => x
  | .int _ _ v => .ofInt v

/-- A source element converted into an IEEE or integer kind: 64 bits, extended as R109 places a result. -/
def convWrite (k : Kind) (rm : Rm) (ftz : Bool) (x : ConvSrc) : Nat :=
  match kindInt k, kindFmt k with
  | some (w, sg), _ =>
    let v : Int := match x with
      | .num y => numToInt w sg rm y
      | .int sw ss y => intToInt sw ss w sg y
    (v % (2 ^ 64 : Nat)).toNat
  | none, some f => pack f rm ftz x.toNum
  | none, none => 0

/-- Whether a source element is a signalling NaN, which sets `snan` whatever it is converted to: R63 says so of any source, R67 that
no integer conversion sets a status bit, which is read as one from an integer kind (DESIGN CHOICE, log 38). -/
def convSnan (k : Kind) (bits : Nat) : Bool :=
  match kindFmt k with
  | some f => isSnan f (bits % 2 ^ fmtWidth f)
  | none => false

end Sys2Proof.Machine
end

