-- ==== Sys2Proof/Machine/Access.lean ====
section
/-!
DEFINITION. Accesses to memory: the address map (R292, R337), translation (R187–R190), the spaces (R160, R186, R231), the
L1 data caches and the coherence classes (R162, R176, R236), decode windows (R232–R234), and the write at a home that
every party's writes go through.
-/

namespace Sys2Proof.Machine

/-! ### The physical address map -/

/-- What a physical address names (R292). -/
inductive Region where
  | hbm (stack : Nat)
  | aliased
  | host
  | none
  deriving DecidableEq, Repr

/-- Decoding of a physical address (R292); a host address with pa[48] = 1 names nothing (R337). -/
def regionOf (pa : Nat) : Region :=
  match pa / 2 ^ 50 % 4 with
  | 0 => if pa / 2 ^ 36 < 12 then .hbm (pa / 2 ^ 36) else .none
  | 1 => .aliased
  | 2 => if pa / 2 ^ 48 % 2 = 0 then .host else .none
  | _ => .none

/-- Whether a stack belongs to a partition (R338). -/
def State.ownsStack (s : State) (part k : Nat) : Bool := (s.part part).stackSet.testBit k

/-- Whether a cluster belongs to a partition (R338). -/
def State.ownsCluster (s : State) (part p : Nat) : Bool := (s.part part).clusters.testBit p

/-- Source formats of decode windows, with the TOPX they are read under (R71, R232). -/
def windowFormat (w : Window) : Narrow × Bool :=
  let base : Narrow :=
    { width := 8, mb := 3, eb := 4, sign := true, sub := true, sat := false, scale := 1, bias := 7 }
  match w.ctl % 8 with
  | 0 => ({ base with width := 4, mb := 1, eb := 2, bias := 1 }, false)
  | 1 => (base, true)
  | 2 => ({ base with mb := 2, eb := 5, bias := 15 }, false)
  | 3 => ({ base with mb := 7, eb := 0, sub := false, bias := 6 }, false)
  | _ => (narrowOf w.image, w.ctl / 32 % 2 == 1)

/-- Target layout of a window (R232). -/
def windowTarget (w : Window) : Fmt :=
  match w.ctl / 8 % 4 with
  | 0 => fmtBf
  | 1 => fmt16
  | _ => fmt32

/-- Length of a window's alias range (R233). -/
def windowSpan (w : Window) : Nat := w.len * 8 / (windowFormat w).1.width * (fmtWidth (windowTarget w) / 8)

/-- Whether a window is enabled and its alias range covers an address. -/
def windowCovers (w : Window) (pa : Nat) : Bool :=
  w.len != 0 && decide (w.alias_ ≤ pa) && decide (pa < w.alias_ + windowSpan w)

/-- The enabled window whose alias range covers an address. -/
def State.windowAt (s : State) (pa : Nat) : Option Window := (s.windows.find? (fun e => windowCovers e.2 pa)).map (·.2)

/-- Whether the memory of a partition holds an address as a page's (R188 check 2); the frames of the bad-page list are in no
partition's (R306). -/
def State.inPartition (s : State) (part pa : Nat) : Bool :=
  match regionOf pa with
  | .hbm k => s.ownsStack part k && !s.boot.leftOut.contains (pa / 2 ^ 16)
  | .aliased => match s.windowAt pa with
    | some w => s.ownsStack part (w.src / 2 ^ 36)
    | none => false
  | .host => true
  | .none => false

/-! ### Table entries (R188) -/

/-- Fields of a table entry. -/
def leafRd (e : W64) : Bool := e.getLsbD 2
def leafW (e : W64) : Bool := e.getLsbD 3
def leafX (e : W64) : Bool := e.getLsbD 4
def leafClass (e : W64) : Nat := e.toNat / 2 ^ 5 % 4
def leafMs (e : W64) : Bool := e.getLsbD 7
def leafHl (e : W64) : Bool := e.getLsbD 9
def leafFrame (e : W64) : Nat := e.toNat / 2 ^ 16 % 2 ^ 36 * 2 ^ 16
def leafOwner (e : W64) : Nat := e.toNat / 2 ^ 54

/-- The physical address that a leaf gives a virtual one. -/
def leafAddr (large : Bool) (e : W64) (va : Nat) : Nat :=
  if large then leafFrame e + va % 2 ^ 29 else leafFrame e + va % 2 ^ 16

/-- A walk's outcome: the leaf found, an ACCESS with the level of the leaf found (0: none), or a failure at a level
(R188). -/
inductive Walk where
  | leaf (large : Bool) (e : W64)
  | access (level : Nat)
  | fail (level : Nat)
  deriving DecidableEq, Repr

/-- The checks of one entry read at a level, in the order of R188, before those of its page. -/
def entryFails (level : Nat) (e : W64) : Bool :=
  let isLeaf := e.getLsbD 1
  !e.getLsbD 0 ||
    (if isLeaf then
      level == 1 || e &&& 0x003000000000FC00 != 0 || leafClass e == 3 ||
        (level == 2 && leafFrame e % 2 ^ 29 != 0)
    else level == 3 || e &&& 0xFFF000000000FFFC != 0)

/-- The walk from a level on, with the physical base of its table (R187, R188). -/
def walkFrom (s : State) (part : Nat) (va : Nat) : Nat → Nat → Nat → Walk
  | 0, level, _ => .fail level
  | fuel + 1, level, base =>
    let e := BitVec.ofNat 64 (readLe s.mem (base + 8 * (va / 2 ^ (16 + 13 * (3 - level)) % 2 ^ 13)) 8)
    if entryFails level e then .fail level
    else if e.getLsbD 1 then
      if s.inPartition part (leafAddr (level == 2) e va) then .leaf (level == 2) e else .access level
    else match regionOf (leafFrame e) with
      | .hbm _ => if s.inPartition part (leafFrame e) then walkFrom s part va fuel (level + 1) (leafFrame e) else .access 0
      | _ => .access 0

/-- The walk of an address under an address space (R187); an address space without a record fails at level 1. -/
def walk (s : State) (part asid va : Nat) : Walk :=
  match mapFind s.asrec (part * 4096 + asid) with
  | none => .fail 1
  | some root => walkFrom s part va 3 1 root

/-- A cached translation of an address (R189). -/
def tlbFind (s : State) (c part asid va : Nat) : Option TlbEntry :=
  (s.cluster (clusterOf c)).tlb.find? (fun e => e.part == part && e.asid == asid &&
    (if e.large then e.vpage == va % 2 ^ 55 / 2 ^ 29 else e.vpage == va % 2 ^ 55 / 2 ^ 16))

/-- The translation of an address: cached, or walked (R189). A cached entry is used as it was read until it leaves the TLB,
though the manual lets each miss use a changed entry in either form (R190; DESIGN CHOICE, log 38). -/
def lookup (s : State) (c part asid va : Nat) : Walk :=
  match tlbFind s c part asid va with
  | some e => if s.inPartition part (leafAddr e.large e.leaf va) then .leaf e.large e.leaf
    else .access (if e.large then 2 else 3)
  | none => walk s part asid (va % 2 ^ 55)

/-- The state with a successful walk cached: at most 4,096 translations, the oldest leaving first (R189; the order is open:
DESIGN CHOICE, log 38). -/
def tlbFill (s : State) (c part asid va : Nat) : State :=
  match tlbFind s c part asid va with
  | some _ => s
  | none =>
    match walk s part asid (va % 2 ^ 55) with
    | .leaf large e =>
      let p := clusterOf c
      let x := s.cluster p
      let t : TlbEntry :=
        { part := part, asid := asid, large := large,
          vpage := if large then va % 2 ^ 55 / 2 ^ 29 else va % 2 ^ 55 / 2 ^ 16, leaf := e }
      s.setCluster p { x with tlb := (t :: x.tlb).take 4096 }
    | _ => s

/-! ### Locations -/

/-- What an access asks of a page: permission bits, whether a lack of them traps, and which pages it takes. -/
structure Need where
  rd : Bool
  w : Bool
  x : Bool
  /-- a lack of permission raises ACCESS instead of the page-fault path -/
  permTrap : Bool
  /-- an alias page is accepted (R233) -/
  aliased : Bool
  /-- a host window is accepted (R337) -/
  host : Bool
  /-- the page must be HC (R242) -/
  hc : Bool
  deriving DecidableEq, Repr

/-- The needs of the kinds of access (R165, R175, R238, R242–R244, R301). -/
def needLoad : Need :=
  { rd := true, w := false, x := false, permTrap := false, aliased := true, host := true, hc := false }
def needStore : Need := { needLoad with rd := false, w := true, aliased := false }
def needFetch : Need := { needLoad with rd := false, x := true }
def needAtomic : Need := { needStore with permTrap := true, host := false }
def needLdc : Need := { needLoad with w := true, aliased := false, host := false }
def needStf : Need := { needStore with host := false }
def needLrw : Need := { needLdc with permTrap := true }
def needArrive : Need := { needStore with host := false, hc := true }
def needWaitBar : Need := { needLoad with aliased := false, host := false, hc := true }
def needMonitor : Need := { needLoad with aliased := false, host := false }
/-- The barrier operand of an engine word (R194): a page without w raises ACCESS. -/
def needEngineBar : Need := { needArrive with permTrap := true }

/-- A resolved location. -/
inductive Loc where
  | spd (core off : Nat)
  | chip (die off : Nat)
  /-- a line of the issuing core's L1 under the issuer's address space -/
  | hit (vline off : Nat)
  | mem (pa : Nat) (leaf : W64)
  deriving DecidableEq, Repr

/-- Size of a die's chip scratchpad: the partition that owns all 16 clusters of the die sets it (R231, R338). -/
def State.chipSize (s : State) (d : Nat) : Nat :=
  match s.parts.find? (fun e => e.2.clusters / 2 ^ (16 * d) % 2 ^ 16 == 2 ^ 16 - 1) with
  | some e => e.2.chip * 2 ^ 23
  | none => 0

/-- Whether a range lies inside a gang's scratchpad reservation on a core (R160). -/
def Gang.holdsSpd (g : Gang) (c a n : Nat) : Bool :=
  g.covers c && decide (g.spdBase ≤ a) && decide (a + n ≤ g.spdBase + g.spdSize)

/-- Whether a range lies inside a gang's cluster-memory reservation on a core (R160). -/
def Gang.holdsCls (g : Gang) (c a n : Nat) : Bool :=
  clusterOf c == g.cluster && decide (g.clsBase ≤ a) && decide (a + n ≤ g.clsBase + g.clsSize)

/-- Whether an L1 line is of no use: it is clean and carries an uncorrectable error, so that it is dropped and fetched
again (R163). -/
def L1Line.lost (l : L1Line) : Bool := l.flawed && l.dirty == 0

/-- A line of a core's L1 under an address space (R162), but for one that R163 drops. -/
def l1Find (s : State) (c part asid vline : Nat) : Option L1Line :=
  (s.core c).l1.find? (fun l => l.part == part && l.asid == asid && l.vline == vline && !l.lost)

/-- Whether one of n bytes from an address of an array of a core carries an uncorrectable error (R163). -/
def Core.flawIn (x : Core) (k : CoreArray) (a n : Nat) : Bool :=
  x.flaws.any (fun f => f.1 == k && decide (f.2 * 8 < a + n) && decide (a < f.2 * 8 + 8))

/-- The errors of a core without those of the words that n bytes written from an address cover: a word written whole has a
new code. -/
def Core.mended (x : Core) (k : CoreArray) (a n : Nat) : List (CoreArray × Nat) :=
  x.flaws.filter (fun f => !(f.1 == k && decide (a ≤ f.2 * 8) && decide (f.2 * 8 + 8 ≤ a + n)))

/-- The errors of a core in n bytes from an address of an array. -/
def Core.flawsIn (x : Core) (k : CoreArray) (a n : Nat) : List (CoreArray × Nat) :=
  x.flaws.filter (fun f => f.1 == k && decide (a ≤ f.2 * 8) && decide (f.2 * 8 < a + n))

/-- An operand slot that notes what n bytes of the scratchpad held before a store (R139). -/
def OpSlot.note (o : OpSlot) (spd : Memory) (a n : Nat) : OpSlot :=
  if o.owner.isSome then { o with seen := (a, bytesAt spd a n) :: o.seen } else o

/-- n bytes written to a core's scratchpad: the operand cache may still hold what they replace (R139). -/
def Core.putSpd (x : Core) (a n v : Nat) : Core :=
  { x with
    spd := writeLe x.spd a n v, flaws := x.mended .spd a n
    opslots := x.opslots.map (fun e : Nat × OpSlot => (e.1, e.2.note x.spd a n)) }

/-- The form check of a .GLB address (R160): bits [63:55] equal bit [54]. -/
def canonical (va : W64) : Bool := va.toNat < 2 ^ 54 || 2 ^ 64 - 2 ^ 54 ≤ va.toNat

/-- A .GLB address translated and checked (R160, R188, R189). -/
def translate (s : State) (c : Nat) (t : Thread) (need : Need) (va : W64) : Except Fail (Nat × W64) :=
  if !canonical va then .error (.trap (trapAccess va))
  else match lookup s c t.part t.asid va.toNat with
    | .access _ => .error (.trap (trapAccess va))
    | .fail level => .error (.page va (level * 4))
    | .leaf large e =>
      let pa := leafAddr large e (va.toNat % 2 ^ 55)
      let isAlias := regionOf pa == .aliased
      let isHost := regionOf pa == .host
      if !isAlias && !isHost && leafClass e == 2 && leafOwner e != c then .error (.trap (trapAccess va))
      else if isAlias && !need.aliased || isHost && !need.host || need.hc && leafClass e != 0 then
        .error (.trap (trapAccess va))
      else if need.rd && !leafRd e || need.w && !leafW e || need.x && !leafX e then
        if need.permTrap then .error (.trap (trapAccess va))
        else .error (.page va (2 + if large then 8 else 12))
      else .ok (pa, e)

/-- An aligned access resolved in its space (R160). A hit in the issuing core's L1 is neither translated nor checked
(R162); `hits` says whether the access may hit there. -/
def resolve (s : State) (c : Nat) (t : Thread) (sp : Space) (need : Need) (hits : Bool) (ea : W64) (n : Nat) :
    Except Fail Loc :=
  match sp with
  | .glb =>
    if !canonical ea then .error (.trap (trapAccess ea))
    else
      let vline := ea.toNat / 32
      match if hits then l1Find s c t.part t.asid vline else none with
      | some _ => .ok (.hit vline (ea.toNat % 32))
      | none => match translate s c t need ea with
        | .ok (pa, e) => .ok (.mem pa e)
        | .error f => .error f
  | .spd =>
    match s.gangOf t with
    | some g => if g.holdsSpd c ea.toNat n then .ok (.spd c ea.toNat) else .error (.trap (trapAccess ea))
    | none => .error (.trap (trapAccess ea))
  | .cls =>
    let k := c / 16 * 16 + ea.toNat / 2 ^ 18
    let o := ea.toNat % 2 ^ 18
    match s.gangOf t with
    | some g =>
      if ea.toNat < 2 ^ 22 && !isGateway c && !(s.core k).isSealed && (g.holdsCls k o n || g.holdsSpd k o n) then
        .ok (.spd k o)
      else .error (.trap (trapAccess ea))
    | none => .error (.trap (trapAccess ea))
  | .chp =>
    if ea.toNat + n ≤ s.chipSize (dieOf c) then .ok (.chip (dieOf c) ea.toNat) else .error (.trap (trapAccess ea))

/-! ### Homes -/

/-- Whether a core has written an HC line and still owns it (R236). -/
def L1Line.owned (l : L1Line) : Bool := l.cls == 0 && l.dirty != 0

/-- Whether an owned copy carries an uncorrectable error: its write-back leaves its home poisoned (R163). -/
def L1Line.spoils (l : L1Line) : Bool := l.owned && l.flawed

/-- Whether one of the copies of a line's owner satisfies a test. -/
def State.ownedWith (s : State) (pa : Nat) (p : L1Line → Bool) : Bool :=
  s.cores.any (fun e : Nat × Core => e.2.l1.any (fun l => l.owned && l.pline / 2 == pa / 64 && p l))

/-- Whether a read at the home of a line is answered as poisoned (R298): its owner's copy is written back first, which leaves
the line poisoned or gives it a fresh code (R163, R236). -/
def State.poisoned (s : State) (pa : Nat) : Bool :=
  s.ownedWith pa (fun l => l.flawed) || s.poison.contains (pa / 64) && !s.ownedWith pa (fun l => !l.flawed)

/-- A poisoned line with the check bits that mark it so, or one with a fresh code. -/
def State.setPoison (s : State) (pa : Nat) (b : Bool) : State :=
  if b then { s with poison := setIns s.poison (pa / 64), chk := mapSet s.chk (pa / 64) (Config.markedSymbols (pa / 64)) }
  else { s with poison := setDel s.poison (pa / 64), chk := mapErase s.chk (pa / 64) }

/-- An event of root logic entered in the fault-address queue, or counted when it is full (R305). -/
def State.logFault (s : State) (pa kind info : Nat) : State :=
  if s.faq.length < 256 then
    { s with faq := s.faq ++ [{ pa := pa / 64 * 64, kind := kind, info := info, time := s.clk.setWidth 32 }] }
  else { s with faqOvf := min (s.faqOvf + 1) (2 ^ 32 - 1) }

/-- The alias line at a line index, decoded from its window's source and scale bytes (R233). -/
def decodeLine (s : State) (line : Nat) : List Byte :=
  match s.windowAt (line * 64) with
  | none => zeroBytes 64
  | some w =>
    let (n, topx) := windowFormat w
    let f := windowTarget w
    let t := fmtWidth f / 8
    let first := (line * 64 - w.alias_) / t
    (List.range (64 / t)).flatMap (fun j =>
      let i := first + j
      let code := readLe s.mem (w.src + n.width * i / 8) 2 / 2 ^ (n.width * i % 8) % 2 ^ n.width
      let sc := if scaleBlock n.scale = 0 then 0 else (cellGet s.mem (w.scl + i / scaleBlock n.scale)).toNat
      toBytes t (pack f .rne false (scaledRead n topx sc code)))

/-- The addresses of the source and scale lines of an alias line. -/
def decodeSources (s : State) (line : Nat) : List Nat :=
  match s.windowAt (line * 64) with
  | none => []
  | some w =>
    let n := (windowFormat w).1
    let t := fmtWidth (windowTarget w) / 8
    let first := (line * 64 - w.alias_) / t
    ((List.range (64 / t)).flatMap (fun j =>
      let i := first + j
      let scale := if scaleBlock n.scale = 0 then [] else [(w.scl + i / scaleBlock n.scale) / 64 * 64]
      [(w.src + n.width * i / 8) / 64 * 64, (w.src + (n.width * i + n.width - 1) / 8) / 64 * 64] ++ scale)).eraseDups

/-- The poisoned lines that an alias line is decoded from (R298). -/
def decodePoisoned (s : State) (line : Nat) : List Nat := (decodeSources s line).filter s.poisoned

/-- The leaves that can be reached from a table at a level, each with whether it is of a large page (R187, R188). -/
def leavesFrom (s : State) : Nat → Nat → Nat → List (Bool × W64)
  | 0, _, _ => []
  | fuel + 1, level, base =>
    (((cellsIn s.mem base (2 ^ 16)).map (fun c => c.1 / 8 * 8)).eraseDups).flatMap (fun a =>
      let e := BitVec.ofNat 64 (readLe s.mem a 8)
      if entryFails level e then []
      else if e.getLsbD 1 then [(level == 2, e)]
      else leavesFrom s fuel (level + 1) (leafFrame e))

/-- Whether a leaf maps a physical address. -/
def leafMaps (l : Bool × W64) (pa : Nat) : Bool :=
  decide (leafFrame l.2 ≤ pa) && decide (pa < leafFrame l.2 + if l.1 then 2 ^ 29 else 2 ^ 16)

/-- The coherence class of a physical address's page: that of a leaf that maps it; HC for a frame that none maps (R295 and R351 do
not say how root logic knows it; DEDUCED, log 38). -/
def lineClass (s : State) (pa : Nat) : Nat :=
  (s.asrec.findSome? (fun e : Nat × Nat =>
    ((leavesFrom s 3 1 e.2).find? (fun l => leafMaps l pa)).map (fun l => leafClass l.2))).getD 0

/-- Group of a cluster in the directory (R295). -/
def dirGroup (p : Nat) : Nat := min (p / 5) 12

/-- The state with side bits of a line written; a line in its reset state is not listed. -/
def State.setSide (s : State) (pa : Nat) (x : SideBits) : State :=
  { s with side := if x = SideBits.reset then mapErase s.side (pa / 64) else mapSet s.side (pa / 64) x }

/-- The side bits of a line. -/
def State.sideOf (s : State) (pa : Nat) : SideBits := mapGet SideBits.reset s.side (pa / 64)

/-- `dinfo` of an owned line: its owner (R295). -/
def ownerInfo (c : Nat) : BitVec 13 :=
  if isGateway c then BitVec.ofNat 13 (2 ^ 12 + dieOf c * 2 ^ 10 + (c - 1024) % 16 * 2 ^ 6)
  else BitVec.ofNat 13 (c / 256 * 2 ^ 10 + c / 16 % 16 * 2 ^ 6 + c % 16 * 2 ^ 2)

/-- The group of the owner that `dinfo` names. -/
def ownerGroup (x : BitVec 13) : Nat :=
  if x.getLsbD 12 then 12 else dirGroup (x.toNat / 2 ^ 10 % 4 * 16 + x.toNat / 2 ^ 6 % 16)

/-- The directory after an HC fill by a core (R295): an owner that is another core shares the line from now on. -/
def dirFill (s : State) (c pa : Nat) : State :=
  let x := s.sideOf pa
  let me : BitVec 13 := 1#13 <<< dirGroup (clusterOf c)
  if x.lay || x.dstate == 3 || (x.dstate == 2 && x.dinfo == ownerInfo c) then s
  else if x.dstate == 2 then s.setSide pa { x with dstate := 1, dinfo := (1#13 <<< ownerGroup x.dinfo) ||| me }
  else s.setSide pa { x with dstate := 1, dinfo := x.dinfo ||| me }

/-- The directory after a write that left at most the writer's copies, which it then owns (R236, R295). -/
def dirWrite (s : State) (pa : Nat) (keeper : Option Nat) : State :=
  let x := s.sideOf pa
  if x.lay then s
  else match keeper with
    | some c => s.setSide pa { x with dstate := 2, dinfo := ownerInfo c }
    | none => s.setSide pa { x with dstate := 0, dinfo := 0 }

/-- The addresses of the 64-byte lines that n bytes from an address touch. -/
def linesOf (pa n : Nat) : List Nat := (List.range ((pa % 64 + n + 63) / 64)).map (fun i => (pa / 64 + i) * 64)

/-- Whether n bytes from an address touch a 32-byte line. -/
def touchesLine (pa n line : Nat) : Bool := decide (line * 32 < pa + n) && decide (pa < line * 32 + 32)

/-- A slot whose monitor lies on n bytes from an address wakes (R244). -/
def Slot.stir (x : Slot) (pa n : Nat) : Slot :=
  if x.monitor.armed && touchesLine pa n x.monitor.line then { x with monitor := { x.monitor with woken := true } } else x

/-- Every monitor on the lines that n bytes from an address touch wakes (R244). -/
def wakeMonitors (s : State) (pa n : Nat) : State :=
  { s with cores := s.cores.map (fun e : Nat × Core =>
      (e.1, { e.2 with slots := e.2.slots.map (fun k : Nat × Slot => (k.1, k.2.stir pa n)) })) }

/-- Whether an L1 line is an HC copy of one of the 64-byte lines of n bytes. -/
def L1Line.copies (l : L1Line) (pa n : Nat) : Bool :=
  l.cls == 0 && decide (l.pline / 2 * 64 < pa + n) && decide (pa < l.pline / 2 * 64 + 64)

/-- Lines of owners written back: a copy with an uncorrectable error poisons its home, and its core is to be sealed (R163);
any other gives its home a fresh code (R298). -/
def returnCopies (s : State) (p : Nat → L1Line → Bool) : State :=
  let ls := s.cores.flatMap (fun e : Nat × Core => e.2.l1.filter (fun l => p e.1 l && l.owned))
  let s := ls.foldl (fun s l => if l.flawed then s else s.setPoison (l.pline * 32) false) s
  let s := ls.foldl (fun s l => if l.flawed then s.setPoison (l.pline * 32) true else s) s
  { s with cores := s.cores.map (fun e : Nat × Core =>
      (e.1, { e.2 with sealDue := e.2.sealDue || e.2.l1.any (fun l => p e.1 l && l.spoils) })) }

/-- HC copies of the lines of n bytes leave every L1 but one (R236). -/
def dropCopies (s : State) (pa n : Nat) (keeper : Option Nat) : State :=
  let gone (c : Nat) (l : L1Line) : Bool := l.copies pa n && some c != keeper
  let s := returnCopies s gone
  { s with cores := s.cores.map (fun e : Nat × Core => (e.1, { e.2 with l1 := e.2.l1.filter (fun l => !gone e.1 l) })) }

/-- The owner of a line written back, its copy kept clean, before another party reads the line at its home (R236, R295): every
owner but a core, where one is given. -/
def recallOwner (s : State) (c : Option Nat) (pa : Nat) : State :=
  let mine (d : Nat) (l : L1Line) : Bool := l.owned && l.pline / 2 == pa / 64 && some d != c
  if s.cores.any (fun e : Nat × Core => e.2.l1.any (mine e.1)) then
    let s := returnCopies s mine
    { s with cores := s.cores.map (fun e : Nat × Core =>
        (e.1, { e.2 with l1 := e.2.l1.map (fun l => if mine e.1 l then { l with dirty := 0 } else l) })) }
  else s

/-- The state after an uncorrectable line of HBM4E has been read at its home: its owner has answered, and the event enters the
fault-address queue (R298, R305). -/
def noteBad (s : State) (pa : Nat) (bad : Bool) : State :=
  match bad, regionOf pa with
  | true, .hbm _ => (recallOwner s none pa).logFault pa 2 (if (mapGet SideBits.reset s.side (pa / 64)).lay then 1 else 0)
  | _, _ => s

/-- The events of the poisoned lines that an alias line, not held yet, is decoded from. -/
def noteDecode (s : State) (line : Nat) : State :=
  if regionOf (line * 64) = .aliased && (mapFind s.aliases line).isNone then
    (decodePoisoned s line).foldl (fun s pa => noteBad s pa true) s
  else s

/-- The state after a read at a physical address that found it uncorrectable. -/
def noteRead (s : State) (pa : Nat) : State := noteDecode (noteBad s pa true) (pa / 64)

/-- The poisoned lines that n bytes of physical memory touch. -/
def poisonedLines (s : State) (a n : Nat) : List Nat := (linesOf a n).filter s.poisoned

/-- The events of poisoned lines enter the fault-address queue (R298). -/
def noteLines (s : State) (ls : List Nat) : State := ls.foldl (fun s pa => noteBad s pa true) s

/-- The state with an alias line held in L2 (R233), poisoned where a line that it is decoded from is (R298). -/
def fillAlias (s : State) (pa : Nat) : State :=
  match mapFind s.aliases (pa / 64) with
  | some _ => s
  | none =>
    let s' := { s with aliases := mapSet s.aliases (pa / 64) (decodeLine s (pa / 64)) }
    s'.setPoison pa (!(decodePoisoned s (pa / 64)).isEmpty)

/-- The bytes at a physical address, as a home answers a read: value and whether it is marked uncorrectable. -/
def homeRead (s : State) (pa n : Nat) : Nat × Bool :=
  match regionOf pa with
  | .aliased =>
    let s' := fillAlias s pa
    (leValue ((mapGet [] s'.aliases (pa / 64)).drop (pa % 64) |>.take n), s'.poisoned pa)
  | .host => (readLe s.hostMem (pa % 2 ^ 49) n, false)
  | _ => (readLe s.mem pa n, s.poisoned pa)

/-- The copy that a core's own L1 holds of a line, with bytes from an offset written over. -/
def l1Patch (l : L1Line) (off : Nat) (bs : List Byte) : L1Line :=
  { l with data := BitVec.ofNat 256 (leValue
      ((toBytes 32 l.data.toNat).take off ++ bs ++ (toBytes 32 l.data.toNat).drop (off + bs.length))) }

/-- Bits of n bytes from a byte of a line on. -/
def byteBits (off n : Nat) : BitVec 32 := ((1#32 <<< n) - 1) <<< off

/-- The writer's own HC copy of a line with bytes written over: it owns the line from now on (R236). A copy that R163 drops
leaves its L1. Where the core holds the other half of the 64-byte line, the directory goes on to name it. -/
def writeOwn (s : State) (c pa : Nat) (bs : List Byte) : State :=
  let x := s.core c
  let mine (l : L1Line) : Bool := l.cls == 0 && l.pline == pa / 32
  let x := if x.l1.any (fun l => mine l && l.lost) then { x with l1 := x.l1.filter (fun l => !(mine l && l.lost)) } else x
  if x.l1.any mine then
    dirWrite (s.setCore c { x with l1 := x.l1.map (fun l =>
      if mine l then l1Patch { l with dirty := l.dirty ||| byteBits (pa % 32) bs.length } (pa % 32) bs else l) }) pa (some c)
  else dirWrite (if x.l1.length = (s.core c).l1.length then s else s.setCore c x) pa
    (if x.l1.any (fun l => l.copies pa 1) then some c else none)

/-- Whether n bytes from an address cover a 64-byte line whole. -/
def wholeLine (pa n line : Nat) : Bool := decide (pa ≤ line * 64) && decide (line * 64 + 64 ≤ pa + n)

/-- Bytes written at their home (R236, R298): HC copies of others leave first, memory takes the bytes, lines written whole
lose their poison, monitors wake, and the writer's own HC copy takes the bytes too. -/
def homeWrite (s : State) (writer : Option Nat) (hc : Bool) (pa : Nat) (bs : List Byte) : State :=
  match regionOf pa with
  | .host => { s with hostMem := putBytes s.hostMem (pa % 2 ^ 49) bs }
  | .hbm _ =>
    let n := bs.length
    let s := if hc then dropCopies s pa n writer else s
    let s := { s with
      mem := putBytes s.mem pa bs
      poison := s.poison.filter (fun l => !wholeLine pa n l)
      chk := s.chk.filter (fun e : Nat × BitVec 32 => !wholeLine pa n e.1) }
    let s := wakeMonitors s pa n
    if hc then
      match writer with
      | none => (linesOf pa n).foldl (fun s a => dirWrite s a none) s
      | some c => writeOwn s c pa bs
    else s
  | _ => s

/-! ### The L1 data cache (R162, R176, R236) -/

/-- Runs of dirty bytes written back to the home of a line. -/
def writeBackBytes (s : State) (c : Nat) (l : L1Line) : List Nat → State
  | [] => s
  | i :: is =>
    writeBackBytes (if l.dirty.getLsbD i then
      homeWrite s (some c) false (l.pline * 32 + i) [BitVec.ofNat 8 (l.data.toNat / 2 ^ (8 * i))] else s) c l is

/-- A line written back (R236): of an HC line the home has the bytes. One that carries an uncorrectable error leaves its
home poisoned, and the core is to be sealed (R163); any other gives its home a fresh code (R298). -/
def writeBackLine (s : State) (c : Nat) (l : L1Line) : State :=
  let s := if l.cls = 0 then s else writeBackBytes s c l (List.range 32)
  let s := s.setPoison (l.pline * 32) l.flawed
  if l.flawed then s.setCore c { s.core c with sealDue := true } else s

/-- Lines written back in turn. -/
def writeBackAll (s : State) (c : Nat) : List L1Line → State
  | [] => s
  | l :: ls => writeBackAll (if l.dirty = 0 then s else writeBackLine s c l) c ls

/-- The lines of a core's L1 that satisfy a test, written back; they stay, clean. -/
def cleanLines (s : State) (c : Nat) (p : L1Line → Bool) : State :=
  let s := writeBackAll s c ((s.core c).l1.filter p)
  let x := s.core c
  s.setCore c { x with l1 := x.l1.map (fun l => if p l then { l with dirty := 0 } else l) }

/-- The lines of a core's L1 that satisfy a test, written back and invalidated. -/
def flushLines (s : State) (c : Nat) (p : L1Line → Bool) : State :=
  let s := writeBackAll s c ((s.core c).l1.filter p)
  let x := s.core c
  s.setCore c { x with l1 := x.l1.filter (fun l => !p l) }

/-- A physical line leaves the L1s of a list of cores, dirty bytes going home (R190, R239). -/
def flushFrom (s : State) (p : L1Line → Bool) : List Nat → State
  | [] => s
  | c :: cs => flushFrom (if (s.core c).l1.any p then flushLines s c p else s) p cs

/-- The numbers of the listed cores. -/
def State.coreKeys (s : State) : List Nat := s.cores.map (·.1)

/-- The listed cores of a cluster. -/
def State.coresOf (s : State) (p : Nat) : List Nat := s.coreKeys.filter (fun c => clusterOf c == p)

/-- The SC action of a release at .cl or wider (R236): dirty SC lines are written back. -/
def scRelease (s : State) (c : Nat) : State :=
  if (s.core c).l1.any (fun l => l.cls == 1) then cleanLines s c (fun l => l.cls == 1) else s

/-- The SC action of an acquire at .cl or wider (R236): SC lines are written back and invalidated. -/
def scAcquire (s : State) (c : Nat) : State :=
  if (s.core c).l1.any (fun l => l.cls == 1) then flushLines s c (fun l => l.cls == 1) else s

/-- The dirty lines of CP pages of every core written back: what each has written reaches its home (R236, R272). -/
def cpRelease (s : State) : State :=
  s.coreKeys.foldl (fun s c =>
    if (s.core c).l1.any (fun l => l.cls == 2 && l.dirty != 0) then cleanLines s c (fun l => l.cls == 2) else s) s

/-- Whether a scope is .cl or wider. -/
def wideScope : Scope → Bool
  | .co => false
  | _ => true

/-- Whether an ordering releases, or acquires, at .cl or wider. -/
def ordReleases : Ord → Bool
  | .rel s => wideScope s
  | .ar s => wideScope s
  | _ => false

def ordAcquires : Ord → Bool
  | .acq s => wideScope s
  | .ar s => wideScope s
  | _ => false

/-- What an ordering does before its access, and after it (R236). -/
def orderBefore (s : State) (c : Nat) (o : Ord) : State := if ordReleases o then scRelease s c else s

def orderAfter (s : State) (c : Nat) (o : Ord) : State :=
  let s := if ordReleases o then scRelease s c else s
  if ordAcquires o then scAcquire s c else s

/-- Whether a line stands in another than a thread's way to a physical line: under another virtual line or address space. -/
def L1Line.synonym (l : L1Line) (t : Thread) (va pa : Nat) : Bool :=
  l.pline == pa / 32 && (l.vline != va / 32 || l.part != t.part || l.asid != t.asid)

/-- Copies of a physical line under another virtual line leave the cluster, dirty bytes going home, before a miss to it is
served (R190). -/
def dropSynonyms (s : State) (c : Nat) (t : Thread) (va pa : Nat) : State :=
  flushFrom s (fun l => l.synonym t va pa) (s.coresOf (clusterOf c))

/-- The set of a line: 768 sets of 16 ways; how lines are placed cannot be seen (R162; DESIGN CHOICE, log 7). -/
def L1Line.set (l : L1Line) : Nat := l.vline % 768

/-- Whether a set of a core's L1 may take one more kept line: at most 8 of its ways (R176). -/
def keptRoom (x : Core) (set : Nat) : Bool := decide ((x.l1.filter (fun l => l.set == set && l.kept)).length < 8)

/-- The line that leaves a set: one marked first to replace, else the oldest that is not kept (R176; DESIGN CHOICE, log 7). -/
def victimLine (ls : List L1Line) : Option L1Line :=
  match ls.find? (fun l => l.once) with
  | some l => some l
  | none => match ls.reverse.find? (fun l => !l.kept) with
    | some l => some l
    | none => ls.getLast?

/-- A way of a set made free: with all 16 taken, a line is evicted (R162). -/
def makeRoom (s : State) (c set : Nat) : State :=
  let ls := (s.core c).l1.filter (fun l => l.set == set)
  if ls.length < 16 then s
  else match victimLine ls with
    | some v => flushLines s c (fun l => l.part == v.part && l.asid == v.asid && l.vline == v.vline)
    | none => s

/-- A line filled into a core's L1 after a miss. -/
def l1Fill (s : State) (c : Nat) (t : Thread) (pol : Policy) (va pa : Nat) (leaf : W64) : State :=
  let s := dropSynonyms s c t va pa
  let same (l : L1Line) : Bool := l.part == t.part && l.asid == t.asid && l.vline == va / 32
  if (s.core c).l1.any (fun l => same l && !l.lost) then s else
  let s := s.setCore c { s.core c with l1 := (s.core c).l1.filter (fun m => !(same m && m.lost)) }
  let s := makeRoom (if leafClass leaf = 0 then recallOwner s (some c) pa else s) c (va / 32 % 768)
  let x := s.core c
  let l : L1Line :=
    { part := t.part, asid := t.asid, vline := va / 32, pline := pa / 32, cls := leafClass leaf, dirty := 0,
      kept := pol == .keep && keptRoom x (va / 32 % 768), data := BitVec.ofNat 256 (readLe s.mem (pa / 32 * 32) 32)
      once := pol == .once }
  let s := s.setCore c { x with l1 := l :: x.l1 }
  if leafClass leaf = 0 then dirFill s c pa else s

/-- Whether a miss allocates: only HBM4E lines do, and not under .NOAL (R176, R233, R337). -/
def allocates (s : State) (pol : Policy) (pa : Nat) : Bool :=
  pol != .noal && (match regionOf pa with | .hbm _ => true | _ => false) && !s.poisoned pa

/-- A line of the issuing core's L1 marked by the policy of an access that hits it (R176). -/
def l1Touch (s : State) (c : Nat) (t : Thread) (pol : Policy) (vline : Nat) (f : L1Line → L1Line) : State :=
  let x := s.core c
  let keep (l : L1Line) : Bool := pol == .keep && (l.kept || keptRoom x (vline % 768))
  s.setCore c { x with l1 := x.l1.map (fun l =>
    if l.part == t.part && l.asid == t.asid && l.vline == vline && !l.lost then
      f { l with kept := l.kept || keep l, once := (l.once && !keep l) || pol == .once } else l) }

/-- A read of n bytes at a resolved location: value, whether marked uncorrectable, and the state after it. -/
def loadLoc (s : State) (c : Nat) (t : Thread) (pol : Policy) (va : W64) (loc : Loc) (n : Nat) : Nat × Bool × State :=
  match loc with
  | .spd k o => (readLe (s.core k).spd o n, (s.core k).flawIn .spd o n, s)
  | .chip d o => (readLe (s.die d).chip o n, false, s)
  | .hit vline off =>
    match l1Find s c t.part t.asid vline with
    | some l => (l.data.toNat / 2 ^ (8 * off) % 2 ^ (8 * n), l.flawed, l1Touch s c t pol vline id)
    | none => (0, false, s)
  | .mem pa leaf =>
    let s := tlbFill s c t.part t.asid va.toNat
    let s := dropSynonyms s c t va.toNat pa
    let s := if leafClass leaf = 0 then recallOwner s (some c) pa else s
    let (v, bad) := homeRead s pa n
    let s := if bad then noteRead s pa else s
    if regionOf pa = .aliased then (v, bad, fillAlias s pa)
    else if allocates s pol pa then (v, bad, l1Fill s c t pol va.toNat pa leaf)
    else (v, bad, s)

/-- Bytes written into a core's own copy of an SC or CP line. -/
def writeCopy (s : State) (c : Nat) (t : Thread) (pol : Policy) (vline off : Nat) (bs : List Byte) (pline : Nat) : State :=
  let s := l1Touch s c t pol vline (fun l => l1Patch { l with dirty := l.dirty ||| byteBits off bs.length } off bs)
  wakeMonitors s (pline * 32 + off) bs.length

/-- A write of n bytes at a resolved location (R165, R176, R236). -/
def storeLoc (s : State) (c : Nat) (t : Thread) (pol : Policy) (va : W64) (loc : Loc) (n v : Nat) : State :=
  match loc with
  | .spd k o => s.setCore k ((s.core k).putSpd o n v)
  | .chip d o => let x := s.die d; s.setDie d { x with chip := writeLe x.chip o n v }
  | .hit vline off =>
    match l1Find s c t.part t.asid vline with
    | none => s
    | some l =>
      if l.cls = 0 then homeWrite (l1Touch s c t pol vline id) (some c) true (l.pline * 32 + off) (toBytes n v)
      else writeCopy s c t pol vline off (toBytes n v) l.pline
  | .mem pa leaf =>
    let s := tlbFill s c t.part t.asid va.toNat
    let s := dropSynonyms s c t va.toNat pa
    if allocates s pol pa then
      let s := l1Fill s c t pol va.toNat pa leaf
      if leafClass leaf = 0 then homeWrite s (some c) true pa (toBytes n v)
      else writeCopy s c t pol (va.toNat / 32) (pa % 32) (toBytes n v) (pa / 32)
    else homeWrite s (some c) (leafClass leaf == 0) pa (toBytes n v)

/-- The dirty bytes that a core's own L1 holds of n bytes at a physical address, over what their home holds: what an
instruction fetch of the core sees of its own stores (R57). -/
def ownBytes (s : State) (c pa : Nat) (bs : List Byte) : List Byte :=
  (bs.zip (List.range bs.length)).map (fun e =>
    match (s.core c).l1.find? (fun l => l.pline == (pa + e.2) / 32 && l.dirty.getLsbD ((pa + e.2) % 32)) with
    | some l => BitVec.ofNat 8 (l.data.toNat / 2 ^ (8 * ((pa + e.2) % 32)))
    | none => e.1)

/-- Whether one of n bytes at a physical address stands in a dirty line of a core's own L1 that carries an uncorrectable error
(R163). -/
def ownFlawed (s : State) (c pa n : Nat) : Bool :=
  (s.core c).l1.any (fun l => l.flawed && l.dirty != 0 && decide (l.pline * 32 < pa + n) && decide (pa < l.pline * 32 + 32))

/-- Whether a .GLB access whose address resolves has to wait for its translation: its line is not in the core's L1 and its
page not in the TLB (R189). -/
def walkDue (s : State) (c : Nat) (t : Thread) (va : W64) : Bool :=
  canonical va && (l1Find s c t.part t.asid (va.toNat / 32)).isNone && (tlbFind s c t.part t.asid va.toNat).isNone

/-- A read of global bytes through translation, a byte at a time, that neither hits nor fills L1: the descriptor, record
and list reads of words and engines. The lines that the reading core's own L1 holds are read there. -/
def readGlobal (s : State) (c : Nat) (t : Thread) (need : Need) (va : W64) : Nat → Except Fail (List Byte × Bool)
  | 0 => .ok ([], false)
  | n + 1 =>
    match resolve s c t .glb need true va 1 with
    | .error f => .error f
    | .ok loc =>
      let (v, bad, _) := loadLoc s c t .noal va loc 1
      match readGlobal s c t need (va + 1) n with
      | .error f => .error f
      | .ok (bs, bad') => .ok (BitVec.ofNat 8 v :: bs, bad || bad')

/-- The state after reads of global bytes one of which is uncorrectable: the event enters the fault-address queue (R298). -/
def noteGlobal (s : State) (c : Nat) (t : Thread) (va : W64) (n : Nat) : State :=
  (List.range ((n + 63) / 64)).foldl (fun s i =>
    let ea := va + BitVec.ofNat 64 (64 * i)
    match resolve s c t .glb needLoad true ea 1 with
    | .ok loc => (loadLoc s c t .noal ea loc 1).2.2
    | .error _ => s) s

end Sys2Proof.Machine
end

