-- ==== Sys2Proof/Machine/Post.lean ====
section
/-!
DEFINITION. What units send to one another outside the register messages: service messages and fault messages (R200,
R201), MBT records (R345), link words (R180–R185), reservation queues (R300–R303), and the firebreak (R177).
-/

namespace Sys2Proof.Machine

/-! ### Service messages -/

/-- The smallest of a list of numbers. -/
def minOf : List Nat → Option Nat
  | [] => none
  | a :: l => match minOf l with
    | none => some a
    | some b => some (min a b)

/-- The default receiver for a die (R341 0x02): its designated service core with the lowest `sys.loc`, else the first
designated service core of die 0. A sealed one is passed over for the next of its die, and with none left the first of die 0
stands (which core firmware designates next is open, R177; DESIGN CHOICE, log 38). -/
def defaultReceiver (s : State) (d : Nat) : Nat :=
  match minOf (s.svcCores.filter (fun c => !isGateway c && c / 256 == d && !(s.core c).isSealed)) with
  | some c => c
  | none => (minOf (s.svcCores.filter (fun c => !isGateway c && c / 256 == 0))).getD 0

/-- The receiver of the fault messages of a core's cluster (R200, R341 0x02); a sealed receiver is passed over (R177). -/
def faultReceiver (s : State) (c : Nat) : Nat :=
  match (s.cluster (clusterOf c)).faultdest with
  | some d => if (s.core d).isSealed then defaultReceiver s (dieOf c) else d
  | none => defaultReceiver s (dieOf c)

/-- A service message at its endpoint, or from hardware that stands at no core; SERVICE_MESSAGE delivers it. -/
def sendSvc (s : State) (dest : Nat) (b : SvcBody) : State :=
  { s with posted := s.posted ++ [(dest, b)], agenda := s.agenda ++ [.serviceMessage dest] }

/-! ### Routers and flits (R212–R214) -/

/-- Router of a core; a gateway core's is its port's. -/
def routerOf (c : Nat) : Nat :=
  if isGateway c then portRouterOf (c - 1024)
  else
    let d := c / 256
    let p := c / 16 % 16
    16 * (8 * (d / 2) + 2 * (p / 4) + coreRow c / 2) + 8 * (d % 2) + 2 * (p % 4) + coreCol c / 2

/-- Endpoints at a router (R212): an L2 slice, a memory controller, a gateway core and a fabric port; a core's is its place
in its block of four. -/
def sliceEndpoint : Nat := 0x10
def controllerEndpoint : Nat := 0x20
def gatewayEndpoint : Nat := 0x30
def portEndpoint : Nat := 0x31

/-- Endpoint of a core at its router. -/
def endpointOf (c : Nat) : Nat := if isGateway c then gatewayEndpoint else 2 * (coreRow c % 2) + coreCol c % 2

/-- Plane of a message to a slot (R213); a message that names no slot of its target, a fault message or a request for a transfer,
goes as one to slot 0 (the manual says nothing of it; DESIGN CHOICE, log 38). -/
def planeOf (c k : Nat) : Nat := (c + k) % 4

/-- Plane of memory traffic to a physical address (R213). -/
def memoryPlane (pa : Nat) : Nat := pa / 2 ^ 6 % 4

/-- A flit at its source, before injection, for a source of a partition. -/
def mkFlit (kind part src srcSlot dst plane seq nfl msgid : Nat) (p : Payload) : Flit :=
  { kind := kind, part := part, plane := plane, age := 0, seq := seq, nfl := nfl, stamp := 0,
    msgid := msgid % 2 ^ 16, drouter := routerOf dst, dend := endpointOf dst, srouter := routerOf src,
    send := endpointOf src, dcore := dst, scoreId := src, sslot := srcSlot, at_ := routerOf src, due := 0, payload := p }

/-- A flit put into the injection queue of its source core. -/
def injectFlit (s : State) (f : Flit) : State :=
  let x := s.core f.scoreId
  s.setCore f.scoreId { x with inject := x.inject ++ [f] }

/-- The next message id of a source (R214). -/
def newMsgid (s : State) (src : Nat) : Nat × State :=
  let x := s.core src
  (x.msgid, s.setCore src { x with msgid := (x.msgid + 1) % 2 ^ 16 })

/-- A one-flit message of a source of a partition. -/
def sendFlit (s : State) (kind part src srcSlot dst plane : Nat) (p : Payload) : State :=
  let (id, s) := newMsgid s src
  injectFlit s (mkFlit kind part src srcSlot dst plane 0 0 id p)

/-- The partition of what a core sends on its own: the one that owns its cluster (R338). -/
def State.corePart (s : State) (c : Nat) : Nat :=
  ((s.parts.find? (fun e : Nat × Partition => e.2.clusters.testBit (clusterOf c))).map (·.1)).getD 0

/-! ### Notices (R178, R222) -/

/-- A notice word (R178): the target's die, cluster and core as in its `sys.loc`; of a gateway core, its port's number and
die (R261). -/
def noticeWord (kind c k reg : Nat) : W64 :=
  BitVec.ofNat 64 (kind * 2 ^ 56 + (if isGateway c then dieOf c * 2 ^ 22 + (c - 1024) % 16 * 2 ^ 14 else c * 2 ^ 14) +
    k * 2 ^ 10 + reg * 2 ^ 7)

/-- A notice that cannot be delivered counts at the core that holds the sending slot (R222). -/
def loseNotice (s : State) (c : Nat) : State :=
  let x := s.core c
  s.setCore c { x with lost := min 255 (x.lost + 1) }

/-- The partition of a notice that a core sends: its own; a gateway core, which lies in each, answers in the sender's
(R338; DEDUCED, log 13). -/
def noticePart (s : State) (m : RegMsg) : Nat := s.corePart (if isGateway m.core then m.srcCore else m.core)

/-- A refused message: its notice goes to m7 of the sending slot, with the TOPX the message carried. -/
def refuse (s : State) (m : RegMsg) (kind : Nat) : State :=
  if m.notice then loseNotice s m.core
  else
    let n : RegMsg :=
      { core := m.srcCore, slot := m.srcSlot, reg := 7, value := noticeWord kind m.core m.slot m.reg, topx := m.topx,
        svc := false, srcCore := m.core, srcSlot := m.slot, notice := true }
    sendFlit s 0x02 (noticePart s m) m.core m.slot m.srcCore (planeOf m.srcCore m.srcSlot) (.reg n)

/-- The partition of a fault message (R214): the thread's where it stands on the slot or was sealed there, or the message comes from
a gateway core, which lies in every partition (DEDUCED, log 13); else, and for a slot that holds no thread, the core's. -/
def faultPart (s : State) (c k : Nat) (t : Thread) : Nat :=
  let x := s.slot c k
  if isGateway c || (x.st != .empty && t != Thread.none && threadId x.thread == threadId t) then t.part else s.corePart c

/-- The fault message of R201 for a thread on a slot: 32 bytes, one flit of kind 0x06. -/
def sendFault (s : State) (c k : Nat) (t : Thread) (kind : Nat) (addr : W64) (flags info : Nat) (word : W64) : State :=
  let dest := faultReceiver s c
  sendFlit s 0x06 (faultPart s c k t) c k dest (planeOf dest 0)
    (.svc (.fault addr (BitVec.ofNat 64 (threadId t)) (s.loc c k) kind flags info word))

/-! ### MBT (R345) -/

/-- One 16-byte record in a core's ring, or one more lost record where the write offset would reach the read offset. -/
def ringPut (s : State) (c : Nat) (rec16 : List Byte) : State :=
  let x := s.core c
  let r := x.ring
  let nxt := (r.wr + 16) % r.size
  if nxt = r.rd then s.setCore c { x with ring := { r with lost := r.lost + 1 } }
  else
    let s := homeWrite s none true (r.base + r.wr) rec16
    let x := s.core c
    s.setCore c { x with ring := { r with wr := nxt, lastClk := s.clk.toNat } }

/-- Bytes of a record: type and slot, time, three 32-bit words. -/
def recBytes (slot ty dt a : Nat) (b : Nat) : List Byte :=
  BitVec.ofNat 8 (ty + 16 * slot) :: (toBytes 3 dt ++ toBytes 4 a ++ toBytes 8 b)

/-- A record with the clk since the core's previous record; a longer gap than its field holds is preceded by a time record
and written as 0. -/
def ringRec (s : State) (c k ty a b : Nat) : State :=
  let dt := s.clk.toNat - (s.core c).ring.lastClk
  if 0xFFFFFE < dt then ringPut (ringPut s c (recBytes k 0xE 0 0 s.clk.toNat)) c (recBytes k ty 0 a b)
  else ringPut s c (recBytes k ty dt a b)

/-- The lost count of a core's ring set. -/
def setLost (s : State) (c n : Nat) : State := s.setCore c { s.core c with ring := { (s.core c).ring with lost := n } }

/-- A record for a slot number of a core where a thread's trace bit is 1 (R345): bytes 4–7 hold `a`, bytes 8–15 hold `b`.
Records lost before it are counted in a record of their own, which is written first. -/
def traceIf (on : Bool) (s : State) (c k ty a b : Nat) : State :=
  let x := s.core c
  if !x.ring.bound || !on || x.ring.size == 0 then s
  else if x.ring.lost = 0 then ringRec s c k ty a b
  else
    let s' := ringRec (setLost s c 0) c k 0xD x.ring.lost 0
    if (s'.core c).ring.lost = 0 then ringRec s' c k ty a b else setLost s' c (x.ring.lost + 1)

/-- A record of a slot whose trace bit is 1. -/
def traceRec (s : State) (c k ty a b : Nat) : State := traceIf (s.slot c k).trace s c k ty a b

/-- The block-exit record of the current block of a slot, where R345 writes one: `idx` is the index of the last word that
issued. -/
def traceExit (s : State) (c k idx : Nat) : State :=
  let x := s.slot c k
  let h := x.block.headD 0
  if hdrQuiet h then s
  else if x.passed = 0 && idx = hdrLen h + 1 then s
  else traceRec s c k 0x2 (x.passed % 2 ^ 32) (x.passed / 2 ^ 32 + idx * 2 ^ 32)

/-! ### Links -/

/-- Opposite direction. -/
def opposite : Dir → Dir
  | .dn => .ds
  | .de => .dw
  | .ds => .dn
  | .dw => .de

/-- The neighbour of a core in its cluster's grid (R180). -/
def neighbour (c : Nat) (d : Dir) : Option Nat :=
  if isGateway c then none
  else match d with
    | .dn => if coreRow c = 0 then none else some (c - 4)
    | .ds => if coreRow c = 3 then none else some (c + 4)
    | .dw => if coreCol c = 0 then none else some (c - 1)
    | .de => if coreCol c = 3 then none else some (c + 1)

/-- The neighbour a thread's link operand reaches; none is NO_LINK (R183). -/
def linkPeer (s : State) (c : Nat) (t : Thread) (d : Dir) : Option Nat :=
  match neighbour c d, s.gangOf t with
  | some n, some g => if t.rect && g.covers c && g.covers n then some n else none
  | _, _ => none

/-- Whether a FIFO is the one of a direction and a thread (R181). -/
def LinkFifo.is (f : LinkFifo) (d : Dir) (t : Thread) : Bool :=
  f.dir == d && f.gang == (t.launch, t.gang) && f.j == t.j

/-- The FIFO of a core in an outgoing direction for a thread; an unlisted one is empty. -/
def linkFifo (s : State) (c : Nat) (d : Dir) (t : Thread) : LinkFifo :=
  ((s.core c).links.find? (fun f => f.is d t)).getD
    { dir := d, gang := (t.launch, t.gang), j := t.j, wire := [], fifo := [] }

/-- The state with that FIFO replaced; an empty one is not listed. -/
def setLinkFifo (s : State) (c : Nat) (d : Dir) (t : Thread) (f : LinkFifo) : State :=
  let x := s.core c
  let rest := x.links.filter (fun g => !g.is d t)
  s.setCore c { x with links := if f.wire.isEmpty && f.fifo.isEmpty then rest else rest ++ [f] }

/-- A word pushed to an outgoing link; toward a sealed neighbour it is discarded (R178, R182). -/
def linkPush (s : State) (c : Nat) (t : Thread) (d : Dir) (v : W64) : State :=
  match neighbour c d with
  | none => s
  | some n =>
    if (s.core n).isSealed then s
    else
      let f := linkFifo s c d t
      (setLinkFifo s c d t { f with wire := f.wire ++ [v] }).post [.linkWordArrival c d t.launch t.gang t.j]

/-! ### Queued reservations (R300–R303) -/

/-- Every first entry of a line that has no grant yet receives one now. -/
def regrantFrom (clk : Nat) : List Nat → List ResEntry → List ResEntry
  | _, [] => []
  | seen, e :: es =>
    (if seen.contains e.line || e.held.isSome then e else { e with held := some clk }) ::
      regrantFrom clk (e.line :: seen) es

/-- The reservation queues with entries removed and the next entries granted. -/
def resDrop (s : State) (p : ResEntry → Bool) : State :=
  { s with res := regrantFrom s.clk.toNat [] (s.res.filter (fun e => !p e)) }

/-- The holder of a line: the first entry of its FIFO. -/
def resHolder (s : State) (line : Nat) : Option ResEntry := s.res.find? (fun e => e.line == line)

/-- Bank of a line: stack, pseudo-channel, bank (R293, R300). -/
def bankOf (line : Nat) : Nat × Nat × Nat :=
  let a := line * 64 % 2 ^ 36
  (line * 64 / 2 ^ 36, (a / 2 ^ 8 % 64) ^^^ (a / 2 ^ 22 % 64), a / 2 ^ 14 % 32)

/-- Entries in the bank queue of a line. -/
def bankCount (s : State) (line : Nat) : Nat := (s.res.filter (fun e => bankOf e.line == bankOf line)).length

/-! ### Reassembly (R225) -/

/-- A reassembly slot given up; the slot that was kept for it may be free for a woken thread that waits (R204). -/
def dropReasm (s : State) (c k : Nat) : State :=
  let x := s.core c
  let s := s.setCore c { x with reasm := x.reasm.filter (fun q => q.slot != k) }
  if x.waiting.isEmpty then s else postOnce s (.reinstatement c)

/-- The TOPX of the thread whose context begins with given bytes (R227). -/
def contextTopx (bs : List Byte) : Bool := (bs.getD 23 0).getLsbD 0

/-- A migration context for a slot of a core refused: one notice for the whole message, which names the slot it was for and,
as its register, 0 (R178; DESIGN CHOICE, log 10). -/
def refuseContext (s : State) (srcCore srcSlot c k : Nat) (bs : List Byte) (kind : Nat) : State :=
  refuse s { core := c, slot := k, reg := 0, value := 0, topx := contextTopx bs, svc := false, srcCore := srcCore,
             srcSlot := srcSlot, notice := false } kind

/-- The notices of the contexts that a core has partly reassembled when it is sealed. One whose first flit has yet to arrive
is refused when it does. -/
def refusePartial (s : State) (c : Nat) : List Reasm → State
  | [] => s
  | q :: qs => refusePartial (match mapFind q.chunks 0 with
      | some bs => refuseContext s q.srcCore q.srcSlot c q.slot bs 0x01
      | none => s) c qs

/-! ### The firebreak (R177) -/

/-- A slot of a sealed core: the thread that stood there is named, everything else is lost. -/
def sealedSlot (x : Slot) : Slot :=
  { Slot.reset with st := .sealed, thread := if x.st = .empty then Thread.none else x.thread }

/-- The ids of the threads that a core holds: on slots, woken and waiting for one, and spilled. -/
def coreThreads (x : Core) : List W64 :=
  (x.slots.filter (fun e : Nat × Slot => e.2.st != .empty)).map (fun e => BitVec.ofNat 64 (threadId e.2.thread)) ++
    x.waiting.map (fun y => BitVec.ofNat 64 (threadId y.thread)) ++
    x.spilled.map (fun y : Nat × Nat × Slot => BitVec.ofNat 64 (threadId y.2.2.thread))

/-- A core sealed: 1 an uncorrectable datum, 2 a check failed twice. -/
def sealCore (s : State) (c cause : Nat) (word : W64) : State :=
  if (s.core c).isSealed then s
  else
    let k0 := s.cur.2
    let tids := coreThreads (s.core c)
    let s := refusePartial s c (s.core c).reasm
    let s := flushLines s c (fun _ => true)
    let x := s.core c
    let y := { x with
      slots := (List.range 16).map (fun k => (k, sealedSlot (mapGet Slot.reset x.slots k)))
      spd := [], tiles := [], opslots := [], lanes := [], reasm := [], l1 := [], isSealed := true
      flaws := [], sealDue := false
      svcBusy := false, svcDone := false, waiting := x.waiting.map sealedSlot }
    let s := s.setCore c y
    let s := resDrop s (fun e => tids.contains e.tid)
    let k := if s.cur.1 = c then k0 else 0
    sendFault s c k (s.slot c k).thread 0x11 word 0 cause word

/-- A core sealed over what came to one of its slots. -/
def sealAt (s : State) (c k cause : Nat) (word : W64) : State :=
  { sealCore { s with cur := (c, k) } c cause word with cur := s.cur }

end Sys2Proof.Machine
end

