-- ==== Sys2Proof/Machine/Operands.lean ====
section
/-!
DEFINITION. Operand forms (R41, R42): what a source yields, what it waits for and traps on, what reading it takes away;
the result queue (R80, R81), fixed and variable latencies (R82–R85); and where a result goes.
-/

namespace Sys2Proof.Machine

/-- An operand field: a source, a vector register, or not used. -/
inductive Opnd where
  | none
  | s (x : Src)
  | v (r : VReg)
  deriving DecidableEq, Repr

/-- A destination: none, field D, a vector register, or named registers written without a push (R99, R103). -/
inductive Dest where
  | none
  | s (x : Dst)
  | v (r : VReg)
  | regs (first count : Nat)
  deriving DecidableEq, Repr

/-- The operands of a word in field order A, B, C, K, its destination, and its extended immediate. -/
structure Form where
  a : Opnd
  b : Opnd
  c : Opnd
  k : Opnd
  d : Dest
  imm : W64
  deriving DecidableEq, Repr

/-- A word without operands. -/
def noOperands : Form := { a := .none, b := .none, c := .none, k := .none, d := .none, imm := 0 }

/-- The source fields of a word, in order. -/
def Form.fields (f : Form) : List Opnd := [f.a, f.b, f.c, f.k]

/-- Operand code of a field of a word (R41), for a trap's detail. -/
def opndCode : Opnd → Nat
  | .none => 0
  | .s x => x.enc
  | .v r => r.val

/-- What a field yields: a value, an early value (R85), nothing yet (R42), or an access that fails (R170). -/
inductive Got (α : Type) where
  | ready (v : α)
  | early (v : α)
  | park (r : Reason)
  | fail (f : Fail)
  /-- the element carries an uncorrectable error (R170, R298) -/
  | poison
  deriving DecidableEq, Repr

/-- What a register or queue entry yields. -/
def cellGot {α : Type} (x : Cell α) : Got α :=
  match x.st with
  | .now => .ready x.val
  | .late _ _ => .early x.val
  | .pending _ _ => .park .result

/-- A queue entry: an entry never pushed holds zero. -/
def Slot.qCell (x : Slot) (i : Nat) : Cell W64 := x.q.getD i Cell.zero

/-- A slot as the word that is retried reads it: its registers as they were at the first try (R134). -/
def Slot.view (x : Slot) : Slot :=
  match x.held with
  | some r => { x with q := r.q, n := r.n, v := r.v }
  | none => x

/-- A named register. -/
def Slot.nCell (x : Slot) (i : Nat) : Cell W64 := mapGet Cell.zero x.n i

/-- A vector register. -/
def Slot.vCell (x : Slot) (i : Nat) : Cell VImage := mapGet Cell.vzero x.v i

/-- A stream register. -/
def Slot.stream (x : Slot) (k : Nat) : Stream := mapGet Stream.reset x.streams k

/-- A message register. -/
def Slot.mreg (x : Slot) (k : Nat) : MReg := mapGet MReg.reset x.m k

/-- The messages that reads of m_k of a slot take in turn: the register's, then the inbox entries for it (R220). -/
def messages (s : State) (c k reg : Nat) : List (W64 × Bool) :=
  let x := (s.slot c k).mreg reg
  (if x.full then [(x.val, x.topx)] else []) ++
    ((s.core c).inbox.filter (fun e => e.slot == k && e.reg == reg)).map (fun e => (e.value, e.topx))

/-- Element size in bytes of a stream. -/
def Stream.bytes (b : Stream) : Nat := 2 ^ b.size

/-- Address of element p of a stream (R170). -/
def Stream.addr (b : Stream) (p : Nat) : W64 := b.base + BitVec.ofNat 64 p * b.stride

/-- The value that the j-th further pop of a read stream yields (R170): an element that has not arrived is waited for; one
whose access fails, or that is uncorrectable, is met by the popping word. -/
def streamGot (s : State) (k j : Nat) : Got W64 :=
  let x := s.me
  let b := x.stream k
  if !b.bound || b.wr || b.count ≤ b.pos + j then .ready 0
  else match b.buf[j]? with
    | some v => .ready v
    | none =>
      let ea := b.addr (b.pos + j)
      match resolve s s.cur.1 x.thread b.sp needLoad true ea b.bytes with
      | .error f => .fail f
      | .ok loc => if (loadLoc s s.cur.1 x.thread .noal ea loc b.bytes).2.1 then .poison else .park .stream

/-- What the (j + 1)-th occurrence of a source code yields (R42). -/
def srcGot (s : State) (imm : W64) (x : Src) (j : Nat) : Got W64 :=
  match x with
  | .q i => cellGot (s.me.view.qCell i.val)
  | .n i => cellGot (s.me.view.nCell i.val)
  | .s i => streamGot s i.val j
  | .m i => match (messages s s.cur.1 s.cur.2 i.val)[j]? with
    | some (v, _) => if s.me.mreg i.val |>.full then .ready v else .park .message
    | none => .park .message
  | .link d => if s.me.fence.isSome then .park .result else match linkPeer s s.cur.1 s.me.thread d with
    | some n => match (linkFifo s n (opposite d) s.me.thread).fifo[j]? with
      | some v => .ready v
      | none => .park .link
    | none => .park .link
  | .z => .ready 0
  | .imm => .ready imm
  | .hb => .ready s.me.hdr

/-- How often a code stands in earlier fields. -/
def occurrences (x : Opnd) (before : List Opnd) : Nat := (before.filter (· == x)).length

/-- What a field of a word yields; a field that is not used, or holds a vector register, yields 0 here. -/
def fieldGot (s : State) (imm : W64) (before : List Opnd) (x : Opnd) : Got W64 :=
  match x with
  | .s y => srcGot s imm y (occurrences x before)
  | _ => .ready 0

/-- What a vector field yields. -/
def vecGot (s : State) (x : Opnd) : Got VImage :=
  match x with
  | .v r => cellGot (s.me.view.vCell r.val)
  | _ => .ready 0

/-- The source values of a word: scalars, and images of the fields that hold vector registers. -/
structure Vals where
  a : W64
  b : W64
  c : W64
  k : W64
  va : VImage
  vb : VImage
  vc : VImage
  deriving DecidableEq, Repr

/-- Source values as far as they can be read now. -/
structure Avail where
  a : Got W64
  b : Got W64
  c : Got W64
  k : Got W64
  va : Got VImage
  vb : Got VImage
  vc : Got VImage
  deriving DecidableEq, Repr

/-- The source values of a word as far as they can be read now (R42). -/
def avail (s : State) (f : Form) : Avail :=
  { a := fieldGot s f.imm [] f.a, b := fieldGot s f.imm [f.a] f.b, c := fieldGot s f.imm [f.a, f.b] f.c,
    k := fieldGot s f.imm [f.a, f.b, f.c] f.k, va := vecGot s f.a, vb := vecGot s f.b, vc := vecGot s f.c }

/-- A value that can be read. A check on an operand that is read early under chk = 1 looks at the old value, so that an ILLEGAL
that depends on it comes before STALL_SHORT (R89 does not say which value; DESIGN CHOICE, log 38). -/
def Got.val? {α : Type} : Got α → Option α
  | .ready v => some v
  | .early v => some v
  | _ => none

/-- All source values, where each can be read. -/
def Avail.vals (x : Avail) : Option Vals :=
  match x.a.val?, x.b.val?, x.c.val?, x.k.val?, x.va.val?, x.vb.val?, x.vc.val? with
  | some a, some b, some c, some k, some va, some vb, some vc =>
    some { a := a, b := b, c := c, k := k, va := va, vb := vb, vc := vc }
  | _, _, _, _, _, _, _ => none

/-- The first reason, if any, for which a word's operands make it wait. -/
def Got.reason? {α : Type} : Got α → Option Reason
  | .park r => some r
  | _ => none

/-- The first of several optional things. -/
def firstOf {α : Type} (l : List (Option α)) : Option α := (l.filterMap id).head?

/-- The wait of a word's sources (R42): of several, the first in field order A, B, C, K gives the reason, and any of them comes
before a wait of the destination (R87 gives no order; DESIGN CHOICE, log 38). -/
def Avail.reason (x : Avail) : Option Reason :=
  firstOf [x.a.reason?, x.b.reason?, x.c.reason?, x.k.reason?, x.va.reason?, x.vb.reason?, x.vc.reason?]

/-- A failing access of a source. -/
def Got.fail? {α : Type} : Got α → Option Fail
  | .fail f => some f
  | _ => none

/-- The first failing access of a word's sources. -/
def Avail.fail (x : Avail) : Option Fail := firstOf [x.a.fail?, x.b.fail?, x.c.fail?, x.k.fail?]

/-- The first failing access of a word's sources that is a trap: it comes before a page fault of another source (R89). -/
def Avail.trap (x : Avail) : Option Trap :=
  firstOf ([x.a.fail?, x.b.fail?, x.c.fail?, x.k.fail?].map (fun f => match f with
    | some (.trap t) => some t
    | _ => none))

/-- Whether a source element is uncorrectable. -/
def Avail.poison (x : Avail) : Bool := x.a == .poison || x.b == .poison || x.c == .poison || x.k == .poison

/-- Whether a value is read early. -/
def Got.isEarly {α : Type} : Got α → Bool
  | .early _ => true
  | _ => false

/-! ### Operand traps -/

/-- Whether a message a word would consume carries another TOPX than the slot's (R220). -/
def topxDiffers (s : State) (f : Form) : Bool :=
  let go (before : List Opnd) (x : Opnd) : Bool :=
    match x with
    | .s (.m i) => (s.me.mreg i.val).full &&
      (match (messages s s.cur.1 s.cur.2 i.val)[occurrences x before]? with
        | some (_, t) => t != s.me.topx
        | none => false)
    | _ => false
  go [] f.a || go [f.a] f.b || go [f.a, f.b] f.c || go [f.a, f.b, f.c] f.k

/-- The direction operand of a field, with its code. -/
def linkOf (s : State) (x : Opnd) (p : State → Dir → Bool) : Option Nat :=
  match x with
  | .s (.link d) => if p s d then some (opndCode x) else none
  | _ => none

/-- The direction of a destination, with its code. -/
def linkOfDest (s : State) (x : Dest) (p : State → Dir → Bool) : Option Nat :=
  match x with
  | .s (.link d) => if p s d then some (Dst.link d).enc else none
  | _ => none

/-- A direction without a neighbour for the issuing thread (R183). -/
def noPeer (s : State) (d : Dir) : Bool := (linkPeer s s.cur.1 s.me.thread d).isNone

/-- A direction with a sealed neighbour (R178). -/
def peerSealed (s : State) (d : Dir) : Bool :=
  match linkPeer s s.cur.1 s.me.thread d with
  | some n => (s.core n).isSealed
  | none => false

/-- NO_LINK of a word's operands (R183). -/
def noLinkTrap (s : State) (f : Form) : Option Trap :=
  (firstOf (f.fields.map (fun x => linkOf s x noPeer) ++ [linkOfDest s f.d noPeer])).map trapNoLink

/-- A direction with a sealed neighbour as the current word reads it: a word that is retried reads what it read at its first try
(R134). -/
def peerCut (s : State) (d : Dir) : Bool :=
  match s.me.held with
  | some r => r.cut.contains d
  | none => peerSealed s d

/-- NEIGHBOUR_SEALED of a word's sources (R178). -/
def sealedTrap (s : State) (f : Form) : Option Trap :=
  (firstOf (f.fields.map (fun x => linkOf s x peerCut))).map trapSealed

/-- Whether a register holds a fixed-latency result that is not ready (R85). -/
def cellEarly {α : Type} (x : Cell α) : Bool := (cellGot x).isEarly

/-- Operand code of the first register of D that holds a result not ready (R85). -/
def destEarly (s : State) (d : Dest) : Option Nat :=
  match d with
  | .s (.n i) => if cellEarly (s.me.nCell i.val) then some (0x10 + i.val) else none
  | .v r => if cellEarly (s.me.vCell r.val) then some r.val else none
  | .regs a n => (List.range n).findSome? (fun i => if cellEarly (s.me.nCell (a + i)) then some (0x10 + a + i) else none)
  | _ => none

/-- STALL_SHORT of a word's operands under chk = 1 (R85). -/
def stallTrap (s : State) (f : Form) (x : Avail) : Option Trap :=
  if !s.me.chk then none
  else
    (firstOf [if x.a.isEarly || x.va.isEarly then some (opndCode f.a) else none,
      if x.b.isEarly || x.vb.isEarly then some (opndCode f.b) else none,
      if x.c.isEarly || x.vc.isEarly then some (opndCode f.c) else none,
      if x.k.isEarly then some (opndCode f.k) else none, destEarly s f.d]).map trapStallShort

/-- A write-stream element that the result would go to: its address, where the append is not dropped (R170). -/
def appendAddr (s : State) (k : Nat) : Option (W64 × Stream) :=
  let b := s.me.stream k
  if b.bound && b.wr && decide (b.pos < b.count) then some (b.addr b.pos, b) else none

/-- Why a destination cannot take the result now. -/
def destFail (s : State) (d : Dest) : Option Fail :=
  match d with
  | .s (.s k) => match appendAddr s k.val with
    | some (ea, b) => match resolve s s.cur.1 s.me.thread b.sp needStore true ea b.bytes with
      | .error f => some f
      | .ok _ => none
    | none => none
  | _ => none

/-- Whether a cell is pending. -/
def cellPending {α : Type} (x : Cell α) : Bool :=
  match x.st with
  | .pending _ _ => true
  | _ => false

/-- Words a link FIFO can hold (R181). -/
def linkRoom (s : State) (d : Dir) : Bool :=
  let f := linkFifo s s.cur.1 d s.me.thread
  peerSealed s d || f.wire.length + f.fifo.length < 4

/-- Bytes of a width. -/
def wtyBytes : WTy → Nat
  | .d => 8
  | .w => 4

/-- Whether a RED was issued by a thread. -/
def DefRed.of (r : DefRed) (t : Thread) : Bool := threadId r.thr == threadId t

/-- Whether two stretches of bytes meet. -/
def overlap (a n b m : Nat) : Bool := decide (a < b + m) && decide (b < a + n)

/-- The physical address that a virtual one stands for now, if any. -/
def physOf (s : State) (c : Nat) (t : Thread) (va : W64) : Option Nat :=
  match lookup s c t.part t.asid va.toNat with
  | .leaf large e => some (leafAddr large e (va.toNat % 2 ^ 55))
  | _ => none

/-- Whether n bytes at a virtual address of a thread, or at a synonym of it, meet m bytes at another. -/
def bytesMeet (s : State) (c : Nat) (t : Thread) (a : W64) (n : Nat) (ea : W64) (m : Nat) : Bool :=
  overlap a.toNat n ea.toNat m ||
    (match physOf s c t a, physOf s c t ea with
    | some p, some q => overlap p n q m
    | _, _ => false)

/-- Whether a RED touches one of n bytes at a virtual address of its thread. -/
def DefRed.meets (r : DefRed) (s : State) (ea : W64) (n : Nat) : Bool := bytesMeet s r.core r.thr r.addr (wtyBytes r.w) ea n

/-- Whether a slot's fetcher has started a claim that has not been answered (R102): an access of its thread (R259). -/
def Slot.claimOut (x : Slot) : Bool := x.fetcher.bound && x.fetcher.claiming

/-- Whether such a claim of a slot touches one of n bytes. -/
def claimMeets (s : State) (c k : Nat) (ea : W64) (n : Nat) : Bool :=
  let x := s.slot c k
  x.claimOut && bytesMeet s c x.thread (x.fetcher.desc + 8) 8 ea n

/-- Whether a RED or a claim of a slot's thread to one of n bytes is still to be performed: its later accesses come after it
(R264). -/
def ownAhead (s : State) (c k : Nat) (ea : W64) (n : Nat) : Bool :=
  s.reds.any (fun r => r.of (s.slot c k).thread && r.meets s ea n) || claimMeets s c k ea n

/-- Whether a later word that touches memory has to wait: for a FENCE of the slot (R273), or for an HNEW or GQCLM whose acquire
is still to be performed (R320, R353). -/
def Slot.fenced (x : Slot) : Bool := x.fence.isSome || x.owed.any (fun o => o.val == .waiting)

/-- A write-stream element that the result would go to and whose translation is still to be walked for (R189). -/
def appendWalk (s : State) (d : Dest) : Option W64 :=
  match d with
  | .s (.s k) => match appendAddr s k.val with
    | some (ea, b) => if b.sp == .glb && (destFail s d).isNone && walkDue s s.cur.1 s.me.thread ea then some ea else none
    | none => none
  | _ => none

/-- Whether an append has to wait: for an ordering of the slot (R273), for a RED or a claim of the thread to the same bytes
that is still to be performed (R264), or for a translation that does not fail (R189, R200). -/
def appendWaits (s : State) (k : Fin 8) : Bool :=
  match appendAddr s k.val with
  | some (ea, b) => s.me.fenced || b.sp == .glb && ownAhead s s.cur.1 s.cur.2 ea b.bytes ||
      (appendWalk s (.s (.s k))).isSome
  | none => false

/-- The wait of a destination (R42, R83). -/
def destReason (s : State) (d : Dest) : Option Reason :=
  match d with
  | .s (.s k) => if appendWaits s k then some .result else none
  | .s (.n i) => if cellPending (s.me.nCell i.val) then some .result else none
  | .v r => if cellPending (s.me.vCell r.val) then some .result else none
  | .regs a n => if (List.range n).any (fun i => cellPending (s.me.nCell (a + i))) then some .result else none
  | .s (.link l) => if s.me.fence.isSome then some .result else if linkRoom s l then none else some .link
  | _ => none

/-! ### Consuming sources -/

/-- A message register emptied and refilled from the inbox (R220). -/
def takeMessage (s : State) (c k reg : Nat) : State :=
  let x := s.core c
  let y := s.slot c k
  match x.inbox.find? (fun e => e.slot == k && e.reg == reg) with
  | some e =>
    let s := s.setSlot c k { y with m := mapSet y.m reg { val := e.value, full := true, topx := e.topx } }
    s.setCore c { s.core c with inbox := x.inbox.erase e }
  | none => s.setSlot c k { y with m := mapSet y.m reg { y.mreg reg with full := false } }

/-- What reading one source takes away (R42, R170, R182, R220). -/
def consume (s : State) (x : Opnd) : State :=
  match x with
  | .s (.s k) =>
    let y := s.me
    let b := y.stream k.val
    if b.bound && !b.wr && decide (b.pos < b.count) then
      s.setMe { y with streams := mapSet y.streams k.val { b with pos := b.pos + 1, buf := b.buf.drop 1 } }
    else s.setMe (y.setSend k.val)
  | .s (.m k) => takeMessage s s.cur.1 s.cur.2 k.val
  | .s (.link d) =>
    match linkPeer s s.cur.1 s.me.thread d with
    | some n =>
      let f := linkFifo s n (opposite d) s.me.thread
      setLinkFifo s n (opposite d) s.me.thread { f with fifo := f.fifo.drop 1 }
    | none => s
  | _ => s

/-- What reading the sources of a word takes away, in field order. -/
def consumeAll (s : State) (f : Form) : State := consume (consume (consume (consume s f.a) f.b) f.c) f.k

/-! ### Results -/

/-- A register after a fixed-latency result of L extra turns was issued for it (R84). -/
def cellWrite {α : Type} (old : α) (lat : Nat) (v : α) : Cell α :=
  if lat = 0 then { val := v, st := .now } else { val := old, st := .late (lat + 1) v }

/-- A push: the entry that leaves the queue gives its value to the new one until the result is ready (R80, R81). -/
def Slot.pushCell (x : Slot) (mk : W64 → Cell W64) : Slot :=
  { x with q := (mk (x.qCell 15).val :: x.q).take 16 }

/-- The result of a word. -/
inductive Result where
  | none
  /-- a scalar with its latency (R80, R84) -/
  | one (v : W64) (lat : Nat)
  /-- status and data (R80) -/
  | two (st v : W64) (lat : Nat)
  | vec (v : VImage) (lat : Nat)
  /-- a scalar owed under a tag (R82); `both`: status and data -/
  | owed (tag : Nat) (both : Bool)
  | owedVec (tag : Nat)
  /-- values of named registers, without a push (R99, R103) -/
  | regs (vs : List W64)
  deriving DecidableEq, Repr

/-- Values written to consecutive named registers. -/
def Slot.setRegs (x : Slot) (i : Nat) : List W64 → Slot
  | [] => x
  | v :: vs => ({ x with n := mapSet x.n i { val := v, st := .now } } : Slot).setRegs (i + 1) vs

/-- A fixed-latency result written to D beside its push (R80). -/
def writeReg (s : State) (d : Dst) (v : W64) (lat : Nat) : State :=
  let x := s.me
  match d with
  | .push => s
  | .z => s
  | .n i => s.setMe { x with n := mapSet x.n i.val (cellWrite (x.nCell i.val).val lat v) }
  | .m i => s.setMe { x with m := mapSet x.m i.val { val := v, full := true, topx := x.topx } }
  | .link l => linkPush s s.cur.1 x.thread l v
  | .s i => match appendAddr s i.val with
    | none => s.setMe (x.setSend i.val)
    | some (ea, b) =>
      match resolve s s.cur.1 x.thread b.sp needStore true ea b.bytes with
      | .error _ => s
      | .ok loc =>
        let s := storeLoc s s.cur.1 x.thread .nrm ea loc b.bytes v.toNat
        let x := s.me
        s.setMe { x with streams := mapSet x.streams i.val { b with pos := b.pos + 1 } }

/-- The result of a word delivered to its destination (R80). -/
def writeResult (s : State) (d : Dest) (r : Result) : State :=
  match d, r with
  | .s .z, _ => s
  | .s d, .one v lat =>
    let s := writeReg s d v lat
    s.setMe (s.me.pushCell (fun old => cellWrite old lat v))
  | .s d, .two st v lat =>
    let s := writeReg s d v lat
    s.setMe ((s.me.pushCell (fun old => cellWrite old lat st)).pushCell (fun old => cellWrite old lat v))
  | .s d, .owed tag both =>
    let x := s.me
    let x := match d with
      | .n i => { x with n := mapSet x.n i.val { val := (x.nCell i.val).val, st := .pending tag 1 } }
      | _ => x
    let x := if both then x.pushCell (fun old => { val := old, st := .pending tag 0 }) else x
    s.setMe (x.pushCell (fun old => { val := old, st := .pending tag 1 }))
  | .v r, .vec v lat =>
    let x := s.me
    s.setMe { x with v := mapSet x.v r.val (cellWrite (x.vCell r.val).val lat v) }
  | .v r, .owedVec tag =>
    let x := s.me
    s.setMe { x with v := mapSet x.v r.val { val := (x.vCell r.val).val, st := .pending tag 1 } }
  | .regs a _, .regs vs => s.setMe (s.me.setRegs a vs)
  | _, _ => s

/-- A fixed-latency result one turn nearer (R84). -/
def cellTick {α : Type} (x : Cell α) : Cell α :=
  match x.st with
  | .late n v => if n ≤ 1 then { val := v, st := .now } else { val := x.val, st := .late (n - 1) v }
  | _ => x

/-- A slot at the start of one of its turns (R84). -/
def Slot.tick (x : Slot) : Slot :=
  { x with
    q := x.q.map cellTick
    n := x.n.map (fun e => (e.1, cellTick e.2))
    v := x.v.map (fun e => (e.1, cellTick e.2)) }

/-- The value that a cell holds once its fixed-latency result is ready. -/
def cellFinal {α : Type} (x : Cell α) : α :=
  match x.st with
  | .late _ v => v
  | _ => x.val

/-- A cell after the delivery of a result owed under a tag (R82). -/
def cellDeliver {α : Type} (tag : Nat) (val : Nat → α) (x : Cell α) : Cell α :=
  match x.st with
  | .pending t p => if t = tag then { val := val p, st := .now } else x
  | _ => x

/-- A cell of a context that leaves its slot: its fixed-latency result, if any, is ready long before the thread issues again
(R84). -/
def cellRipe {α : Type} (x : Cell α) : Cell α :=
  match x.st with
  | .late _ v => { val := v, st := .now }
  | _ => x

/-- A context that leaves its slot (R84). -/
def Slot.ripe (x : Slot) : Slot :=
  { x with
    q := x.q.map cellRipe
    n := x.n.map (fun e => (e.1, cellRipe e.2))
    v := x.v.map (fun e => (e.1, cellRipe e.2)) }

/-- A slot after the delivery of a result owed under a tag (R82). -/
def Slot.deliver (x : Slot) (tag : Nat) (val : Nat → W64) (v : VImage) : Slot :=
  { x with
    q := x.q.map (cellDeliver tag val)
    n := x.n.map (fun e => (e.1, cellDeliver tag val e.2))
    v := x.v.map (fun e => (e.1, cellDeliver tag (fun _ => v) e.2))
    owed := x.owed.filter (fun o => o.tag != tag) }

/-- Whether any queue entry or register of a slot is pending (R106, R226). -/
def Slot.anyPending (x : Slot) : Bool :=
  x.q.any cellPending || x.n.any (fun e => cellPending e.2) || x.v.any (fun e => cellPending e.2)

end Sys2Proof.Machine
end

