-- ==== Sys2Proof/Machine/Ops.lean ====
section
/-!
DEFINITION. The shared operations of issue: fetching and entering blocks (R52–R57), taking a trap (R90) and returning from
one (R113), page faults (R200), parking (R87), and the issue of one word (R42, R79, R88, R89).
-/

namespace Sys2Proof.Machine

/-- Outcome of a step of this machine. -/
abbrev Out := Host.Outcome State Fault Refusal

/-! ### Instruction fetch -/

/-- A fetched word, or why there is none. -/
inductive Fetch where
  | word (w : W64)
  | fail (f : Fail)
  | poison
  deriving DecidableEq, Repr

/-- The word at an address, fetched for the current slot (R54, R57): its home's bytes under those that the core itself has
written and not yet written back. Other cores' L1 copies are passed by. A word of a poisoned line, or of a dirty line of its own that
carries an uncorrectable error, is no word (R163, R177, R298). -/
def fetchAt (s : State) (va : W64) : Fetch :=
  match translate s s.cur.1 s.me.thread needFetch va with
  | .error f => .fail f
  | .ok (pa, _) => match homeRead s pa 8 with
    | (_, true) => .poison
    | (v, false) =>
      if ownFlawed s s.cur.1 pa 8 then .poison
      else .word (BitVec.ofNat 64 (leValue (ownBytes s s.cur.1 pa (toBytes 8 v))))

/-- The fetch of an uncorrectable word: its event enters the fault-address queue (R298, R305). -/
def noteFetch (s : State) (va : W64) : State :=
  match translate s s.cur.1 s.me.thread needFetch va with
  | .ok (pa, _) => noteRead s pa
  | .error _ => s

/-- The core sealed by the fetch of an uncorrectable word (R177). -/
def sealFetch (s : State) (va : W64) : State := sealCore (noteFetch s va) s.cur.1 1 va

/-- The words that can be fetched from an address on. All are read as they stand when the block is entered, though the
manual lets an entry that races with a store read each word old or new (R57; DESIGN CHOICE, log 38). -/
def fetchRun (s : State) (va : W64) : Nat → List W64
  | 0 => []
  | n + 1 => match fetchAt s va with
    | .word w => w :: fetchRun s (va + 8) n
    | _ => []

/-- Words of the block the current slot is in: its length field plus 1 (R48). -/
def Slot.len (x : Slot) : Nat := hdrLen (x.block.headD 0)

/-- Address of the word the current slot is at (R77). -/
def Slot.wordAddr (x : Slot) : W64 := x.hdr + 8 * BitVec.ofNat 64 x.idx

/-! ### Page faults and traps -/

/-- The code of a park reason (R87). -/
def Reason.code : Reason → Nat
  | .result => 0
  | .link => 1
  | .stream => 2
  | .message => 3
  | .fullempty => 4
  | .reservation => 5
  | .buffer => 6
  | .barrier => 7
  | .monitor => 8
  | .cld => 9
  | .sleep => 10
  | .grant => 11

/-- The unpark record of a slot that was parked (R345). -/
def traceUnpark (s : State) (c k : Nat) : State :=
  match (s.slot c k).st with
  | .parked r => traceRec s c k 0x4 r.code 0
  | _ => s

/-- The current slot no longer parked, its unpark record written: what a word does before records of its own (R345). -/
def leavePark (s : State) : State :=
  let s := traceUnpark s s.cur.1 s.cur.2
  match s.me.st with
  | .parked _ => s.setMe { s.me with st := .running }
  | _ => s

/-- The current slot faulted by an access (R200): the word stays unissued and a fault message is posted. -/
def pageFault (s : State) (kind : Nat) (va : W64) (flags : Nat) (word : W64) : State :=
  let x := s.me
  let s := traceUnpark s s.cur.1 s.cur.2
  let s := traceRec s s.cur.1 s.cur.2 0x8 kind va.toNat
  let s := s.setMe { s.me with st := .faulted, faultedBy := some .page, entryRead := none }
  sendFault s s.cur.1 s.cur.2 x.thread kind va flags 0 word

/-- An escalation (R90): the slot is faulted and waits for firmware's reply. -/
def escalate (s : State) (tepc : W64) : State :=
  let s := traceRec s s.cur.1 s.cur.2 0x8 0x10 tepc.toNat
  let x := s.me
  let s := s.setMe { x with st := .faulted, faultedBy := some .trap }
  sendFault s s.cur.1 s.cur.2 x.thread 0x10 tepc 0 (x.tcause.toNat % 2 ^ 32) tepc

/-- Taking a trap (R90): the trap registers are written, and control goes to the handler's block, or the slot escalates,
or the fetch of the handler's header takes the page-fault path. -/
def deliverTrap (s : State) (tepc : W64) (idx : Nat) (t : Trap) : State :=
  let s := traceUnpark s s.cur.1 s.cur.2
  let x := s.me
  let s := s.setMe { x with
    st := .running, tepc := tepc, tcause := causeWord t idx, retry := false, suspect := false, held := none, entryRead := none }
  let s := traceRec s s.cur.1 s.cur.2 0x5 ((causeWord t idx).toNat % 2 ^ 32) tepc.toNat
  let x := s.me
  if x.tvec != 0 && !x.tin then
    match fetchAt s x.tvec with
    | .word w =>
      if isHeader w then
        let s := if x.entering then s else traceExit s s.cur.1 s.cur.2 x.lastIdx
        s.setMe { s.me.setTin with
          hdr := x.tvec, idx := 1, block := [], entering := true, passed := 0, lastIdx := 0, sleepLeft := none }
      else escalate s tepc
    | .fail (.page va flags) => pageFault s 4 va flags tepc
    | .fail (.trap _) => escalate s tepc
    | .poison => sealFetch s x.tvec
  else escalate s tepc

/-- A trap raised by the word at the current position (R88). -/
def trapHere (s : State) (t : Trap) : State := deliverTrap s s.me.wordAddr s.me.idx t

/-- A failing access of the word at the current position: a trap, or a page fault of a kind of R201. -/
def failHere (s : State) (kind : Nat) (f : Fail) : State :=
  match f with
  | .trap t => trapHere s t
  | .page va flags => pageFault s kind va flags s.me.wordAddr

/-- A failing fetch at an address: the word stays unissued, or ACCESS is taken at that address. -/
def failFetch (s : State) (va : W64) (idx : Nat) (f : Fail) : State :=
  match f with
  | .trap t => deliverTrap s va idx t
  | .page fa flags => pageFault s 4 fa flags va

/-- The position that ERET goes to (R113), or the header address of its BADTGT. -/
inductive Return where
  | position (hdr : W64) (idx : Nat)
  | bad (hdr : W64)
  | fail (f : Fail)
  | poison
  deriving DecidableEq, Repr

/-- Address of the header that a saved word address and instruction index name (R113). -/
def returnHdr (tepc : W64) (idx : Nat) : W64 := tepc - 8 * BitVec.ofNat 64 idx

/-- The return from a trap (R113), from a saved word address and instruction index. -/
def returnTo (s : State) (tepc : W64) (idx : Nat) : Return :=
  let hdr := returnHdr tepc idx
  if idx = 0 || hdr.toNat % 8 != 0 then .bad hdr
  else match fetchAt s hdr with
    | .fail f => .fail f
    | .poison => .poison
    | .word w => if !isHeader w || hdrLen w + 2 < idx then .bad hdr else .position hdr idx

/-! ### Parking -/

/-- The current slot parked for a reason, its word unissued (R87). -/
def parkHere (s : State) (r : Reason) : State :=
  let x := s.me
  if x.st = .parked r then s
  else
    let s := traceUnpark s s.cur.1 s.cur.2
    let s := traceRec s s.cur.1 s.cur.2 0x3 (r.code + 256 * x.idx) x.hdr.toNat
    s.setMe { s.me with st := .parked r }

/-! ### Position -/

/-- Where control goes after a word. -/
inductive Pos where
  /-- the next word -/
  | seq
  /-- past c further words (R55) -/
  | skip (c : Nat)
  /-- the block whose header is at an address, which has been checked (R54) -/
  | jump (target : W64)
  /-- a word of a block (R113), of which those before it count as issued (R345; DEDUCED, log 36) -/
  | at_ (hdr : W64) (idx : Nat)
  /-- the slot holds this thread no more -/
  | gone
  deriving DecidableEq, Repr

/-- The slot after one of its words has issued with a stall count (R79, R105). -/
def Slot.issued (x : Slot) (stall : Nat) : Slot :=
  { x with st := .running, stall := stall, since := 0, sleepLeft := none, msgWake := false, retry := false, held := none,
           arrived := none, asked := false, granted := none, lastIdx := x.idx, entryRead := none }

/-- Bits of the pass-over bitmap for c words after index i (R345). -/
def passBits (i c : Nat) : Nat := (2 ^ c - 1) * 2 ^ i

/-- The current slot moved after its word issued. -/
def moveOn (s : State) (stall : Nat) (p : Pos) : State :=
  match p with
  | .gone => s
  | .seq => let x := s.me; s.setMe { x.issued stall with idx := x.idx + 1 }
  | .skip c =>
    let x := s.me
    s.setMe { x.issued stall with idx := x.idx + 1 + c, passed := x.passed ||| passBits x.idx c }
  | .jump t =>
    let s := traceExit s s.cur.1 s.cur.2 s.me.idx
    s.setMe { s.me.issued stall with hdr := t, idx := 1, block := [], entering := true, passed := 0 }
  | .at_ h i =>
    let s := traceExit s s.cur.1 s.cur.2 s.me.idx
    s.setMe { s.me.issued stall with hdr := h, idx := i, block := [], passed := 0, lastIdx := i - 1 }

/-! ### Entering blocks -/

/-- The words of the block whose header control has reached fetched, the header again among them (R52, R57), or the state after
the trap or fault there; an address that is not a multiple of 8 is no target (R54). The manual does not say whether the ILLEGAL of
a header with 17 to 31 live entries uses a turn: it is taken when the slot would issue the block's first word, whose turn it
uses. Nor does it say what becomes of a header that a racing store has taken away since it was checked: that is BADTGT with the
header's address and index 0 (DESIGN CHOICE, log 38). -/
def enterHere (s : State) : Bool × State :=
  let x := s.me
  if x.hdr.toNat % 8 != 0 then (false, deliverTrap s x.hdr 0 (trapBadtgt x.hdr))
  else match fetchAt s x.hdr with
  | .fail f => (false, failFetch s x.hdr 0 f)
  | .poison => (false, sealFetch s x.hdr)
  | .word h =>
    if !isHeader h then (false, deliverTrap s x.hdr 0 (trapBadtgt x.hdr))
    else if 16 < hdrLiveq h then (false, deliverTrap s x.hdr 0 trapIllegal)
    else
      let s := s.setMe { x with
        idx := 1, block := h :: fetchRun s (x.hdr + 8) (hdrLen h + 1), entering := false, passed := 0, lastIdx := 0 }
      (true, if hdrQuiet h then s else traceRec s s.cur.1 s.cur.2 0x1 0 x.hdr.toNat)

/-- The words of a block that the slot is within, fetched again after a restore or a return (R52). -/
def refetch (s : State) : Bool × State :=
  let x := s.me
  match fetchAt s x.hdr with
  | .fail f => (false, failFetch s x.hdr 0 f)
  | .poison => (false, sealFetch s x.hdr)
  | .word h =>
    if !isHeader h then (false, deliverTrap s x.hdr 0 (trapBadtgt x.hdr))
    else (true, s.setMe { x with block := h :: fetchRun s (x.hdr + 8) (hdrLen h + 1) })

/-- Control that fell out of the block's last word reaches the next header (R53). -/
def fallThrough (s : State) : Bool × State :=
  let x := s.me
  let nxt := x.hdr + 8 * BitVec.ofNat 64 (x.len + 2)
  match fetchAt s nxt with
  | .fail f => (false, failFetch s nxt x.idx f)
  | .poison => (false, sealFetch s nxt)
  | .word h =>
    if !isHeader h then (false, deliverTrap s nxt x.idx (trapBadtgt nxt))
    else
      let s := traceExit s s.cur.1 s.cur.2 x.lastIdx
      enterHere (s.setMe { s.me with hdr := nxt, idx := 1, block := [], entering := true, passed := 0 })

/-- The current slot brought to the word it is to issue: the block entered or its words fetched again, and a fall-through
resolved. False: the turn was spent on a trap or fault. -/
def reachWord (s : State) : Bool × State :=
  let x := s.me
  if x.entering then enterHere s
  else
    match if x.block = [] then refetch s else (true, s) with
    | (false, s) => (false, s)
    | (true, s) => if s.me.len + 2 ≤ s.me.idx then fallThrough s else (true, s)

/-- The current slot after its turn: where control has reached a header, by a transfer or out of a block, the block is entered
at once (R52, R53). A trap or fault there is met when the slot would issue its next word. -/
def reachNext (s : State) : State :=
  let x := s.me
  if x.st = .running ∧ (x.entering ∨ x.block = [] ∨ x.len + 2 ≤ x.idx) then
    let r := reachWord s
    if r.1 then r.2 else s
  else s

/-- The word the current slot is to issue; where the block's words could not all be fetched on entry, the rest is fetched
once its first word is reached, and kept (R57), and what a skip has passed by is no longer needed; or the state after the
fault of that fetch. -/
def wordHere (s : State) : Option W64 × State :=
  let x := s.me
  match x.block[x.idx]? with
  | some w => (some w, s)
  | none => match fetchAt s x.wordAddr with
    | .word w =>
      let gap := List.replicate (x.idx - x.block.length) 0
      (some w, s.setMe { x with
        block := x.block ++ gap ++ fetchRun s x.wordAddr (hdrLen (x.block.headD 0) + 2 - x.idx) })
    | .fail f => (none, failFetch s x.wordAddr x.idx f)
    | .poison => (none, sealFetch s x.wordAddr)

/-! ### Issue -/

/-- What a word does once its operands are there. -/
inductive Act where
  /-- it issues: the state after its effect, its result, where control goes, and whether it read a signalling NaN -/
  | done (s : State) (r : Result) (p : Pos) (snan : Bool)
  /-- an access fails: the kind of R201 for a page fault -/
  | fail (kind : Nat) (f : Fail)
  /-- it waits by its own definition; the function is what waiting changes -/
  | park (r : Reason) (f : State → State)
  /-- the turn passes unused (R221) -/
  | busy
  /-- it would commit an uncorrectable datum (R177): the state in which the event stands in the fault-address queue -/
  | poison (s : State)

/-- Whether a slot may issue a word (R78, R86): a parked word is tried at each turn of its slot. -/
def Slot.mayIssue (x : Slot) : Bool :=
  match x.st with
  | .running => true
  | .parked _ => true
  | _ => false

/-- What a word checks before its operands are awaited (R89): `pre` its ILLEGAL, PRIV and FORMAT_MODE conditions, `mid`
its HANDLE_KIND, ALIGN and ACCESS conditions, both on the values that can be read. -/
structure Checks where
  pre : State → Avail → Option Trap
  mid : State → Avail → Option Trap

/-- A word without checks of its own. -/
def noChecks : Checks := { pre := fun _ _ => none, mid := fun _ _ => none }

/-- A failing source or destination access that is a trap. -/
def operandTrap (s : State) (f : Form) (x : Avail) : Option Trap :=
  match x.trap, destFail s f.d with
  | some t, _ => some t
  | none, some (.trap t) => some t
  | none, _ => none

/-- The first trap of a word, in the order of R89. -/
def firstTrap (s : State) (f : Form) (ck : Checks) (x : Avail) : Option Trap :=
  firstOf [ck.pre s x, if topxDiffers s f then some (trapFormat 0xFF) else none, noLinkTrap s f, sealedTrap s f,
    stallTrap s f x, ck.mid s x, operandTrap s f x]

/-- A word that has issued: its result delivered, status noted, the slot moved on. -/
def finish (s : State) (d : Dest) (stall : Nat) (r : Result) (p : Pos) (snan : Bool) : State :=
  let s := writeResult s d r
  let s := if snan then s.setMe (s.me.noteSnan true) else s
  let s := match p with
    | .gone => s
    | _ => traceUnpark s s.cur.1 s.cur.2
  moveOn s stall p

/-- The opcode of the word that the current slot is at. -/
def Slot.opcode (x : Slot) : Nat := ((x.block[x.idx]?).getD 0).toNat / 2 ^ 56

/-- The checker disagrees with the word that the current slot would commit (R133–R135): nothing of it is kept and the event is
reported; the word executes again from the same operands at the slot's next turn, and a second disagreement seals the
core. -/
def rejectWord (s : State) : State :=
  let x := s.me
  if x.retry then sealCore s s.cur.1 2 x.wordAddr
  else
    let s := traceUnpark s s.cur.1 s.cur.2
    let cut := [Dir.dn, .de, .ds, .dw].filter (fun d => peerSealed s d)
    let s := s.setMe { s.me with
      st := .running, retry := true, suspect := false, held := some { q := x.q, n := x.n, v := x.v, cut := cut } }
    sendFault s s.cur.1 s.cur.2 x.thread 0x12 x.wordAddr 0 x.opcode x.wordAddr

/-- What a word's own part of the issue answers, its sources consumed in `s1`, from the state before it. A word that would
commit passes the checker first. -/
def conclude (s : State) (d : Dest) (stall : Nat) : Act → State
  | .done s' r p snan => if s.me.suspect then rejectWord s else finish s' d stall r p snan
  | .fail _ (.trap t) => if s.me.suspect then rejectWord s else trapHere s t
  | .fail kind f => failHere s kind f
  | .park r f => parkHere (f s) r
  | .busy => s
  | .poison s' => sealCore s' s.cur.1 1 s.me.wordAddr

/-- A word parked before its operands are taken; where it is the walk for its append alone that it waits for, the walk is under
way (R189). -/
def parkOperands (s : State) (f : Form) (x : Avail) (r : Reason) : State :=
  match x.reason, appendWalk s f.d with
  | none, some ea => parkHere (postOnce s (.translationWalk s.cur.1 s.cur.2 ea .write)) r
  | _, _ => parkHere s r

/-- A pop of an uncorrectable element: its read enters the fault-address queue (R298, R305). -/
def noteElement (s : State) (x : Opnd) : State :=
  match x with
  | .s (.s k) =>
    let b := s.me.stream k.val
    let ea := b.addr b.pos
    match resolve s s.cur.1 s.me.thread b.sp needLoad true ea b.bytes with
    | .ok loc => (loadLoc s s.cur.1 s.me.thread .noal ea loc b.bytes).2.2
    | .error _ => s
  | _ => s

/-- The issue of one word by the current slot (R42, R88, R89): traps first, then waits, then page faults of operands, then
the word's own part on the state without the elements it pops. -/
def issue (stall : BitVec 3) (f : Form) (ck : Checks) (body : State → Vals → Act) (s : State) : Out :=
  if !s.me.mayIssue then .fault .noThread
  else
    let x := avail s f
    match firstTrap s f ck x with
    | some t => .next (if s.me.suspect && stallTrap s f x != some t then rejectWord s else trapHere s t)
    | none => match firstOf [x.reason, destReason s f.d] with
      | some r => .next (parkOperands s f x r)
      | none => match firstOf [x.fail.map (fun e => (1, e)), (destFail s f.d).map (fun e => (2, e))] with
        | some (kind, e) => .next (failHere s kind e)
        | none =>
          if x.poison then .next (sealCore (f.fields.foldl noteElement s) s.cur.1 1 s.me.wordAddr)
          else match x.vals with
            | some v => .next (conclude s f.d stall.toNat (body (consumeAll s f) v))
            | none => .next s

/-- A word whose result is a function of its sources, with a fixed latency (R84). -/
def pureAct (r : Result) (snan : Bool) (s : State) : Act := .done s r .seq snan

end Sys2Proof.Machine
end

