-- ==== Sys2Proof/Machine/Threads.lean ====
section
/-!
DEFINITION. Threads and gangs leaving their slots: the end of a thread (R106), the end of a gang (R172, R179, R185, R202),
and a slot that becomes free (R204).
-/

namespace Sys2Proof.Machine

/-- An emptied slot (R86, R106): bindings dropped, full bits cleared, nothing owed; the registers, and the progress record of
a load that has ended (R208), keep their values until the next placement. -/
def Slot.emptied (x : Slot) : Slot :=
  { x with
    st := .empty, lent := false, faultedBy := none, streams := [], m := x.m.map (fun e => (e.1, { e.2 with full := false }))
    fetcher := Fetcher.reset, monitor := Monitor.reset
    record := if x.record.state == .running || x.record.state == .faulted then Record.reset else x.record, owed := [], arrived := none
    asked := false, granted := none, sleepLeft := none, msgWake := false, retry := false, suspect := false, held := none
    stall := 0, block := [], entering := false, fence := none, entryRead := none
    q := x.q.map (fun e => { e with st := .now }), n := x.n.map (fun e => (e.1, { e.2 with st := .now }))
    v := x.v.map (fun e => (e.1, { e.2 with st := .now })) }

/-- A slot emptied: its inbox entries are discarded (R223), and a woken thread that waits takes it (R204). The core's dirty SC
lines are written back first, so that a retirement publishes them and a thread that moves on sees its own stores (R241,
R263, R264). -/
def freeSlot (s : State) (c k : Nat) : State :=
  let s := scRelease s c
  let s := s.setSlot c k (s.slot c k).emptied
  let x := s.core c
  let s := s.setCore c { x with inbox := x.inbox.filter (fun e => e.slot != k) }
  if x.waiting.isEmpty then s else s.post [.reinstatement c]

/-- What a gang held on a core freed: operand slots, buffers, link words (R136, R172, R185). -/
def releaseCore (id : GangId) (x : Core) : Core :=
  { x with
    opslots := x.opslots.filter (fun e => e.2.owner != some id)
    cbufs := x.cbufs.map (fun e => (e.1, if e.2.owner = some id then CBuf.reset else e.2))
    links := x.links.filter (fun f => f.gang != id)
    waiting := x.waiting.filter (fun y => (y.thread.launch, y.thread.gang) != id)
    spilled := x.spilled.filter (fun y => (y.2.2.thread.launch, y.2.2.thread.gang) != id) }

/-- A gang whose last thread has ended, or that has been ended: its reservations are free. -/
def removeGang (s : State) (id : GangId) : State :=
  let s := { s with
    gangs := s.gangs.filter (fun g => g.id != id)
    cores := s.cores.map (fun e => (e.1, releaseCore id e.2)) }
  postOnce (postOnce s (.launchRetirement id.1)) .gangPlacement

/-- A placed gang with one thread fewer. A gang whose last thread has left ends in the step that looks whether its launch is done,
so that what it held stands as it was when the thread has exited (R208). -/
def threadLeft (s : State) (t : Thread) : State :=
  let id := (t.launch, t.gang)
  let s := { s with gangs := s.gangs.map (fun g => if g.id == id then { g with live := g.live - 1 } else g) }
  if s.gangs.any (fun g => g.id == id && g.live == 0) then postOnce s (.launchRetirement id.1) else s

/-- The gangs of a launch whose last thread has left ended (R136, R172, R185). -/
def endSpent (s : State) (launch : Nat) : State :=
  (s.gangs.filter (fun g => g.id.1 == launch && g.live == 0)).foldl (fun s g => removeGang s g.id) s

/-- REDs of threads that are gone: a failure of one drops it (R240). -/
def leaveReds (s : State) (p : Thread → Bool) : State :=
  { s with reds := s.reds.map (fun r => if p r.thr then { r with left := true } else r) }

/-- The end of a thread (R106, R303): its slot is empty and its reservations pass on. -/
def endThread (s : State) (c k : Nat) : State :=
  let t := (s.slot c k).thread
  let s := leaveReds (resDrop s (fun e => e.tid == BitVec.ofNat 64 (threadId t))) (fun u => threadId u == threadId t)
  threadLeft (freeSlot s c k) t

/-- The slots of a core that hold threads of a gang. -/
def gangSlots (x : Core) (id : GangId) : List Nat :=
  (x.slots.filter (fun e => e.2.st != .empty && e.2.st != .sealed && (e.2.thread.launch, e.2.thread.gang) == id)).map (·.1)

/-- Slots of one core emptied. -/
def freeSlots (s : State) (c : Nat) : List Nat → State
  | [] => s
  | k :: ks => freeSlots (freeSlot s c k) c ks

/-- The threads of a gang leaving the slots of listed cores. -/
def freeGangOn (s : State) (id : GangId) : List Nat → State
  | [] => s
  | c :: cs => freeGangOn (freeSlots s c (gangSlots (s.core c) id)) id cs

/-- The slots of the package that hold threads of a gang. -/
def gangPlaces (s : State) (id : GangId) : List (Nat × Nat) :=
  s.cores.flatMap (fun e : Nat × Core => (gangSlots e.2 id).map (fun k => (e.1, k)))

/-- Grants held by slots given back (R225). -/
def dropGrants (s : State) : List (Nat × Nat) → State
  | [] => s
  | (c, k) :: es => match (s.slot c k).granted with
    | some (d, p) => dropGrants (dropReasm s d p) es
    | none => dropGrants s es

/-- The woken threads that wait on cores take the slots that are free there (R204). -/
def offerSlots (s : State) : State :=
  s.cores.foldl (fun s e => if e.2.waiting.isEmpty then s else postOnce s (.reinstatement e.1)) s

/-- A gang ended by firmware (R202, R241): its threads end, those on their way between two slots too, what they held passes on, a
cluster that was kept for it is free again (R252), and its launch carries an error. -/
def endGang (s : State) (id : GangId) : State :=
  let tids := (List.range 256).map (fun i =>
    BitVec.ofNat 64 (threadId { Thread.none with launch := id.1, gang := id.2, index := i }))
  let s := leaveReds (resDrop s (fun e => tids.contains e.tid)) (fun u => (u.launch, u.gang) == id)
  let s := freeGangOn (dropGrants s (gangPlaces s id)) id s.coreKeys
  let s := { s with
    cores := s.cores.map (fun e => (e.1, { e.2 with reasm := e.2.reasm.filter (fun q => q.gang != id) }))
    clusters := s.clusters.map (fun e => (e.1, if e.2.reserving = some id then { e.2 with reserving := none } else e.2))
    launches := s.launches.map (fun e => (e.1, if e.1 = id.1 then { e.2 with err := true } else e.2))
    saved := s.saved.filter (fun g => g.gang.id != id) }
  offerSlots (removeGang s id)

end Sys2Proof.Machine
end

