-- ==== Sys2Proof/Machine/Claims.lean ====
section
/-!
DEFINITION. Operations at a line's home that no word waits for in its slot: read-modify-writes (R239), their late translation
(R102, R240), and the claims of the iteration fetcher (R102, R104).
-/

namespace Sys2Proof.Machine

/-! ### Read-modify-writes (R239) -/

/-- The L1 copies that leave before an operation at a line's home: the issuing core's own, written back, and on an HC page
every other (R239). -/
def leaveHome (s : State) (c pa : Nat) (leaf : W64) : State :=
  let s := flushFrom s (fun l => l.pline / 2 == pa / 64) [c]
  if leafClass leaf = 0 then dirWrite (dropCopies s pa 1 none) pa none else s

/-- One read-modify-write of n bytes at a resolved location: the old value, and the state with the new value where there
is one. -/
def rmw (s : State) (c : Nat) (loc : Loc) (n : Nat) (f : Nat → Option Nat) : Nat × State :=
  match loc with
  | .spd k o =>
    let x := s.core k
    let old := readLe x.spd o n
    (old, match f old with
      | some v => s.setCore k (x.putSpd o n v)
      | none => s)
  | .chip d o =>
    let x := s.die d
    let old := readLe x.chip o n
    (old, match f old with
      | some v => s.setDie d { x with chip := writeLe x.chip o n v }
      | none => s)
  | .mem pa leaf =>
    let s := leaveHome s c pa leaf
    let old := (homeRead s pa n).1
    (old, match f old with
      | some v => homeWrite s none (leafClass leaf == 0) pa (toBytes n v)
      | none => s)
  | .hit _ _ => (0, s)

/-- The translation of an atomic operation that no word stands behind any more: its location, or the flags of its
failure (R102, R201, R240). -/
def latePlace (s : State) (core : Nat) (t : Thread) (addr : W64) : Except Nat (Nat × W64) :=
  match lookup s core t.part t.asid addr.toNat with
  | .fail level => .error (level * 4)
  | .access level => .error (2 + level * 4)
  | .leaf large e =>
    let pa := leafAddr large e (addr.toNat % 2 ^ 55)
    let hbm := match regionOf pa with | .hbm _ => true | _ => false
    if !hbm || !leafW e || (leafClass e == 2 && leafOwner e != core) then .error (2 + (if large then 8 else 12))
    else .ok (pa, e)

/-! ### Iteration claims (R102) -/

/-- A dimension or count whose zero reads as another number (R100). -/
def zeroAs (d v : Nat) : Nat := if v = 0 then d else v

/-- Size of the chunk that a claim takes from a counter; none: exhausted. -/
def claimSize (f : Fetcher) (c : Nat) : Option Nat :=
  if f.total ≤ c then none
  else
    let left := f.total - c
    let minc := zeroAs 1 f.minc
    let k := if f.guided = 0 then minc
      else
        let d := f.guided * zeroAs 1 f.parties
        max minc ((left + d - 1) / d)
    some (min k left)

/-- The fetcher after the answer of its claim: the chunk, or exhaustion. -/
def Fetcher.answered (f : Fetcher) (c : Nat) : Fetcher :=
  match claimSize f c with
  | some k => { f with next := some (c, c + k), claiming := false }
  | none => { f with exhausted := true, claiming := false }

/-- The claim of a slot's fetcher: one read-modify-write of `claimed`; a claim that faults posts its message and waits for
firmware. -/
def performClaim (s : State) (core slot : Nat) : State :=
  let x := s.slot core slot
  let f := x.fetcher
  let ea := f.desc + 8
  if !f.bound || !f.claiming || f.failed then s
  else match latePlace s core x.thread ea with
    | .error flags =>
      let s := traceRec s core slot 0x8 6 ea.toNat
      let x := s.slot core slot
      sendFault (s.setSlot core slot { x with fetcher := { f with failed := true } }) core slot x.thread 6 ea flags 0 f.word
    | .ok (pa, leaf) =>
      let s := tlbFill s core x.thread.part x.thread.asid ea.toNat
      let s := leaveHome s core pa leaf
      if s.poisoned pa then sealCore (noteBad s pa true) core 1 f.word
      else
        let (c, s) := rmw s core (.mem pa leaf) 8 (fun c => (claimSize f c).map (fun k => c + k))
        s.setSlot core slot { s.slot core slot with fetcher := f.answered c }

/-- Whether a RED of a slot's thread to the counter's bytes is still to be performed: the claim comes after it (R264). -/
def claimBehind (s : State) (core slot : Nat) : Bool :=
  let x := s.slot core slot
  x.claimOut && s.reds.any (fun r => r.of x.thread && r.meets s (x.fetcher.desc + 8) 8)

/-- ITERATION_CLAIM (R102). -/
def execIterationClaim (core slot : Nat) (s : State) : Out :=
  .next (if claimBehind s core slot then s.post [.iterationClaim core slot] else performClaim s core slot)

/-- What a thread that leaves its fetcher has started is performed, and the indices are abandoned (R104). -/
def settleClaim (s : State) : State := performClaim s s.cur.1 s.cur.2

end Sys2Proof.Machine
end

