-- ==== Sys2Proof/Machine/Int.lean ====
section
/-!
DEFINITION. Integer, bit, compare, select and immediate words (R92–R97).
-/

namespace Sys2Proof.Machine

/-- The operand forms of register words (R42, R46). -/
def formA (a : Src) (d : Dst) : Form := { noOperands with a := .s a, d := .s d }
def formAB (a b : Src) (d : Dst) : Form := { noOperands with a := .s a, b := .s b, d := .s d }
def formABC (a b c : Src) (d : Dst) : Form := { noOperands with a := .s a, b := .s b, c := .s c, d := .s d }

/-- The immediate of an I-format word, extended by ZX (R40). -/
def extImm (zx : Bool) (imm : BitVec 32) : W64 := if zx then imm.zeroExtend 64 else imm.signExtend 64

/-- The operand form of an I-format word with a result. -/
def formI (a : Src) (d : Dst) (imm : W64) : Form := { noOperands with a := .s a, d := .s d, imm := imm }

/-! ### Integer arithmetic (R92, R93) -/

/-- The operations of opcodes 0x01 and 0x02. -/
inductive IntOp where
  | add | sub | mul | mulh | mulhu | div | divu | rem | remu | and | or | xor | andn | shl | shr | sra | rot
  | min | max | minu | maxu
  deriving DecidableEq, Repr

/-- An operation at its width (R92, R93). -/
def intAlu {w : Nat} (op : IntOp) (x y : BitVec w) : BitVec w :=
  match op with
  | .add => x + y
  | .sub => x - y
  | .mul => x * y
  | .mulh => BitVec.ofInt w (x.toInt * y.toInt / (2 ^ w : Nat))
  | .mulhu => BitVec.ofNat w (x.toNat * y.toNat / 2 ^ w)
  | .div => if y = 0 then BitVec.allOnes w else x.sdiv y
  | .divu => if y = 0 then BitVec.allOnes w else x.udiv y
  | .rem => if y = 0 then x else x.srem y
  | .remu => if y = 0 then x else x.umod y
  | .and => x &&& y
  | .or => x ||| y
  | .xor => x ^^^ y
  | .andn => x &&& ~~~y
  | .shl => x <<< (y.toNat % w)
  | .shr => x >>> (y.toNat % w)
  | .sra => x.sshiftRight (y.toNat % w)
  | .rot => x.rotateLeft (y.toNat % w)
  | .min => if x.slt y then x else y
  | .max => if x.slt y then y else x
  | .minu => if x.ult y then x else y
  | .maxu => if x.ult y then y else x

/-- An operation on 64-bit operands: .W reads the low halves and writes its result sign-extended (R58, R92). -/
def intResult (op : IntOp) (ty : WTy) (a b : W64) : W64 :=
  match ty with
  | .d => intAlu op a b
  | .w => (intAlu op (a.setWidth 32) (b.setWidth 32)).signExtend 64

/-- A word whose result is a function of A and B. -/
def wordAB (stall : BitVec 3) (a b : Src) (d : Dst) (lat : Nat) (f : W64 → W64 → W64) (s : State) : Out :=
  issue stall (formAB a b d) noChecks (fun s v => .done s (.one (f v.a v.b) lat) .seq false) s

/-- A word whose result is a function of A. -/
def wordA (stall : BitVec 3) (a : Src) (d : Dst) (lat : Nat) (f : W64 → W64) (s : State) : Out :=
  issue stall (formA a d) noChecks (fun s v => .done s (.one (f v.a) lat) .seq false) s

/-- A word whose result is a function of A, B and C. -/
def wordABC (stall : BitVec 3) (a b c : Src) (d : Dst) (lat : Nat) (f : W64 → W64 → W64 → W64) (s : State) : Out :=
  issue stall (formABC a b c d) noChecks (fun s v => .done s (.one (f v.a v.b v.c) lat) .seq false) s

/-- INT-R (R92). -/
def intR (op : IntOp) (lat : Nat) (x : IntR) (s : State) : Out := wordAB x.stall x.a x.b x.d lat (intResult op x.w) s

/-- INT-I (R92). -/
def intI (op : IntOp) (lat : Nat) (x : IntI) (s : State) : Out :=
  issue x.stall (formI x.a x.d (extImm x.zx x.imm)) noChecks
    (fun s v => .done s (.one (intResult op x.w v.a (extImm x.zx x.imm)) lat) .seq false) s

/-- ADD (R92). -/
def execAdd (x : IntR) (s : State) : Out := intR .add 0 x s

/-- ADD with an immediate (R92). -/
def execAddImm (x : IntI) (s : State) : Out := intI .add 0 x s

/-- SUB (R92). -/
def execSub (x : IntR) (s : State) : Out := intR .sub 0 x s

/-- SUB with an immediate (R92). -/
def execSubImm (x : IntI) (s : State) : Out := intI .sub 0 x s

/-- MUL (R92). -/
def execMul (x : IntR) (s : State) : Out := intR .mul 0 x s

/-- MUL with an immediate (R92). -/
def execMulImm (x : IntI) (s : State) : Out := intI .mul 0 x s

/-- MULH (R92). -/
def execMulh (x : IntR) (s : State) : Out := intR .mulh 0 x s

/-- MULH with an immediate (R92). -/
def execMulhImm (x : IntI) (s : State) : Out := intI .mulh 0 x s

/-- MULHU (R92). -/
def execMulhu (x : IntR) (s : State) : Out := intR .mulhu 0 x s

/-- MULHU with an immediate (R92). -/
def execMulhuImm (x : IntI) (s : State) : Out := intI .mulhu 0 x s

/-- DIV (R92, R93). -/
def execDiv (x : IntR) (s : State) : Out := intR .div 3 x s

/-- DIV with an immediate (R92, R93). -/
def execDivImm (x : IntI) (s : State) : Out := intI .div 3 x s

/-- DIVU (R92, R93). -/
def execDivu (x : IntR) (s : State) : Out := intR .divu 3 x s

/-- DIVU with an immediate (R92, R93). -/
def execDivuImm (x : IntI) (s : State) : Out := intI .divu 3 x s

/-- REM (R92, R93). -/
def execRem (x : IntR) (s : State) : Out := intR .rem 3 x s

/-- REM with an immediate (R92, R93). -/
def execRemImm (x : IntI) (s : State) : Out := intI .rem 3 x s

/-- REMU (R92, R93). -/
def execRemu (x : IntR) (s : State) : Out := intR .remu 3 x s

/-- REMU with an immediate (R92, R93). -/
def execRemuImm (x : IntI) (s : State) : Out := intI .remu 3 x s

/-- AND (R92). -/
def execAnd (x : IntR) (s : State) : Out := intR .and 0 x s

/-- AND with an immediate (R92). -/
def execAndImm (x : IntI) (s : State) : Out := intI .and 0 x s

/-- OR (R92). -/
def execOr (x : IntR) (s : State) : Out := intR .or 0 x s

/-- OR with an immediate (R92). -/
def execOrImm (x : IntI) (s : State) : Out := intI .or 0 x s

/-- XOR (R92). -/
def execXor (x : IntR) (s : State) : Out := intR .xor 0 x s

/-- XOR with an immediate (R92). -/
def execXorImm (x : IntI) (s : State) : Out := intI .xor 0 x s

/-- ANDN (R92). -/
def execAndn (x : IntR) (s : State) : Out := intR .andn 0 x s

/-- ANDN with an immediate (R92). -/
def execAndnImm (x : IntI) (s : State) : Out := intI .andn 0 x s

/-- SHL (R92). -/
def execShl (x : IntR) (s : State) : Out := intR .shl 0 x s

/-- SHL with an immediate (R92). -/
def execShlImm (x : IntI) (s : State) : Out := intI .shl 0 x s

/-- SHR (R92). -/
def execShr (x : IntR) (s : State) : Out := intR .shr 0 x s

/-- SHR with an immediate (R92). -/
def execShrImm (x : IntI) (s : State) : Out := intI .shr 0 x s

/-- SRA (R92). -/
def execSra (x : IntR) (s : State) : Out := intR .sra 0 x s

/-- SRA with an immediate (R92). -/
def execSraImm (x : IntI) (s : State) : Out := intI .sra 0 x s

/-- ROT (R92). -/
def execRot (x : IntR) (s : State) : Out := intR .rot 0 x s

/-- ROT with an immediate (R92). -/
def execRotImm (x : IntI) (s : State) : Out := intI .rot 0 x s

/-- MIN (R92). -/
def execMin (x : IntR) (s : State) : Out := intR .min 0 x s

/-- MIN with an immediate (R92). -/
def execMinImm (x : IntI) (s : State) : Out := intI .min 0 x s

/-- MAX (R92). -/
def execMax (x : IntR) (s : State) : Out := intR .max 0 x s

/-- MAX with an immediate (R92). -/
def execMaxImm (x : IntI) (s : State) : Out := intI .max 0 x s

/-- MINU (R92). -/
def execMinu (x : IntR) (s : State) : Out := intR .minu 0 x s

/-- MINU with an immediate (R92). -/
def execMinuImm (x : IntI) (s : State) : Out := intI .minu 0 x s

/-- MAXU (R92). -/
def execMaxu (x : IntR) (s : State) : Out := intR .maxu 0 x s

/-- MAXU with an immediate (R92). -/
def execMaxuImm (x : IntI) (s : State) : Out := intI .maxu 0 x s

/-! ### Bit operations (R94) -/

/-- Width of an integer type (R43). -/
def tyWidth : IntTy → Nat
  | .d => 64
  | .w => 32
  | .h => 16
  | .b => 8

/-- The low w bits of a word. -/
def lowBits (w : Nat) (a : W64) : Nat := a.toNat % 2 ^ w

/-- A result marked pattern: sign-extended from bit w − 1. -/
def pattern (w v : Nat) : W64 := (BitVec.ofNat w v).signExtend 64

/-- Number of one bits among the low n. -/
def popCount (v : Nat) : Nat → Nat
  | 0 => 0
  | n + 1 => (v.testBit n).toNat + popCount v n

/-- Leading zero bits of a w-bit value. -/
def clz (v : Nat) : Nat → Nat
  | 0 => 0
  | n + 1 => if v.testBit n then 0 else 1 + clz v n

/-- Trailing zero bits, from bit i on, among n further bits. -/
def ctzFrom (v i : Nat) : Nat → Nat
  | 0 => 0
  | n + 1 => if v.testBit i then 0 else 1 + ctzFrom v (i + 1) n

/-- Bits reversed within the low w: bit i moves to bit w − 1 − i. -/
def revBits (v w : Nat) : Nat → Nat
  | 0 => 0
  | n + 1 => (v.testBit n).toNat * 2 ^ (w - 1 - n) + revBits v w n

/-- The unary operations of opcode 0x03. -/
inductive BitOp where
  | clz | ctz | popc | brev | sext | zext | abs | neg
  deriving DecidableEq, Repr

/-- A unary bit operation (R94). -/
def bitResult (op : BitOp) (ty : IntTy) (a : W64) : W64 :=
  let w := tyWidth ty
  let x := lowBits w a
  match op with
  | .clz => BitVec.ofNat 64 (clz x w)
  | .ctz => BitVec.ofNat 64 (ctzFrom x 0 w)
  | .popc => BitVec.ofNat 64 (popCount x w)
  | .brev => pattern w (revBits x w w)
  | .sext => pattern w x
  | .zext => BitVec.ofNat 64 x
  | .abs => pattern w (if x.testBit (w - 1) then 2 ^ w - x else x)
  | .neg => pattern w (2 ^ w - x)

/-- BEXT (R94). -/
def bextResult (ty : IntTy) (a b c : W64) : W64 :=
  let l := min (c.toNat % 128) (tyWidth ty)
  BitVec.ofNat 64 (lowBits (tyWidth ty) a / 2 ^ (b.toNat % 64) % 2 ^ l)

/-- BINS (R94). -/
def binsResult (ty : IntTy) (a b c : W64) : W64 :=
  let w := tyWidth ty
  let p := c.toNat % 64
  let l := min (c.toNat / 256 % 128) w
  let mask := BitVec.ofNat w ((2 ^ l - 1) * 2 ^ p)
  pattern w (((a.setWidth w) &&& ~~~mask) ||| (BitVec.ofNat w (b.toNat * 2 ^ p) &&& mask)).toNat

/-- CLZ (R94). -/
def execClz (x : BitU) (s : State) : Out := wordA x.stall x.a x.d 0 (bitResult .clz x.w) s

/-- CTZ (R94). -/
def execCtz (x : BitU) (s : State) : Out := wordA x.stall x.a x.d 0 (bitResult .ctz x.w) s

/-- POPC (R94). -/
def execPopc (x : BitU) (s : State) : Out := wordA x.stall x.a x.d 0 (bitResult .popc x.w) s

/-- BREV (R94). -/
def execBrev (x : BitU) (s : State) : Out := wordA x.stall x.a x.d 0 (bitResult .brev x.w) s

/-- SEXT (R94). -/
def execSext (x : BitU) (s : State) : Out := wordA x.stall x.a x.d 0 (bitResult .sext x.w) s

/-- ZEXT (R94). -/
def execZext (x : BitU) (s : State) : Out := wordA x.stall x.a x.d 0 (bitResult .zext x.w) s

/-- ABS (R94). -/
def execAbs (x : BitU) (s : State) : Out := wordA x.stall x.a x.d 0 (bitResult .abs x.w) s

/-- NEG (R94). -/
def execNeg (x : BitU) (s : State) : Out := wordA x.stall x.a x.d 0 (bitResult .neg x.w) s

/-- BEXT (R94). -/
def execBext (x : BitT) (s : State) : Out := wordABC x.stall x.a x.b x.c x.d 0 (bextResult x.w) s

/-- BINS (R94). -/
def execBins (x : BitT) (s : State) : Out := wordABC x.stall x.a x.b x.c x.d 0 (binsResult x.w) s

/-! ### Compare and select (R95) -/

/-- The relations of opcode 0x04. -/
inductive CmpOp where
  | eq | ne | lt | le | ltu | leu
  deriving DecidableEq, Repr

/-- A comparison of the low bits of two words (R95). -/
def cmpResult (op : CmpOp) (ty : IntTy) (a b : W64) : W64 :=
  let w := tyWidth ty
  let x := a.setWidth w
  let y := b.setWidth w
  boolWord (match op with
    | .eq => x == y
    | .ne => x != y
    | .lt => x.slt y
    | .le => x.sle y
    | .ltu => x.ult y
    | .leu => x.ule y)

/-- CMPEQ (R95). -/
def execCmpeq (x : CmpR) (s : State) : Out := wordAB x.stall x.a x.b x.d 0 (cmpResult .eq x.w) s

/-- CMPNE (R95). -/
def execCmpne (x : CmpR) (s : State) : Out := wordAB x.stall x.a x.b x.d 0 (cmpResult .ne x.w) s

/-- CMPLT (R95). -/
def execCmplt (x : CmpR) (s : State) : Out := wordAB x.stall x.a x.b x.d 0 (cmpResult .lt x.w) s

/-- CMPLE (R95). -/
def execCmple (x : CmpR) (s : State) : Out := wordAB x.stall x.a x.b x.d 0 (cmpResult .le x.w) s

/-- CMPLTU (R95). -/
def execCmpltu (x : CmpR) (s : State) : Out := wordAB x.stall x.a x.b x.d 0 (cmpResult .ltu x.w) s

/-- CMPLEU (R95). -/
def execCmpleu (x : CmpR) (s : State) : Out := wordAB x.stall x.a x.b x.d 0 (cmpResult .leu x.w) s

/-- SEL (R95): D := B if A ≠ 0, else C. -/
def execSel (x : SelR) (s : State) : Out :=
  wordABC x.stall x.a x.b x.c x.d 0 (fun a b c => if a != 0 then b else c) s

/-! ### Immediates and addresses (R96, R97) -/

/-- LI (R96). -/
def execLi (x : LiI) (s : State) : Out :=
  issue x.stall { noOperands with d := .s x.d } noChecks
    (fun s _ => .done s (.one (extImm x.zx x.imm) 0) .seq false) s

/-- LIH (R96): the low half of A under the immediate. -/
def execLih (x : LihI) (s : State) : Out :=
  issue x.stall (formI x.a x.d (extImm false x.imm)) noChecks
    (fun s v => .done s (.one (x.imm ++ v.a.setWidth 32) 0) .seq false) s

/-- LEA (R97). -/
def execLea (x : LeaM) (s : State) : Out :=
  wordAB x.stall x.a x.b x.d 0 (fun a b => a + (b <<< x.sh.toNat) + x.off.signExtend 64) s

end Sys2Proof.Machine
end

