-- ==== Sys2Proof/Machine/Control.lean ====
section
/-!
DEFINITION. Skips, branches, the iteration fetcher, waiting and ending (R98–R106), the turn that passes without an issue
(R78) and the word that is no instruction (R47).
-/

namespace Sys2Proof.Machine

/-- The operand form of a word with one source and no result. -/
def formSrc (a : Src) : Form := { noOperands with a := .s a }

/-! ### Skips (R55, R98) -/

/-- A count outside 1–31, or one that passes the block's last word, is ILLEGAL (R55). -/
def skipCheck (cnt : BitVec 32) : Checks :=
  { noChecks with pre := fun s _ =>
      if cnt = 0 ∨ 31 < cnt.toNat ∨ s.me.len + 1 < s.me.idx + cnt.toNat then some trapIllegal else none }

/-- A skip taken on a condition of A. -/
def skipOn (p : W64 → Bool) (x : SkipC) (s : State) : Out :=
  issue x.stall (formSrc x.a) (skipCheck x.cnt)
    (fun s v => .done s .none (if p v.a then .skip x.cnt.toNat else .seq) false) s

/-- SKIPZ (R98). -/
def execSkipz (x : SkipC) (s : State) : Out := skipOn (· == 0) x s

/-- SKIPNZ (R98). -/
def execSkipnz (x : SkipC) (s : State) : Out := skipOn (· != 0) x s

/-! ### Branches (R54, R56, R99) -/

/-- The target of a displacement (R40). -/
def dispTarget (s : State) (disp : BitVec 32) : W64 := s.me.wordAddr + 8 * disp.signExtend 64

/-- A transfer to a target, checked as the word executes (R54): the header is fetched, and a target that is misaligned or
no header is BADTGT. -/
def transfer (s : State) (t : W64) (r : Result) : Act :=
  if t.toNat % 8 != 0 then .fail 4 (.trap (trapBadtgt t))
  else match fetchAt s t with
    | .fail f => .fail 4 f
    | .poison => .poison (noteFetch s t)
    | .word w => if isHeader w then .done s r (.jump t) false else .fail 4 (.trap (trapBadtgt t))

/-- A word that must be the last of its block (R56, R99). -/
def lastOnly : Checks :=
  { noChecks with pre := fun s _ => if s.me.idx = s.me.len + 1 then none else some trapIllegal }

/-- The link: the address after the word (R56). -/
def linkValue (s : State) : W64 := s.me.wordAddr + 8

/-- BADTGT of a target, or ACCESS of the fetch of its header (R54): it comes before a wait of the word (R89). -/
def targetTrap (s : State) (t : W64) : Option Trap :=
  if t.toNat % 8 != 0 then some (trapBadtgt t)
  else match fetchAt s t with
    | .fail (.trap x) => some x
    | .word w => if isHeader w then none else some (trapBadtgt t)
    | _ => none

/-- A word that must be the last of its block and goes to a target, where that can be read. -/
def lastTo (target : State → Avail → Option W64) : Checks :=
  { lastOnly with mid := fun s x => (target s x).bind (targetTrap s) }

/-- BR (R99). -/
def execBr (x : JmpC) (s : State) : Out :=
  issue x.stall noOperands noChecks (fun s _ => transfer s (dispTarget s x.disp) .none) s

/-- BRZ (R99). -/
def execBrz (x : JmpA) (s : State) : Out :=
  issue x.stall (formSrc x.a) noChecks
    (fun s v => if v.a == 0 then transfer s (dispTarget s x.disp) .none else .done s .none .seq false) s

/-- BRNZ (R99). -/
def execBrnz (x : JmpA) (s : State) : Out :=
  issue x.stall (formSrc x.a) noChecks
    (fun s v => if v.a != 0 then transfer s (dispTarget s x.disp) .none else .done s .none .seq false) s

/-- CALL (R56, R99): n22 is its implicit destination. -/
def execCall (x : JmpC) (s : State) : Out :=
  issue x.stall { noOperands with d := .regs 22 1 } (lastTo (fun s _ => some (dispTarget s x.disp)))
    (fun s _ => transfer s (dispTarget s x.disp) (.regs [linkValue s])) s

/-- CALLR (R99). -/
def execCallr (x : UnC) (s : State) : Out :=
  issue x.stall { formSrc x.a with d := .regs 22 1 } (lastTo (fun _ y => y.a.val?))
    (fun s v => transfer s v.a (.regs [linkValue s])) s

/-- JMPR (R99). -/
def execJmpr (x : UnC) (s : State) : Out :=
  issue x.stall (formSrc x.a) noChecks (fun s v => transfer s v.a .none) s

/-- RET (R99): n22 is its implicit source. -/
def execRet (x : BareC) (s : State) : Out :=
  issue x.stall (formSrc (.n 22)) noChecks (fun s v => transfer s v.a .none) s

/-! ### The iteration fetcher (R100–R104) -/

/-- An address that is not a multiple of n is ALIGN (R89). -/
def alignCheck (n : Nat) : Checks :=
  { noChecks with mid := fun _ x => match x.a.val? with
      | some a => if a.toNat % n = 0 then none else some (trapAlign a)
      | none => none }

/-- The fetcher that NEST binds from a descriptor's bytes (R100, R101): a claim is started. -/
def nestFetcher (desc word : W64) (bs : List Byte) : Fetcher :=
  { bound := true, desc := desc, total := fieldAt bs 0 8, e0 := fieldAt bs 16 4, e1 := fieldAt bs 20 4,
    parties := fieldAt bs 28 2, guided := fieldAt bs 30 2, minc := fieldAt bs 32 8, cur := none, next := none,
    claiming := true, failed := false, exhausted := false, word := word }

/-- The registers that ITER writes for an index (R103). -/
def iterValues (f : Fetcher) (c : IterCount) (i : Nat) : List W64 :=
  let e0 := zeroAs (2 ^ 32) f.e0
  let e1 := zeroAs (2 ^ 32) f.e1
  (match c with
    | .one => [i]
    | .two => [i % e0, i / e0]
    | .three => [i % e0, i / e0 % e1, i / (e0 * e1)]).map (BitVec.ofNat 64)

/-- Number of registers of ITER. -/
def iterCount : IterCount → Nat
  | .one => 1
  | .two => 2
  | .three => 3

/-- Whether ITER takes its exit: nothing is bound, or every index has been handed out (R103). -/
def Fetcher.ended (f : Fetcher) : Bool := !f.bound || (f.cur.isNone && f.next.isNone && f.exhausted)

/-- ITER outside a loop-head block, or with registers beyond n23, is ILLEGAL (R51, R103). -/
def iterCheck (x : IterC) : Checks :=
  let ok (s : State) : Bool := hdrLoop (s.me.block.headD 0) && decide (x.d.val + iterCount x.cnt ≤ 24)
  { pre := fun s _ => if ok s then none else some trapIllegal
    mid := fun s _ => if s.me.fetcher.ended then targetTrap s (dispTarget s x.disp) else none }

/-- The first index of a chunk taken: what is left of it. -/
def chunkRest (lo hi : Nat) : Option (Nat × Nat) := if lo + 1 < hi then some (lo + 1, hi) else none

/-- The fetcher after the first index of a chunk is taken; where the chunk was the next one, a claim is started by the
word at an address (R102, R103). -/
def Fetcher.grab (f : Fetcher) (c : Nat × Nat) (claim : Bool) (word : W64) : Fetcher :=
  let f := { f with cur := chunkRest c.1 c.2 }
  if claim then { f with next := none, claiming := true, failed := false, word := word } else f

/-- ITER on the fetcher of the current slot (R103). A claim is an access: none is started while an ordering of the slot is awaited
(R259, R273). -/
def iterAct (x : IterC) (s : State) : Act :=
  let f := s.me.fetcher
  let exit := transfer s (dispTarget s x.disp) .none
  let grab (f : Fetcher) (c : Nat × Nat) (claim : Bool) : Act :=
    let s := s.setMe { s.me with fetcher := f.grab c claim s.me.wordAddr }
    let s := if claim then s.post [.iterationClaim s.cur.1 s.cur.2] else s
    .done s (.regs (iterValues f x.cnt c.1)) .seq false
  if !f.bound then exit
  else match f.cur with
    | some c => grab f c false
    | none => match f.next with
      | some c => if s.me.fenced then .park .result id else grab f c true
      | none => if f.exhausted then exit else .park .result id

/-- The registers that ITER names are its destination; it pushes nothing (R103). -/
def execIter (x : IterC) (s : State) : Out :=
  issue x.stall { noOperands with d := .regs x.d.val (iterCount x.cnt) } (iterCheck x) (fun s _ => iterAct x s) s

/-! ### Waiting and ending (R105, R106) -/

/-- NOP (R105). -/
def execNop (x : BareI) (s : State) : Out :=
  issue x.stall noOperands noChecks (fun s _ => .done s .none .seq false) s

/-- Turns the slot has had since its preceding word issued, this one not counted (R105). -/
def Slot.turnsSince (x : Slot) : Nat := x.since - 1

/-- A wait with a number of turns left: it parks, or issues when none is left. -/
def sleepAct (s : State) (left : Nat) : Act :=
  if left = 0 then .done s .none .seq false
  else .park .sleep (fun s => s.setMe { s.me with sleepLeft := some left })

/-- STALLN (R105); a count of 0 is ILLEGAL. -/
def execStalln (x : CountI) (s : State) : Out :=
  issue x.stall noOperands { noChecks with pre := fun _ _ => if x.n = 0 then some trapIllegal else none }
    (fun s _ => sleepAct s (s.me.sleepLeft.getD (x.n.toNat - s.me.turnsSince))) s

/-- YIELD (R105): one turn. -/
def execYield (x : BareI) (s : State) : Out :=
  issue x.stall noOperands noChecks (fun s _ => sleepAct s (s.me.sleepLeft.getD 1)) s

/-- PARK (R105): until a message register becomes full, or for N turns where N is not 0. -/
def execPark (x : CountI) (s : State) : Out :=
  issue x.stall noOperands noChecks
    (fun s _ =>
      if s.me.msgWake then .done s .none .seq false
      else if x.n = 0 then .park .sleep id
      else sleepAct s (s.me.sleepLeft.getD (x.n.toNat - s.me.turnsSince))) s

/-- Whether a slot's contracting load still stands in its way (R106, R158). -/
def Slot.loadActive (x : Slot) : Bool := x.record.state == .running || x.record.state == .faulted

/-- EXIT (R106). -/
def execExit (x : BareI) (s : State) : Out :=
  issue x.stall noOperands noChecks
    (fun s _ =>
      if s.me.anyPending then .park .result id
      else if s.me.loadActive then .park .cld id
      else
        let s := traceUnpark s s.cur.1 s.cur.2
        let s := settleClaim (traceExit s s.cur.1 s.cur.2 s.me.idx)
        .done (if s.myCore.isSealed then s else endThread s s.cur.1 s.cur.2) .none .gone false) s

/-! ### Turns and unassigned words -/

/-- TURN (R78): the slot's turn passes without an issue; a running slot's stall counter decrements. -/
def execTurn (s : State) : Out :=
  let x := s.me
  .next (if x.st = .running ∧ x.stall ≠ 0 then s.setMe { x with stall := x.stall - 1 } else s)

/-- ILLEGAL_WORD (R47): a word that is no instruction is reached; its trap passes the checker like another (R133). -/
def execIllegalWord (_w : W64) (s : State) : Out :=
  if s.me.mayIssue then .next (if s.me.suspect then rejectWord s else trapHere s trapIllegal) else .fault .noThread

end Sys2Proof.Machine
end

