-- ==== Sys2Proof/Machine/Fp.lean ====
section
/-!
DEFINITION. Scalar floating point and conversion words (R107–R109).
-/

namespace Sys2Proof.Machine

/-- The code of a scalar source in a layout: the unused upper bits are ignored (R60). -/
def codeOf (f : Fmt) (a : W64) : Nat := a.toNat % 2 ^ fmtWidth f

/-- Two-source arithmetic (R107). -/
def fpWord2 (op : FpOp2) (lat : Nat) (x : Fp2) (s : State) : Out :=
  let f := fpFmt x.ty
  issue x.stall (formAB x.a x.b x.d) noChecks (fun s v =>
    let a := codeOf f v.a
    let b := codeOf f v.b
    .done s (.one (BitVec.ofNat 64 (fp2 op f x.rm x.ftz a b)) lat) .seq (isSnan f a || isSnan f b)) s

/-- FMIN and FMAX (R63, R107). -/
def fpWordMin (op : FpOp2) (x : Fp2n) (s : State) : Out :=
  fpWord2 op 0 { stall := x.stall, d := x.d, a := x.a, b := x.b, ty := x.ty, rm := .rne, ftz := x.ftz } s

/-- One-source arithmetic (R107). -/
def fpWord1 (op : FpOp1) (lat : Nat) (x : Fp1) (s : State) : Out :=
  let f := fpFmt x.ty
  issue x.stall (formA x.a x.d) noChecks (fun s v =>
    let a := codeOf f v.a
    .done s (.one (BitVec.ofNat 64 (fp1 op f x.rm x.ftz a)) lat) .seq (isSnan f a)) s

/-- Three-source arithmetic (R107). -/
def fpWord3 (op : FpOp3) (x : Fp3) (s : State) : Out :=
  let f := fpFmt x.ty
  issue x.stall (formABC x.a x.b x.c x.d) noChecks (fun s v =>
    let a := codeOf f v.a
    let b := codeOf f v.b
    let c := codeOf f v.c
    .done s (.one (BitVec.ofNat 64 (fp3 op f x.rm x.ftz a b c)) 0) .seq
      (isSnan f a || isSnan f b || isSnan f c)) s

/-- Compares (R108). -/
def fpWordRel (r : FpRel) (x : Fp2n) (s : State) : Out :=
  let f := fpFmt x.ty
  issue x.stall (formAB x.a x.b x.d) noChecks (fun s v =>
    let a := codeOf f v.a
    let b := codeOf f v.b
    .done s (.one (boolWord (fpRel r f x.ftz a b)) 0) .seq (isSnan f a || isSnan f b)) s

/-- FADD (R107). -/
def execFadd (x : Fp2) (s : State) : Out := fpWord2 .add 0 x s

/-- FSUB (R107). -/
def execFsub (x : Fp2) (s : State) : Out := fpWord2 .sub 0 x s

/-- FMUL (R107). -/
def execFmul (x : Fp2) (s : State) : Out := fpWord2 .mul 0 x s

/-- FDIV (R107). -/
def execFdiv (x : Fp2) (s : State) : Out := fpWord2 .div 2 x s

/-- FMIN (R63, R107). -/
def execFmin (x : Fp2n) (s : State) : Out := fpWordMin .min x s

/-- FMAX (R63, R107). -/
def execFmax (x : Fp2n) (s : State) : Out := fpWordMin .max x s

/-- FSQRT (R107). -/
def execFsqrt (x : Fp1) (s : State) : Out := fpWord1 .sqrt 2 x s

/-- FRCP (R107). -/
def execFrcp (x : Fp1) (s : State) : Out := fpWord1 .rcp 1 x s

/-- FRSQ (R107). -/
def execFrsq (x : Fp1) (s : State) : Out := fpWord1 .rsq 1 x s

/-- FLOG2 (R107). -/
def execFlog2 (x : Fp1) (s : State) : Out := fpWord1 .log2 1 x s

/-- FEXP2 (R107). -/
def execFexp2 (x : Fp1) (s : State) : Out := fpWord1 .exp2 1 x s

/-- FMA (R61, R107). -/
def execFma (x : Fp3) (s : State) : Out := fpWord3 .fma x s

/-- FMS (R61, R107). -/
def execFms (x : Fp3) (s : State) : Out := fpWord3 .fms x s

/-- FNMA (R61, R107). -/
def execFnma (x : Fp3) (s : State) : Out := fpWord3 .fnma x s

/-- FCEQ (R108). -/
def execFceq (x : Fp2n) (s : State) : Out := fpWordRel .eq x s

/-- FCLT (R108). -/
def execFclt (x : Fp2n) (s : State) : Out := fpWordRel .lt x s

/-- FCLE (R108). -/
def execFcle (x : Fp2n) (s : State) : Out := fpWordRel .le x s

/-- FCUN (R108). -/
def execFcun (x : Fp2n) (s : State) : Out := fpWordRel .un x s

/-- FCLASS (R108): .FTZ has no effect on it. -/
def execFclass (x : Fp1n) (s : State) : Out :=
  let f := fpFmt x.ty
  issue x.stall (formA x.a x.d) noChecks (fun s v =>
    let a := codeOf f v.a
    .done s (.one (BitVec.ofNat 64 (fpClass f a)) 0) .seq (isSnan f a)) s

/-! ### Conversion (R109) -/

/-- A format register (R64). -/
def Slot.fmtReg (x : Slot) (i : Nat) : BitVec 32 := mapGet 0 x.fmt i

/-- A format register that a word names with an invalid image is FORMAT_MODE (R64). -/
def formatTrap (s : State) (i : Nat) : Option Trap :=
  if imageValid (s.me.fmtReg i) then none else some (trapFormat i)

/-- The checks of a conversion: the format register of a narrow kind; narrow to narrow is ILLEGAL (R45, R109). -/
def convCheck (dk sk : Kind) (fmt : Nat) : Checks :=
  { noChecks with pre := fun s _ =>
      if dk = .nf ∧ sk = .nf then some trapIllegal
      else if dk = .nf ∨ sk = .nf then formatTrap s fmt else none }

/-- A scalar conversion (R109): no block scale applies. -/
def convScalar (x : ConvR) (n : Narrow) (topx : Bool) (a : Nat) : Nat :=
  let src := convRead x.sk x.ftz (n.read topx (a % 2 ^ n.width)) a
  if x.dk = .nf then n.write topx x.rm src.toNum else convWrite x.dk x.rm x.ftz src

/-- FCVT (R109). -/
def execFcvt (x : ConvR) (s : State) : Out :=
  issue x.stall (formA x.a x.d) (convCheck x.dk x.sk x.fmt.val) (fun s v =>
    let n := narrowOf (s.me.fmtReg x.fmt.val)
    .done s (.one (BitVec.ofNat 64 (convScalar x n s.me.topx v.a.toNat)) 0) .seq (convSnan x.sk v.a.toNat)) s

end Sys2Proof.Machine
end

