-- ==== Sys2Proof/Machine/Vector.lean ====
section
/-!
DEFINITION. Vector words (R115–R130): elements, masks, arithmetic, compares, reductions, moves, ranking and conversion.
-/

namespace Sys2Proof.Machine

/-! ### Elements and masks (R115, R117) -/

/-- Bits that one element occupies in a register: a pair of lanes, or a lane. -/
def cellBits (w : Nat) : Nat := if w = 64 then 64 else 32

/-- Number of elements of a width. -/
def elemCount (w : Nat) : Nat := if w = 64 then 16 else 32

/-- Lane i of a register. -/
def lane (v : VImage) (i : Nat) : Nat := v.toNat / 2 ^ (32 * i) % 2 ^ 32

/-- Element e of a register; the upper bits of its lane are ignored. -/
def elem (w : Nat) (v : VImage) (e : Nat) : Nat := v.toNat / 2 ^ (cellBits w * e) % 2 ^ w

/-- The register image of cells of b bits each. -/
def joinCells (b : Nat) : List Nat → Nat
  | [] => 0
  | c :: cs => c + 2 ^ b * joinCells b cs

/-- The mask that a field holds: the code z enables every element. -/
def maskOf (k : Src) (v : W64) : Nat := if k = .z then 2 ^ 32 - 1 else v.toNat % 2 ^ 32

/-- A register with each enabled element's cell replaced; a disabled element keeps its bits. -/
def mapElems (w mask : Nat) (old : VImage) (f : Nat → Nat) : VImage :=
  let b := cellBits w
  BitVec.ofNat 1024 (joinCells b ((List.range (elemCount w)).map (fun e =>
    if mask.testBit e then f e % 2 ^ b else old.toNat / 2 ^ (b * e) % 2 ^ b)))

/-- The enabled elements of a width. -/
def enabledOf (w mask : Nat) : List Nat := (List.range (elemCount w)).filter mask.testBit

/-- Whether an enabled element of a register is a signalling NaN (R118). -/
def anySnan (f : Fmt) (mask : Nat) (v : VImage) : Bool :=
  (enabledOf (fmtWidth f) mask).any (fun e => isSnan f (elem (fmtWidth f) v e))

/-- The operand forms of vector words. -/
def formVV (a b : VReg) (d : VReg) (k : Src) : Form :=
  { noOperands with a := .v a, b := .v b, k := .s k, d := .v d }
def formV (a : VReg) (d : VReg) (k : Src) : Form := { noOperands with a := .v a, k := .s k, d := .v d }
def formVVV (a b c : VReg) (d : VReg) (k : Src) : Form :=
  { a := .v a, b := .v b, c := .v c, k := .s k, d := .v d, imm := 0 }
def formVVS (a b : VReg) (d : Dst) (k : Src) : Form :=
  { noOperands with a := .v a, b := .v b, k := .s k, d := .s d }
def formVS (a : VReg) (d : Dst) (k : Src) : Form := { noOperands with a := .v a, k := .s k, d := .s d }

/-- What D holds as a word that keeps its disabled elements commits. A retried word keeps those of its commit too, though it reads
its sources as they were at its first try (R134 names the sources alone; DESIGN CHOICE, log 38). -/
def oldVec (s : State) (d : VReg) : VImage := (s.me.vCell d.val).val

/-! ### Floating point (R119) -/

/-- Two-source vector arithmetic. -/
def vecWord2 (op : FpOp2) (lat : Nat) (x : V2) (s : State) : Out :=
  let f := fpFmt x.ty
  let w := fmtWidth f
  issue x.stall (formVV x.a x.b x.d x.k) noChecks (fun s v =>
    let m := maskOf x.k v.k
    .done s (.vec (mapElems w m (oldVec s x.d) (fun e => fp2 op f x.rm x.ftz (elem w v.va e) (elem w v.vb e))) lat) .seq
      (anySnan f m v.va || anySnan f m v.vb)) s

/-- VMIN and VMAX. -/
def vecWordMin (op : FpOp2) (x : V2n) (s : State) : Out :=
  vecWord2 op 0 { stall := x.stall, d := x.d, a := x.a, b := x.b, ty := x.ty, rm := .rne, ftz := x.ftz, k := x.k } s

/-- One-source vector arithmetic. -/
def vecWord1 (op : FpOp1) (x : V1) (s : State) : Out :=
  let f := fpFmt x.ty
  let w := fmtWidth f
  issue x.stall (formV x.a x.d x.k) noChecks (fun s v =>
    let m := maskOf x.k v.k
    .done s (.vec (mapElems w m (oldVec s x.d) (fun e => fp1 op f x.rm x.ftz (elem w v.va e))) 2) .seq
      (anySnan f m v.va)) s

/-- Three-source vector arithmetic. -/
def vecWord3 (op : FpOp3) (x : V3) (s : State) : Out :=
  let f := fpFmt x.ty
  let w := fmtWidth f
  issue x.stall (formVVV x.a x.b x.c x.d x.k) noChecks (fun s v =>
    let m := maskOf x.k v.k
    .done s (.vec (mapElems w m (oldVec s x.d) (fun e =>
      fp3 op f x.rm x.ftz (elem w v.va e) (elem w v.vb e) (elem w v.vc e))) 0) .seq
      (anySnan f m v.va || anySnan f m v.vb || anySnan f m v.vc)) s

/-- VADD (R119). -/
def execVadd (x : V2) (s : State) : Out := vecWord2 .add 0 x s

/-- VSUB (R119). -/
def execVsub (x : V2) (s : State) : Out := vecWord2 .sub 0 x s

/-- VMUL (R119). -/
def execVmul (x : V2) (s : State) : Out := vecWord2 .mul 0 x s

/-- VDIV (R119). -/
def execVdiv (x : V2) (s : State) : Out := vecWord2 .div 2 x s

/-- VMIN (R119). -/
def execVmin (x : V2n) (s : State) : Out := vecWordMin .min x s

/-- VMAX (R119). -/
def execVmax (x : V2n) (s : State) : Out := vecWordMin .max x s

/-- VSQRT (R119). -/
def execVsqrt (x : V1) (s : State) : Out := vecWord1 .sqrt x s

/-- VRCP (R119). -/
def execVrcp (x : V1) (s : State) : Out := vecWord1 .rcp x s

/-- VRSQ (R119). -/
def execVrsq (x : V1) (s : State) : Out := vecWord1 .rsq x s

/-- VLOG2 (R119). -/
def execVlog2 (x : V1) (s : State) : Out := vecWord1 .log2 x s

/-- VEXP2 (R119). -/
def execVexp2 (x : V1) (s : State) : Out := vecWord1 .exp2 x s

/-- VFMA (R119). -/
def execVfma (x : V3) (s : State) : Out := vecWord3 .fma x s

/-- VFMS (R119). -/
def execVfms (x : V3) (s : State) : Out := vecWord3 .fms x s

/-! ### Integer (R120) -/

/-- Element operations of opcode 0x32. -/
inductive VIntOp where
  | add | sub | mul | and | or | xor | shl | shr | min | max
  deriving DecidableEq, Repr

/-- An element operation at its width. -/
def vintAlu {w : Nat} (op : VIntOp) (x y : BitVec w) : BitVec w :=
  match op with
  | .add => x + y
  | .sub => x - y
  | .mul => x * y
  | .and => x &&& y
  | .or => x ||| y
  | .xor => x ^^^ y
  | .shl => x <<< (y.toNat % w)
  | .shr => x >>> (y.toNat % w)
  | .min => if x.slt y then x else y
  | .max => if x.slt y then y else x

/-- Vector integer words: a narrow result is sign-extended in its lane (R115). -/
def vecInt (op : VIntOp) (x : VI2) (s : State) : Out :=
  let w := tyWidth x.w
  issue x.stall (formVV x.a x.b x.d x.k) noChecks (fun s v =>
    .done s (.vec (mapElems w (maskOf x.k v.k) (oldVec s x.d) (fun e =>
      ((vintAlu op (BitVec.ofNat w (elem w v.va e)) (BitVec.ofNat w (elem w v.vb e))).signExtend 64).toNat)) 0) .seq false) s

/-- VIADD (R120). -/
def execViadd (x : VI2) (s : State) : Out := vecInt .add x s

/-- VISUB (R120). -/
def execVisub (x : VI2) (s : State) : Out := vecInt .sub x s

/-- VIMUL (R120). -/
def execVimul (x : VI2) (s : State) : Out := vecInt .mul x s

/-- VAND (R120). -/
def execVand (x : VI2) (s : State) : Out := vecInt .and x s

/-- VOR (R120). -/
def execVor (x : VI2) (s : State) : Out := vecInt .or x s

/-- VXOR (R120). -/
def execVxor (x : VI2) (s : State) : Out := vecInt .xor x s

/-- VSHL (R120). -/
def execVshl (x : VI2) (s : State) : Out := vecInt .shl x s

/-- VSHR (R120). -/
def execVshr (x : VI2) (s : State) : Out := vecInt .shr x s

/-- VIMIN (R120). -/
def execVimin (x : VI2) (s : State) : Out := vecInt .min x s

/-- VIMAX (R120). -/
def execVimax (x : VI2) (s : State) : Out := vecInt .max x s

/-! ### Compare and select (R121) -/

/-- A word of bits for which a test holds. -/
def bitsWhere (l : List Nat) (p : Nat → Bool) : Nat :=
  match l with
  | [] => 0
  | e :: es => (if p e then 2 ^ e else 0) + bitsWhere es p

/-- Vector compares: bit e of the scalar result. -/
def vecRel (r : FpRel) (x : VCmp) (s : State) : Out :=
  let f := numFmt x.ty
  let w := fmtWidth f
  issue x.stall (formVVS x.a x.b x.d x.k) noChecks (fun s v =>
    let m := maskOf x.k v.k
    .done s (.one (BitVec.ofNat 64 (bitsWhere (enabledOf w m) (fun e =>
      fpRel r f x.ftz (elem w v.va e) (elem w v.vb e)))) 0) .seq (anySnan f m v.va || anySnan f m v.vb)) s

/-- VCEQ (R121). -/
def execVceq (x : VCmp) (s : State) : Out := vecRel .eq x s

/-- VCLT (R121). -/
def execVclt (x : VCmp) (s : State) : Out := vecRel .lt x s

/-- VCLE (R121). -/
def execVcle (x : VCmp) (s : State) : Out := vecRel .le x s

/-- VCUN (R121). -/
def execVcun (x : VCmp) (s : State) : Out := vecRel .un x s

/-- Width of the elements that a moving form moves (R116). -/
def moveWidth : WTy → Nat
  | .d => 64
  | .w => 32

/-- VSEL (R121). -/
def execVsel (x : VSelR) (s : State) : Out :=
  let w := moveWidth x.w
  issue x.stall { formVV x.a x.b x.d x.k with c := .s x.c } noChecks (fun s v =>
    .done s (.vec (mapElems w (maskOf x.k v.k) (oldVec s x.d) (fun e =>
      if v.c.getLsbD e then elem w v.va e else elem w v.vb e)) 0) .seq false) s

/-! ### Reductions and scan (R72, R122, R123) -/

/-- One level of the pairwise tree: a node with one excluded child passes the other on. -/
def treeLevel (op : Nat → Nat → Nat) : List (Option Nat) → List (Option Nat)
  | a :: b :: l => (match a, b with
      | some x, some y => some (op x y)
      | some x, none => some x
      | none, y => y) :: treeLevel op l
  | l => l

/-- The pairwise tree over a power of two of inputs, given its depth. -/
def treeSum (op : Nat → Nat → Nat) : Nat → List (Option Nat) → Option Nat
  | 0, l => l.headD none
  | n + 1, l => treeSum op n (treeLevel op l)

/-- A code as read: under .FTZ a subnormal is a zero of its sign, a NaN is canonical, every other code keeps its bits. -/
def asRead (f : Fmt) (ftz : Bool) (c : Nat) : Nat := pack f .rne false (unpack f ftz c)

/-- The enabled elements of a register, in order, as inputs of a tree. -/
def treeInputs (f : Fmt) (ftz : Bool) (mask : Nat) (v : VImage) : List (Option Nat) :=
  let w := fmtWidth f
  (List.range (elemCount w)).map (fun e => if mask.testBit e then some (asRead f ftz (elem w v e)) else none)

/-- VRED over a mask: +0, +∞ or −∞ where no element is enabled. Under .FTZ a subnormal sum is flushed at the node that rounds it, where
R72 states the flush of the value that leaves the root alone (DESIGN CHOICE, log 38). -/
def redResult (op : RedOp) (f : Fmt) (rm : Rm) (ftz : Bool) (mask : Nat) (v : VImage) : Nat :=
  let node : Nat → Nat → Nat := match op with
    | .add => fp2 .add f rm ftz
    | .min => fp2 .min f .rne ftz
    | .max => fp2 .max f .rne ftz
  match treeSum node 5 (treeInputs f ftz mask v) with
  | some r => r
  | none => match op with
    | .add => 0
    | .min => infCode f
    | .max => signed f true (infCode f)

/-- VRED (R122). -/
def execVred (x : VRedR) (s : State) : Out :=
  let f := numFmt x.ty
  issue x.stall (formVS x.a x.d x.k) noChecks (fun s v =>
    let m := maskOf x.k v.k
    .done s (.one (BitVec.ofNat 64 (redResult x.op f x.rm x.ftz m v.va)) 1) .seq (anySnan f m v.va)) s

/-- The running sums of a scan: values by element, from the enabled elements in order. Under .FTZ the running value that the next
element is added to is the flushed one, where R123 and R72 leave open whether it is (DESIGN CHOICE, log 38). -/
def scanFrom (f : Fmt) (rm : Rm) (ftz : Bool) (v : VImage) (acc : Option Nat) : List Nat → List (Nat × Nat)
  | [] => []
  | e :: es =>
    let c := elem (fmtWidth f) v e
    let r := match acc with
      | none => asRead f ftz c
      | some a => fp2 .add f rm ftz a c
    (e, r) :: scanFrom f rm ftz v (some r) es

/-- VSCAN (R123). -/
def execVscan (x : VScanR) (s : State) : Out :=
  let f := numFmt x.ty
  let w := fmtWidth f
  issue x.stall (formV x.a x.d x.k) noChecks (fun s v =>
    let m := maskOf x.k v.k
    let sums := scanFrom f x.rm x.ftz v.va none (enabledOf w m)
    .done s (.vec (mapElems w m (oldVec s x.d) (fun e => mapGet 0 sums e)) 1) .seq (anySnan f m v.va)) s

/-! ### Moves (R124) -/

/-- VSPLAT. -/
def execVsplat (x : VSplatR) (s : State) : Out :=
  let w := moveWidth x.w
  issue x.stall { noOperands with a := .s x.a, k := .s x.k, d := .v x.d } noChecks (fun s v =>
    .done s (.vec (mapElems w (maskOf x.k v.k) (oldVec s x.d) (fun _ => v.a.toNat % 2 ^ w)) 0) .seq false) s

/-- VLANE. -/
def execVlane (x : VLaneR) (s : State) : Out :=
  let w := moveWidth x.w
  issue x.stall { noOperands with a := .v x.a, b := .s x.b, k := .s x.k, d := .s x.d } noChecks (fun s v =>
    let i := v.b.toNat % elemCount w
    .done s (.one (if (maskOf x.k v.k).testBit i then BitVec.ofNat 64 (elem w v.va i) else 0) 0) .seq false) s

/-- VINS. -/
def execVins (x : VInsR) (s : State) : Out :=
  let w := moveWidth x.w
  issue x.stall { a := .v x.a, b := .s x.b, c := .s x.c, k := .s x.k, d := .v x.d, imm := 0 } noChecks (fun s v =>
    .done s (.vec (mapElems w (maskOf x.k v.k) (oldVec s x.d) (fun e =>
      if e = v.c.toNat % elemCount w then v.b.toNat % 2 ^ w else elem w v.va e)) 0) .seq false) s

/-- VPERM. -/
def execVperm (x : VPermR) (s : State) : Out :=
  let w := moveWidth x.w
  issue x.stall (formVV x.a x.b x.d x.k) noChecks (fun s v =>
    .done s (.vec (mapElems w (maskOf x.k v.k) (oldVec s x.d) (fun e =>
      elem w v.va (elem w v.vb e % elemCount w))) 0) .seq false) s

/-! ### Ranking (R125–R129) -/

/-- A candidate ranks above another (R125): number above NaN, greater above less, lower index among equals. -/
def ranksAbove (x : Num × Nat) (y : Num × Nat) : Bool :=
  if y.1 = .nan then x.1 != .nan || decide (x.2 < y.2)
  else if x.1 = .nan then false
  else y.1.ltz x.1 || (!x.1.ltz y.1 && decide (x.2 < y.2))

/-- The winner of a list of candidates. -/
def winner : List (Num × Nat) → Option (Num × Nat)
  | [] => none
  | c :: cs => match winner cs with
    | none => some c
    | some d => some (if ranksAbove d c then d else c)

/-- VRMAXI (R126): value at q1, index at q0. -/
def execVrmaxi (x : VRmaxR) (s : State) : Out :=
  let f := numFmt x.ty
  let w := fmtWidth f
  issue x.stall (formVS x.a x.d x.k) noChecks (fun s v =>
    let m := maskOf x.k v.k
    let r := match winner ((enabledOf w m).map (fun e => (unpack f x.ftz (elem w v.va e), e))) with
      | some (n, e) => .two (BitVec.ofNat 64 (pack f .rne false n)) (BitVec.ofNat 64 e) 1
      | none => .two (BitVec.ofNat 64 (nanCode f)) (BitVec.allOnes 64) 1
    .done s r .seq (anySnan f m v.va)) s

/-- One pair of VMAXI: value and index lanes of the winner (R127). -/
def pairWinner (f : Fmt) (ftz : Bool) (a b : VImage) (i : Nat) : Nat :=
  let x := (unpack f ftz (lane a (2 * i)), lane a (2 * i + 1))
  let y := (unpack f ftz (lane b (2 * i)), lane b (2 * i + 1))
  let z := if ranksAbove y x then y else x
  pack f .rne false z.1 + 2 ^ 32 * z.2

/-- VMAXI (R127): pairs are cells of 64 bits. -/
def execVmaxi (x : VRankR) (s : State) : Out :=
  let f := rankFmt x.ty
  issue x.stall (formVV x.a x.b x.d x.k) noChecks (fun s v =>
    let m := maskOf x.k v.k
    let sn (u : VImage) : Bool := (enabledOf 64 m).any (fun i => isSnan f (lane u (2 * i) % 2 ^ fmtWidth f))
    .done s (.vec (mapElems 64 m (oldVec s x.d) (fun i => pairWinner f x.ftz v.va v.vb i)) 0) .seq
      (sn v.va || sn v.vb)) s

/-- Whether a magnitude ranks above another in VCMPR (R128): NaN first, then |x|, then the lower index. -/
def magAbove (x : Num × Nat) (y : Num × Nat) : Bool :=
  if x.1 = .nan then y.1 != .nan || decide (x.2 < y.2)
  else if y.1 = .nan then false
  else y.1.abs.lt x.1.abs || (!x.1.abs.lt y.1.abs && decide (x.2 < y.2))

/-- The number of candidates that rank above one. -/
def rankIn (above : Num × Nat → Num × Nat → Bool) (l : List (Num × Nat)) (x : Num × Nat) : Nat :=
  (l.filter (fun y => y.2 != x.2 && above y x)).length

/-- The two positions that group g keeps, rising (R128). -/
def keptPair (f : Fmt) (ftz : Bool) (b : VImage) (g : Nat) : Nat × Nat :=
  let l := (List.range 4).map (fun p => (unpack f ftz (lane b (4 * g + p) % 2 ^ fmtWidth f), p))
  match (l.filter (fun x => rankIn magAbove l x < 2)).map (·.2) with
  | [p, q] => (p, q)
  | _ => (0, 1)

/-- VCMPR on images (R128). -/
def compress (f : Fmt) (ftz : Bool) (mask : Nat) (old a b : VImage) : VImage :=
  let cell (i : Nat) : Nat :=
    if i < 16 then
      if mask.testBit (i / 2) then
        let (p, q) := keptPair f ftz b (i / 2)
        lane a (4 * (i / 2) + if i % 2 = 0 then p else q)
      else lane old i
    else if i = 16 then
      joinCells 4 ((List.range 8).map (fun g =>
        if mask.testBit g then let (p, q) := keptPair f ftz b g; q * 4 + p else lane old 16 / 2 ^ (4 * g) % 16))
    else 0
  BitVec.ofNat 1024 (joinCells 32 ((List.range 32).map cell))

/-- VCMPR (R128). -/
def execVcmpr (x : VRankR) (s : State) : Out :=
  let f := rankFmt x.ty
  issue x.stall (formVV x.a x.b x.d x.k) noChecks (fun s v =>
    let m := maskOf x.k v.k
    let sn : Bool := ((List.range 8).filter m.testBit).any (fun g =>
      (List.range 4).any (fun p => isSnan f (lane v.vb (4 * g + p) % 2 ^ fmtWidth f)))
    .done s (.vec (compress f x.ftz m (oldVec s x.d) v.va v.vb) 1) .seq sn) s

/-- VSELK (R129). -/
def execVselk (x : VSelkR) (s : State) : Out :=
  let f := rankFmt x.ty
  let w := fmtWidth f
  issue x.stall { noOperands with a := .v x.a, b := .s x.b, k := .s x.k, d := .s x.d } noChecks (fun s v =>
    let m := maskOf x.k v.k
    let l := (enabledOf w m).map (fun e => (unpack f x.ftz (elem w v.va e), e))
    let chosen := (l.filter (fun c => decide (rankIn ranksAbove l c < v.b.toNat))).map (·.2)
    .done s (.one (BitVec.ofNat 64 (bitsWhere chosen (fun _ => true))) 1) .seq (anySnan f m v.va)) s

/-! ### Conversion (R130) -/

/-- Width of a kind that is not narrow. -/
def kindWidth (k : Kind) : Nat :=
  match kindInt k, kindFmt k with
  | some (w, _), _ => w
  | none, some f => fmtWidth f
  | none, none => 8

/-- Scale byte of a block in lane 31. -/
def packedScale (n : Narrow) (v : VImage) (e : Nat) : Nat :=
  if scaleBlock n.scale = 0 then 0 else lane v 31 / 2 ^ (8 * (e / scaleBlock n.scale)) % 256

/-- A packed element. -/
def packedElem (n : Narrow) (v : VImage) (e : Nat) : Nat := v.toNat / 2 ^ (n.width * e) % 2 ^ n.width

/-- A source element of VCVT. -/
def vcvtRead (x : ConvV) (n : Narrow) (topx : Bool) (v : VImage) (e : Nat) : ConvSrc :=
  if x.sk = .nf then .num (scaledRead n topx (packedScale n v e) (packedElem n v e))
  else convRead x.sk x.ftz .nan (elem (kindWidth x.sk) v e)

/-- The largest magnitude among the enabled elements of a block (R70). -/
def blockMax (mask : Nat) (src : Nat → Num) (first count : Nat) : Num :=
  (((List.range count).map (· + first)).filter mask.testBit).foldl (fun a e => a.maxMag (src e)) (.fin false 0 0)

/-- The image of a narrow destination: elements, scales, zero elsewhere (R130). -/
def packNarrow (n : Narrow) (topx : Bool) (rm : Rm) (mask : Nat) (old : VImage) (src : Nat → Num) : VImage :=
  let bs := scaleBlock n.scale
  let scaleOf (g : Nat) : Nat :=
    if ((List.range bs).map (· + bs * g)).any mask.testBit then scaleChoose n topx (blockMax mask src (bs * g) bs)
    else lane old 31 / 2 ^ (8 * g) % 256
  let code (e : Nat) : Nat :=
    if mask.testBit e then
      if bs = 0 then n.write topx rm (src e) else scaledWrite n topx rm (scaleOf (e / bs)) (src e)
    else packedElem n old e
  let elems := joinCells n.width ((List.range 32).map code)
  let scales := if bs = 0 then 0 else joinCells 8 ((List.range (32 / bs)).map scaleOf)
  BitVec.ofNat 1024 (elems + scales * 2 ^ (32 * 31))

/-- The result image of VCVT (R130). -/
def vcvtResult (x : ConvV) (n : Narrow) (topx : Bool) (mask : Nat) (old v : VImage) : VImage :=
  if x.dk = .nf then packNarrow n topx x.rm mask old (fun e => (vcvtRead x n topx v e).toNum)
  else
    let dw := kindWidth x.dk
    let sw := if x.sk = .nf then 32 else kindWidth x.sk
    let count := if dw = 64 ∨ sw = 64 then 16 else 32
    let b := cellBits dw
    BitVec.ofNat 1024 (joinCells b ((List.range (elemCount dw)).map (fun e =>
      if count ≤ e then 0
      else if mask.testBit e then convWrite x.dk x.rm x.ftz (vcvtRead x n topx v e) % 2 ^ b
      else old.toNat / 2 ^ (b * e) % 2 ^ b)))

/-- A conversion between a narrow and a 64-bit kind is ILLEGAL (R130). -/
def vcvtCheck (x : ConvV) : Checks :=
  { noChecks with pre := fun s v =>
      if (x.dk = .nf ∧ kindWidth x.sk = 64) ∨ (x.sk = .nf ∧ kindWidth x.dk = 64) then some trapIllegal
      else (convCheck x.dk x.sk x.fmt.val).pre s v }

/-- VCVT (R130): its mask stands in field B. -/
def execVcvt (x : ConvV) (s : State) : Out :=
  issue x.stall { noOperands with a := .v x.a, b := .s x.k, d := .v x.d } (vcvtCheck x) (fun s v =>
    let m := maskOf x.k v.b
    let n := narrowOf (s.me.fmtReg x.fmt.val)
    let count := if kindWidth x.sk = 64 ∨ kindWidth x.dk = 64 then 16 else 32
    let sn : Bool := ((List.range count).filter m.testBit).any (fun e => convSnan x.sk (elem (kindWidth x.sk) v.va e))
    .done s (.vec (vcvtResult x n s.me.topx m (oldVec s x.d) v.va) 0) .seq sn) s

end Sys2Proof.Machine
end

