-- ==== Sys2Proof/Machine/Reds.lean ====
section
/-!
DEFINITION. The arithmetic of atomics (R239), read-modify-writes at a location, and deferred reductions (R240).
-/

namespace Sys2Proof.Machine

/-! ### Arithmetic (R239) -/

/-- An FP operation on a 32-bit pattern: FP32, .RNE, subnormals kept. -/
def atomFp (op : FpOp2) (f : Fmt) (a b : Nat) : Nat := fp2 op f .rne false a b

/-- An FP operation on the two BF16 halves of a word. -/
def atomPair (op : FpOp2) (a b : Nat) : Nat :=
  atomFp op fmtBf (a % 2 ^ 16) (b % 2 ^ 16) + 2 ^ 16 * atomFp op fmtBf (a / 2 ^ 16 % 2 ^ 16) (b / 2 ^ 16 % 2 ^ 16)

/-- The new value of a location of width w (R239). -/
def amoInt {w : Nat} (op : AmoOp) (old b : BitVec w) : BitVec w :=
  match op with
  | .add => old + b
  | .min => if b.slt old then b else old
  | .max => if old.slt b then b else old
  | .minu => if b < old then b else old
  | .maxu => if old < b then b else old
  | .and => old &&& b
  | .or => old ||| b
  | .xor => old ^^^ b
  | .swap => b
  | .fadd => BitVec.ofNat w (atomFp .add fmt32 old.toNat b.toNat)
  | .fmin => BitVec.ofNat w (atomFp .min fmt32 old.toNat b.toNat)
  | .fmax => BitVec.ofNat w (atomFp .max fmt32 old.toNat b.toNat)
  | .badd => BitVec.ofNat w (atomPair .add old.toNat b.toNat)
  | .bmin => BitVec.ofNat w (atomPair .min old.toNat b.toNat)
  | .bmax => BitVec.ofNat w (atomPair .max old.toNat b.toNat)

/-- Bits of a width. -/
def wtyBits : WTy → Nat
  | .d => 64
  | .w => 32

/-- The new value as a number. -/
def amoNew (op : AmoOp) (ty : WTy) (old : Nat) (b : W64) : Nat :=
  (amoInt op (BitVec.ofNat (wtyBits ty) old) (b.setWidth (wtyBits ty))).toNat

/-- Whether an operation is one of the FP forms. -/
def amoIsFp : AmoOp → Bool
  | .fadd => true
  | .fmin => true
  | .fmax => true
  | .badd => true
  | .bmin => true
  | .bmax => true
  | _ => false

/-- Whether B is read as a signalling NaN (R239). -/
def amoSnan (op : AmoOp) (b : W64) : Bool :=
  match op with
  | .fadd => isSnan fmt32 (b.toNat % 2 ^ 32)
  | .fmin => isSnan fmt32 (b.toNat % 2 ^ 32)
  | .fmax => isSnan fmt32 (b.toNat % 2 ^ 32)
  | .badd => isSnan fmtBf (b.toNat % 2 ^ 16) || isSnan fmtBf (b.toNat / 2 ^ 16 % 2 ^ 16)
  | .bmin => isSnan fmtBf (b.toNat % 2 ^ 16) || isSnan fmtBf (b.toNat / 2 ^ 16 % 2 ^ 16)
  | .bmax => isSnan fmtBf (b.toNat % 2 ^ 16) || isSnan fmtBf (b.toNat / 2 ^ 16 % 2 ^ 16)
  | _ => false

/-- The old value as D receives it: sign-extended at .W for an integer operation, zero-extended otherwise (R239). -/
def amoResult (fp : Bool) (ty : WTy) (old : Nat) : Nat :=
  match ty with
  | .d => old
  | .w => if fp then old else ((BitVec.ofNat 32 old).signExtend 64).toNat

/-- Whether one of n bytes at a resolved location carries an uncorrectable error (R163, R298). -/
def locPoisoned (s : State) (n : Nat) : Loc → Bool
  | .mem pa _ => s.poisoned pa
  | .spd k o => (s.core k).flawIn .spd o n
  | _ => false

/-! ### Deferred reductions (R240) -/

/-- A launch whose completion will carry an error (R241). -/
def markErr (s : State) (launch : Nat) : State :=
  { s with launches := s.launches.map (fun e => (e.1, if e.1 = launch then { e.2 with err := true } else e.2)) }

/-- Whether a RED has to wait for an earlier one of its thread to the same bytes, which waits for firmware (R264; DESIGN
CHOICE, log 7). -/
def redBehind (s : State) (r : DefRed) : Bool :=
  s.reds.any (fun x => x.failed && x.of r.thr && decide (x.id < r.id) && x.meets s r.addr (wtyBytes r.w))

/-- A RED that is no longer under way; the later ones of its thread may now go ahead. -/
def redGone (s : State) (r : DefRed) : State :=
  let rest := s.reds.filter (fun x => x.id != r.id)
  let s := (rest.filter (fun x => x.of r.thr && !x.failed)).foldl (fun s x => postOnce s (.redTranslation x.id))
    { s with reds := rest }
  postOnce s (.launchRetirement r.thr.launch)

/-- A RED dropped. -/
def redDrop (s : State) (r : DefRed) : State := markErr (redGone s r) r.thr.launch

/-- The check of a RED that failed (R240): its message, and the RED of a thread that is still placed waits for firmware, with a
trace record where the thread stands on its slot (R345); another is dropped. -/
def redFail (s : State) (r : DefRed) (flags : Nat) : State :=
  if !r.left then
    let s := if (s.slot r.core r.slot).st != .empty && threadId (s.slot r.core r.slot).thread == threadId r.thr then
        traceRec s r.core r.slot 0x8 0x03 r.addr.toNat else s
    let s := { s with reds := s.reds.map (fun x => if x.id = r.id then { x with failed := true } else x) }
    sendFault s r.core r.slot r.thr 0x03 r.addr flags 0 r.word
  else redDrop (sendFault s r.core r.slot r.thr 0x08 r.addr flags 0 r.word) r

/-- A RED translated and performed, or its failure (R239, R240, R298). -/
def performRed (s : State) (r : DefRed) : State :=
  match latePlace s r.core r.thr r.addr with
  | .error flags => redFail s r flags
  | .ok (pa, leaf) =>
    let s := tlbFill s r.core r.thr.part r.thr.asid r.addr.toNat
    let s' := leaveHome s r.core pa leaf
    if redBehind s r then s
    else if s'.poisoned pa then redDrop (noteBad s' pa true) r
    else redGone (rmw s' r.core (.mem pa leaf) (wtyBytes r.w) (fun old => some (amoNew r.op r.w old r.val))).2 r

/-- REDs performed in turn. -/
def performReds : State → List DefRed → State
  | s, [] => s
  | s, r :: rs => performReds (performRed s r) rs

/-- The REDs of the current thread translated at the latest when it makes its next access (DESIGN CHOICE, log 7): an access
sees every earlier RED of its thread (R264). -/
def settle (s : State) : State := performReds s (s.reds.filter (fun r => r.of s.me.thread && !r.failed))

/-- RED_TRANSLATION (R240): a RED waits for an earlier one of its thread. -/
def execRedTranslation (id : Nat) (s : State) : Out :=
  .next (match s.reds.find? (fun r => r.id == id) with
    | none => s
    | some r =>
      if r.failed then s
      else match s.reds.find? (fun x => x.of r.thr && !x.failed && !redBehind s x) with
        | some x => if x.id = id then performRed s r else s.post [.redTranslation id]
        | none => performRed s r)

end Sys2Proof.Machine
end

