-- ==== Sys2Proof/Machine/Load.lean ====
section
/-!
DEFINITION. Loads and stores (R165), vector memory (R166, R167), lane slices (R132), prefetch (R168), stream words
(R169, R170) and full/empty words (R175).
-/

namespace Sys2Proof.Machine

/-! ### Shared -/

/-- A variable-latency result owed to the current slot for the word it is at (R82), its delivery under way. -/
def owe (s : State) (v : OwedVal) : Nat × State :=
  let (tag, s) := s.newName
  let x := s.me
  let s := s.setMe { x with owed := x.owed ++ [{ tag := tag, val := v, op := x.opcode }] }
  (tag, if v = .waiting then s else s.post [.resultDelivery s.cur.1 s.cur.2 tag])

/-- A word that issues with a variable-latency scalar. -/
def oweScalar (s : State) (v : Nat) (bad : Bool) : Act :=
  let (tag, s) := owe s (if bad then .poison else .scalar 0 (BitVec.ofNat 64 v))
  .done s (.owed tag false) .seq false

/-- A word that issues with a variable-latency status and datum (R80). -/
def owePair (s : State) (st v : Nat) (bad : Bool) : Act :=
  let (tag, s) := owe s (if bad then .poison else .scalar (BitVec.ofNat 64 st) (BitVec.ofNat 64 v))
  .done s (.owed tag true) .seq false

/-- A word that issues with a variable-latency vector register. -/
def oweVector (s : State) (v : VImage) (bad : Bool) : Act :=
  let (tag, s) := owe s (if bad then .poison else .vector v)
  .done s (.owedVec tag) .seq false

/-- Whether an ordering is a release. -/
def ordIsRelease : Ord → Bool
  | .rel _ => true
  | .ar _ => true
  | _ => false

/-- Whether deferred REDs or an iteration claim of the current thread are still to be performed: a release of the thread waits for them
(R240, R259, R267). -/
def redsPending (s : State) : Bool := s.reds.any (fun r => threadId r.thr == threadId s.me.thread) || s.me.claimOut

/-- A word that touches memory, an engine or a message waits with reason result for what its slot has still to order before it
(R273). -/
def behindFence (s : State) (a : Act) : Act := if s.me.fenced then .park .result id else a

/-- A release waits for the thread's deferred REDs and its iteration claim with reason result. -/
def afterReds (s : State) (release : Bool) (a : Act) : Act :=
  behindFence s (if release && redsPending s then .park .result id else a)

/-- A word waits with reason result while a walk runs for one of its pages (R189). -/
def behindWalk (s : State) (ls : List (W64 × Nat)) (a : Act) : Act :=
  match ls.find? (fun e => walkDue s s.cur.1 s.me.thread e.1) with
  | some e => .park .result (fun s => postOnce s (.translationWalk s.cur.1 s.cur.2 e.1 .read))
  | none => a

/-- An access waits with reason result for an iteration claim of the thread to the same .GLB bytes that has not been answered
(R264). -/
def behindClaim (s : State) (ls : List (W64 × Nat)) (a : Act) : Act :=
  if ls.any (fun e => claimMeets s s.cur.1 s.cur.2 e.1 e.2) then .park .result id else a

/-- An access waits with reason result for such a claim, or a RED of the thread to the same .GLB bytes that is still to be performed
(R264; DESIGN CHOICE, log 7). -/
def behindOwn (s : State) (ls : List (W64 × Nat)) (a : Act) : Act :=
  if ls.any (fun e => ownAhead s s.cur.1 s.cur.2 e.1 e.2) then .park .result id else a

/-- An access to .GLB bytes waits with reason result for these, and while a walk runs for one of its pages (R189). -/
def behindReds (s : State) (sp : Space) (ls : List (W64 × Nat)) (a : Act) : Act :=
  behindFence s <| if sp != .glb then a else behindOwn s ls (behindWalk s ls a)

/-- The ALIGN or ACCESS of an access (R89). -/
def accessTrap (s : State) (sp : Space) (need : Need) (hits : Bool) (ea : W64) (n : Nat) : Option Trap :=
  if ea.toNat % n != 0 then some (trapAlign ea)
  else match resolve s s.cur.1 s.me.thread sp need hits ea n with
    | .error (.trap t) => some t
    | _ => none

/-- The checks of a word whose address is a function of A. -/
def accessCheck (sp : Space) (need : Need) (hits : Bool) (n : Nat) (f : W64 → W64) : Checks :=
  { noChecks with mid := fun s x => x.a.val?.bind (fun a => accessTrap s sp need hits (f a) n) }

/-- Bytes of a memory width. -/
def tyBytes (t : IntTy) : Nat := tyWidth t / 8

/-- The effective address of an M-format word (R40, R165). -/
def effAddr (off : BitVec 24) (a : W64) : W64 := a + off.signExtend 64

/-- A loaded value extended to 64 bits (R58). -/
def extend (n : Nat) (sx : Bool) (v : Nat) : Nat :=
  if sx then ((BitVec.ofNat (8 * n) v).signExtend 64).toNat else v % 2 ^ (8 * n)

/-! ### LD and ST (R165) -/

/-- LD. -/
def execLd (x : LdM) (s : State) : Out :=
  let n := tyBytes x.w
  issue x.stall (formA x.a x.d) (accessCheck x.sp needLoad true n (effAddr x.off)) (fun s v =>
    let s := settle s
    let ea := effAddr x.off v.a
    match resolve s s.cur.1 s.me.thread x.sp needLoad true ea n with
    | .error f => .fail 1 f
    | .ok loc => behindReds s x.sp [(ea, n)]
      (let (d, bad, s) := loadLoc s s.cur.1 s.me.thread x.pol ea loc n
       oweScalar (orderAfter s s.cur.1 x.ord) (extend n x.sx d) bad)) s

/-- A store of n bytes by the current slot, with its ordering. -/
def storeAct (s : State) (sp : Space) (pol : Policy) (o : Ord) (ea : W64) (n v : Nat) : Act :=
  match resolve s s.cur.1 s.me.thread sp needStore true ea n with
  | .error f => .fail 2 f
  | .ok _ => behindReds s sp [(ea, n)]
    (let s := orderBefore s s.cur.1 o
     match resolve s s.cur.1 s.me.thread sp needStore true ea n with
     | .error f => .fail 2 f
     | .ok loc =>
       let s := storeLoc s s.cur.1 s.me.thread pol ea loc n v
       .done (orderAfter s s.cur.1 o) .none .seq false)

/-- ST. -/
def execSt (x : StM) (s : State) : Out :=
  let n := tyBytes x.w
  issue x.stall { noOperands with a := .s x.a, b := .s x.b } (accessCheck x.sp needStore true n (effAddr x.off))
    (fun s v => afterReds (settle s) (ordIsRelease x.ord)
      (storeAct (settle s) x.sp x.pol x.ord (effAddr x.off v.a) n (v.b.toNat % 2 ^ (8 * n)))) s

/-! ### Vector memory (R166) -/

/-- The enabled lanes of a mask with their addresses. -/
def laneAddrs (mask : Nat) (f : Nat → W64) : List (Nat × W64) :=
  ((List.range 32).filter mask.testBit).map (fun i => (i, f i))

/-- The traps of a set of lane accesses: ALIGN over every lane, then ACCESS of the lowest lane that raises it. -/
def lanesTrap (s : State) (sp : Space) (need : Need) (n : Nat) (ls : List (Nat × W64)) : Option Trap :=
  match ls.find? (fun l => l.2.toNat % n != 0) with
  | some l => some (trapAlign l.2)
  | none => ls.findSome? (fun l => match resolve s s.cur.1 s.me.thread sp need true l.2 n with
    | .error (.trap t) => some t
    | _ => none)

/-- The page fault of a set of lane accesses. -/
def lanesFault (s : State) (sp : Space) (need : Need) (n : Nat) (ls : List (Nat × W64)) : Option Fail :=
  ls.findSome? (fun l => match resolve s s.cur.1 s.me.thread sp need true l.2 n with
    | .error f => some f
    | .ok _ => none)

/-- A location that stands whatever becomes of the core's L1: a hit as the physical address and the class of its line. -/
def Loc.fixed (l : Loc) (s : State) : Loc :=
  match l with
  | .hit vline off => match l1Find s s.cur.1 s.me.thread.part s.me.thread.asid vline with
    | some x => .mem (x.pline * 32 + off) (BitVec.ofNat 64 (x.cls * 2 ^ 5))
    | none => .hit vline off
  | l => l

/-- Lane accesses with the locations that they have before any of them acts (R166). -/
abbrev LaneLocs := List (Nat × W64 × Loc)

/-- The locations of lanes that all translate. -/
def lanesAt (s : State) (sp : Space) (need : Need) (n : Nat) (ls : List (Nat × W64)) : LaneLocs :=
  ls.filterMap (fun l => match resolve s s.cur.1 s.me.thread sp need true l.2 n with
    | .ok loc => some (l.1, l.2, loc.fixed s)
    | .error _ => none)

/-- Where a lane is reached once earlier lanes, or write-backs of an ordering, have acted: a line that they have brought into
L1, or taken out of it, is found again; the translation itself stands. -/
def Loc.now (l : Loc) (s : State) (ea : W64) : Loc :=
  match l with
  | .mem pa leaf => match l1Find s s.cur.1 s.me.thread.part s.me.thread.asid (ea.toNat / 32) with
    | some _ => .hit (ea.toNat / 32) (ea.toNat % 32)
    | none => .mem pa leaf
  | l => l

/-- Lanes read in turn: their values, whether one is uncorrectable, and the state after them. -/
def lanesRead (s : State) (pol : Policy) (n : Nat) : LaneLocs → Map Nat × Bool × State
  | [] => ([], false, s)
  | (i, ea, loc) :: ls =>
    let (v, bad, s) := loadLoc s s.cur.1 s.me.thread pol ea (loc.now s ea) n
    let (m, bad', s) := lanesRead s pol n ls
    ((i, v) :: m, bad || bad', s)

/-- Lanes written in turn, each with the value of its number. -/
def lanesWrite (s : State) (pol : Policy) (n : Nat) (val : Nat → Nat) : LaneLocs → State
  | [] => s
  | (i, ea, loc) :: ls =>
    lanesWrite (storeLoc s s.cur.1 s.me.thread pol ea (loc.now s ea) n (val i)) pol n val ls

/-- The checks of a vector memory word: those of the enabled lanes whose addresses can be read. -/
def laneCheck (k : Src) (sp : Space) (need : Need) (addr : Avail → Nat → Option W64) : Checks :=
  { noChecks with mid := fun s x =>
      match x.k.val? with
      | some m => lanesTrap s sp need 4
          (((List.range 32).filter (maskOf k m).testBit).filterMap (fun i => (addr x i).map (fun a => (i, a))))
      | none => none }

/-- A vector load of the enabled lanes. -/
def vecLoad (s : State) (d : VReg) (k : Src) (sp : Space) (pol : Policy) (o : Ord) (v : Vals) (addr : Nat → W64) : Act :=
  let s := settle s
  let m := maskOf k v.k
  let ls := laneAddrs m addr
  match lanesFault s sp needLoad 4 ls with
  | some f => .fail 1 f
  | none => behindReds s sp (ls.map (fun l => (l.2, 4)))
    (let old := oldVec s d
     let (vals, bad, s) := lanesRead s pol 4 (lanesAt s sp needLoad 4 ls)
     oweVector (orderAfter s s.cur.1 o) (mapElems 32 m old (fun i => mapGet 0 vals i)) bad)

/-- A vector store of the enabled lanes: no lane is written until every lane has translated. -/
def vecStore (s : State) (k : Src) (sp : Space) (pol : Policy) (o : Ord) (v : Vals) (addr : Nat → W64) : Act :=
  let s := settle s
  let ls := laneAddrs (maskOf k v.k) addr
  match lanesFault s sp needStore 4 ls with
  | some f => .fail 2 f
  | none => afterReds s (ordIsRelease o) <| behindReds s sp (ls.map (fun l => (l.2, 4)))
    (let s := lanesWrite (orderBefore s s.cur.1 o) pol 4 (lane v.vb) (lanesAt s sp needStore 4 ls)
     .done (orderAfter s s.cur.1 o) .none .seq false)

/-- Lane addresses: consecutive, strided, and base plus an unsigned lane offset. -/
def addrUnit (a : W64) (i : Nat) : W64 := a + 4 * BitVec.ofNat 64 i
def addrStride (a c : W64) (i : Nat) : W64 := a + BitVec.ofNat 64 i * c
def addrIndex (a : W64) (v : VImage) (i : Nat) : W64 := a + BitVec.ofNat 64 (lane v i)

/-- VLD. -/
def execVld (x : VldR) (s : State) : Out :=
  issue x.stall { noOperands with a := .s x.a, k := .s x.k, d := .v x.d }
    (laneCheck x.k x.sp needLoad (fun y i => y.a.val?.map (addrUnit · i)))
    (fun s v => vecLoad s x.d x.k x.sp x.pol x.ord v (addrUnit v.a)) s

/-- VST. -/
def execVst (x : VstR) (s : State) : Out :=
  issue x.stall { noOperands with a := .s x.a, b := .v x.b, k := .s x.k }
    (laneCheck x.k x.sp needStore (fun y i => y.a.val?.map (addrUnit · i)))
    (fun s v => vecStore s x.k x.sp x.pol x.ord v (addrUnit v.a)) s

/-- The strided addresses: lane 0 lies at A whatever C is. -/
def stridedAvail (y : Avail) (i : Nat) : Option W64 :=
  match y.a.val?, y.c.val? with
  | some a, some c => some (addrStride a c i)
  | some a, none => if i = 0 then some a else none
  | _, _ => none

/-- VLDS. -/
def execVlds (x : VldsR) (s : State) : Out :=
  issue x.stall { noOperands with a := .s x.a, c := .s x.c, k := .s x.k, d := .v x.d }
    (laneCheck x.k x.sp needLoad stridedAvail)
    (fun s v => vecLoad s x.d x.k x.sp x.pol x.ord v (addrStride v.a v.c)) s

/-- VSTS. -/
def execVsts (x : VstsR) (s : State) : Out :=
  issue x.stall { noOperands with a := .s x.a, b := .v x.b, c := .s x.c, k := .s x.k }
    (laneCheck x.k x.sp needStore stridedAvail)
    (fun s v => vecStore s x.k x.sp x.pol x.ord v (addrStride v.a v.c)) s

/-- VGTH. -/
def execVgth (x : VgthR) (s : State) : Out :=
  issue x.stall { noOperands with a := .s x.a, b := .v x.b, k := .s x.k, d := .v x.d }
    (laneCheck x.k x.sp needLoad (fun y i => match y.a.val?, y.vb.val? with
      | some a, some b => some (addrIndex a b i)
      | _, _ => none))
    (fun s v => vecLoad s x.d x.k x.sp x.pol x.ord v (addrIndex v.a v.vb)) s

/-- VSCT. -/
def execVsct (x : VsctR) (s : State) : Out :=
  issue x.stall { noOperands with a := .s x.a, b := .v x.b, c := .v x.c, k := .s x.k }
    (laneCheck x.k x.sp needStore (fun y i => match y.a.val?, y.vc.val? with
      | some a, some c => some (addrIndex a c i)
      | _, _ => none))
    (fun s v => vecStore s x.k x.sp x.pol x.ord v (addrIndex v.a v.vc)) s

/-! ### Block-scaled elements (R167) -/

/-- Byte i of the elements at A, as a lane numbered i; byte g of the scales at C, numbered 32 w + g. -/
def elemByte (a : W64) (i : Nat) : Nat × W64 := (i, a + BitVec.ofNat 64 i)
def scaleByte (c : W64) (g : Nat) : Nat × W64 := (256 + g, c + BitVec.ofNat 64 g)

/-- Number of scale bytes for 32 elements. -/
def scaleCount (n : Narrow) : Nat := if scaleBlock n.scale = 0 then 0 else 32 / scaleBlock n.scale

/-- The element bytes at A of a word on 32 elements: of a load those that hold enabled elements, of a store all. -/
def elemBytes (load : Bool) (n : Narrow) (mask : Nat) (a : W64) : List (Nat × W64) :=
  let en := (List.range 32).filter mask.testBit
  let holds (i : Nat) : Bool := en.any (fun e => decide (n.width * e / 8 ≤ i) && decide (i ≤ (n.width * e + n.width - 1) / 8))
  ((List.range (4 * n.width)).filter (fun i => !load || holds i)).map (elemByte a)

/-- The scale bytes at C of such a word: of a load those of enabled elements, of a store all. -/
def scaleBytes (load : Bool) (n : Narrow) (mask : Nat) (c : W64) : List (Nat × W64) :=
  let en := (List.range 32).filter mask.testBit
  ((List.range (scaleCount n)).filter (fun g => !load || en.any (fun e => e / scaleBlock n.scale == g))).map (scaleByte c)

/-- The bytes that VLDB reads or VSTB writes. -/
def scaledBytes (load : Bool) (n : Narrow) (mask : Nat) (a c : W64) : List (Nat × W64) :=
  elemBytes load n mask a ++ scaleBytes load n mask c

/-- ILLEGAL of a scale operand that does not match the format, then FORMAT_MODE of its image, then ALIGN of A and ACCESS of the
bytes that the word touches, as far as its operands can be read: the first byte that fails stands in the detail, element
bytes before scale bytes (R167 does not say which; DESIGN CHOICE, log 38). -/
def blockCheck (fmt : Nat) (c k : Src) (sp : Space) (need : Need) (load : Bool) : Checks :=
  { pre := fun s _ =>
      let n := narrowOf (s.me.fmtReg fmt)
      if (n.scale = 0 ∧ c ≠ .z) ∨ ((n.scale = 1 ∨ n.scale = 2) ∧ c = .z) then some trapIllegal else formatTrap s fmt
    mid := fun s x =>
      let n := narrowOf (s.me.fmtReg fmt)
      let bytes (f : Bool → Narrow → Nat → W64 → List (Nat × W64)) (v : Got W64) : List (Nat × W64) :=
        match v.val?, if load then x.k.val?.map (maskOf k) else some 0 with
        | some v, some m => f load n m v
        | _, _ => []
      firstOf [x.a.val?.bind (fun a => if a.toNat % 4 != 0 then some (trapAlign a) else none),
        lanesTrap s sp need 1 (bytes elemBytes x.a ++ bytes scaleBytes x.c)] }

/-- VLDB. -/
def execVldb (x : VldbR) (s : State) : Out :=
  issue x.stall { noOperands with a := .s x.a, c := .s x.c, k := .s x.k, d := .v x.d }
    (blockCheck x.fmt.val x.c x.k x.sp needLoad true)
    (fun s v =>
      let s := settle s
      let n := narrowOf (s.me.fmtReg x.fmt.val)
      let m := maskOf x.k v.k
      let ls := scaledBytes true n m v.a v.c
      match lanesFault s x.sp needLoad 1 ls with
      | some f => .fail 1 f
      | none => behindReds s x.sp (ls.map (fun l => (l.2, 1)))
        (let old := oldVec s x.d
         let topx := s.me.topx
         let (vals, bad, s) := lanesRead s x.pol 1 (lanesAt s x.sp needLoad 1 ls)
         let code (e : Nat) : Nat :=
           (mapGet 0 vals (n.width * e / 8) + 256 * mapGet 0 vals (n.width * e / 8 + 1)) / 2 ^ (n.width * e % 8) %
             2 ^ n.width
         let sc (e : Nat) : Nat := if scaleBlock n.scale = 0 then 0 else mapGet 0 vals (256 + e / scaleBlock n.scale)
         oweVector (orderAfter s s.cur.1 x.ord)
           (mapElems 32 m old (fun e => pack fmt32 .rne false (scaledRead n topx (sc e) (code e)))) bad)) s

/-- The bytes of 32 elements written under their block scales (R70, R167): elements, then scales. -/
def blockImage (n : Narrow) (topx : Bool) (mask : Nat) (src : Nat → Num) : List Byte × List Byte :=
  let bs := scaleBlock n.scale
  let sc (g : Nat) : Nat := scaleChoose n topx (blockMax mask src (bs * g) bs)
  let code (e : Nat) : Nat :=
    if !mask.testBit e then 0
    else if bs = 0 then n.write topx .rne (src e) else scaledWrite n topx .rne (sc (e / bs)) (src e)
  (toBytes (4 * n.width) (joinCells n.width ((List.range 32).map code)),
    (List.range (scaleCount n)).map (fun g => BitVec.ofNat 8 (sc g)))

/-- VSTB. -/
def execVstb (x : VstbR) (s : State) : Out :=
  issue x.stall { noOperands with a := .s x.a, b := .v x.b, c := .s x.c, k := .s x.k }
    (blockCheck x.fmt.val x.c x.k x.sp needStore false)
    (fun s v =>
      let s := settle s
      let n := narrowOf (s.me.fmtReg x.fmt.val)
      let m := maskOf x.k v.k
      let ls := scaledBytes false n m v.a v.c
      match lanesFault s x.sp needStore 1 ls with
      | some f => .fail 2 f
      | none => afterReds s (ordIsRelease x.ord) <| behindReds s x.sp (ls.map (fun l => (l.2, 1)))
        (let (es, ss) := blockImage n s.me.topx m (fun e => unpack fmt32 false (lane v.vb e))
         let byte (i : Nat) : Nat := (if i < 256 then es.getD i 0 else ss.getD (i - 256) 0).toNat
         let s := lanesWrite (orderBefore s s.cur.1 x.ord) x.pol 1 byte (lanesAt s x.sp needStore 1 ls)
         .done (orderAfter s s.cur.1 x.ord) .none .seq (anySnan fmt32 m v.vb))) s

/-! ### Lane slices (R131, R132) -/

/-- The checks of a lane-slice word: ALIGN, then the offset's range and the gang's reservation. -/
def sliceCheck : Checks :=
  { noChecks with mid := fun s x => match x.a.val? with
      | none => none
      | some a =>
        if a.toNat % 4 != 0 then some (trapAlign a)
        else match s.gangOf s.me.thread with
          | some g => if 4092 < a.toNat || !g.lanes || !g.covers s.cur.1 then some (trapAccess a) else none
          | none => some (trapAccess a) }

/-- Four bytes of a lane slice: slice i holds the bytes from 4,096 × i on. -/
def sliceRead (c : Core) (o i : Nat) : Nat := readLe c.lanes (4096 * i + o) 4

/-- The enabled lanes of a slice store written. -/
def sliceWrites (m : Memory) (o : Nat) (v : VImage) : List Nat → Memory
  | [] => m
  | i :: is => sliceWrites (writeLe m (4096 * i + o) 4 (lane v i)) o v is

/-- VLDL. -/
def execVldl (x : VldlR) (s : State) : Out :=
  issue x.stall { noOperands with a := .s x.a, k := .s x.k, d := .v x.d } sliceCheck
    (fun s v =>
      let m := maskOf x.k v.k
      oweVector s (mapElems 32 m (oldVec s x.d) (sliceRead s.myCore v.a.toNat))
        ((List.range 32).any (fun i => m.testBit i && s.myCore.flawIn .slice (4096 * i + v.a.toNat) 4))) s

/-- VSTL. -/
def execVstl (x : VstlR) (s : State) : Out :=
  issue x.stall { noOperands with a := .s x.a, b := .v x.b, k := .s x.k } sliceCheck
    (fun s v =>
      let y := s.myCore
      let m := sliceWrites y.lanes v.a.toNat v.vb ((List.range 32).filter (maskOf x.k v.k).testBit)
      .done (s.setCore s.cur.1 { y with lanes := m }) .none .seq false) s

/-! ### Prefetch (R168) -/

/-- PREF: a .GLB line comes into L1 unless its address or page forbids it; nothing traps, and an uncorrectable line is noted
alone (R298). A line that L1 holds already stays as it is, whatever the policy: R168 speaks of the fill alone (DESIGN CHOICE,
log 38). -/
def execPref (x : PrefM) (s : State) : Out :=
  issue x.stall (formSrc x.a) noChecks (fun s v =>
    let ea := effAddr x.off v.a
    let s' := match x.sp, resolve s s.cur.1 s.me.thread .glb needLoad true ea 1 with
      | .glb, .ok (.mem pa leaf) =>
        let s := tlbFill s s.cur.1 s.me.thread.part s.me.thread.asid ea.toNat
        let s := if s.poisoned pa then noteRead s pa else noteDecode s (pa / 64)
        if regionOf pa = .aliased then fillAlias s pa
        else if allocates s x.pol pa then l1Fill s s.cur.1 s.me.thread x.pol ea.toNat pa leaf else s
      | _, _ => s
    .done s' .none .seq false) s

/-! ### The iteration descriptor (R101) -/

/-- NEST (R101): the descriptor is read as one load, acquire at .pk. The claim of a fetcher that it replaces is answered first, but for
one that waits for firmware, which is abandoned (R104). -/
def execNest (x : UnC) (s : State) : Out :=
  issue x.stall (formSrc x.a) (alignCheck 64)
    (fun s v =>
      let s := settle s
      match readGlobal s s.cur.1 s.me.thread needLoad v.a 64 with
      | .error f => .fail 6 f
      | .ok (_, true) => .poison (noteGlobal s s.cur.1 s.me.thread v.a 64)
      | .ok (bs, false) =>
        let s := if s.me.claimOut && s.me.fetcher.failed then s.setMe { s.me with fetcher := Fetcher.reset } else s
        behindReds s .glb [(v.a, 64)] <| if s.me.claimOut then .park .result id else
        let s := orderAfter s s.cur.1 (.acq .pk)
        let s := s.setMe { s.me with fetcher := nestFetcher v.a s.me.wordAddr bs }
        .done (s.post [.iterationClaim s.cur.1 s.cur.2]) .none .seq false) s

/-! ### Stream registers (R169–R171) -/

/-- The R160 check of a stream's base: its page is looked at only when an element is. -/
def baseTrap (s : State) (sp : Space) (a : W64) (n : Nat) : Option Trap :=
  match sp with
  | .glb => if canonical a then none else some (trapAccess a)
  | _ => match resolve s s.cur.1 s.me.thread sp needLoad false a n with
    | .error (.trap t) => some t
    | _ => none

/-- SBIND's checks: base and stride multiples of the element size, then the base's space. -/
def sbindCheck (x : SbindR) : Checks :=
  let n := 2 ^ x.es.toNat
  { noChecks with mid := fun s y => (y.a.val?).bind (fun a =>
      firstOf [if a.toNat % n != 0 then some (trapAlign a) else none,
        (y.b.val?).bind (fun b => if b.toNat % n != 0 then some (trapAlign (a + b)) else none),
        (y.c.val?).bind (fun c => if c = 0 then none else baseTrap s x.sp a n)]) }

/-- SBIND. A read binding has its elements read ahead, so it waits for an ordering of its slot as an access does (R263,
R273). -/
def execSbind (x : SbindR) (s : State) : Out :=
  issue x.stall { noOperands with a := .s x.a, b := .s x.b, c := .s x.c } (sbindCheck x) (fun s v =>
    (if x.wr || v.c == 0 then id else behindFence s) <|
    let s := settle s
    let y := s.me.clearSend x.s.val
    let b : Stream :=
      { bound := true, wr := x.wr, size := x.es.toNat, sp := x.sp, base := v.a, stride := v.b, count := v.c.toNat,
        pos := 0, buf := [] }
    let s := s.setMe { y with streams := mapSet y.streams x.s.val b }
    .done (if x.wr || v.c == 0 then s else postOnce s (.streamPrefetch s.cur.1 s.cur.2 x.s.val)) .none .seq false) s

/-- SUNB. -/
def execSunb (x : SunbR) (s : State) : Out :=
  issue x.stall noOperands noChecks (fun s _ =>
    .done (s.setMe { s.me with streams := mapErase s.me.streams x.s.val }) .none .seq false) s

/-- SSTAT: `sys.status` [15:8]. -/
def execSstat (x : DR) (s : State) : Out :=
  issue x.stall { noOperands with d := .s x.d } noChecks (fun s _ =>
    .done s (.one (BitVec.ofNat 64 (s.me.status.toNat / 2 ^ 8 % 2 ^ 8)) 0) .seq false) s

/-- Whether the next element of a stream of a slot has to wait for a RED or a claim of its thread that is still to be performed
(R264). -/
def elementBehind (s : State) (c k : Nat) (b : Stream) (ea : W64) : Bool := b.sp == .glb && ownAhead s c k ea b.bytes

/-- STREAM_PREFETCH (R170): one element of a read stream fetched ahead, at most 16 and never beyond the count; an element
whose access would fail, or that is uncorrectable, is left for the popping word. -/
def execStreamPrefetch (c k r : Nat) (s : State) : Out :=
  let x := s.slot c k
  let b := x.stream r
  let p := b.pos + b.buf.length
  if !b.bound || b.wr || b.count ≤ p then .next s
  else
    let again := postOnce s (.streamPrefetch c k r)
    if 16 ≤ b.buf.length || elementBehind s c k b (b.addr p) then .next again
    else match resolve s c x.thread b.sp needLoad true (b.addr p) b.bytes with
      | .error _ => .next again
      | .ok loc =>
        let (v, bad, _) := loadLoc s c x.thread .noal (b.addr p) loc b.bytes
        if bad then .next again
        else .next ((again.setSlot c k { x with
          streams := mapSet x.streams r { b with buf := b.buf ++ [BitVec.ofNat 64 v] } }))

/-- The prefetches of a context's read streams set going: nothing is prefetched in a context that has been saved (R171). -/
def startStreams (s : State) (c k : Nat) : State :=
  (s.slot c k).streams.foldl (fun s e =>
    if e.2.bound && !e.2.wr && decide (e.2.pos < e.2.count) then postOnce s (.streamPrefetch c k e.1) else s) s

/-! ### Full/empty words (R174, R175) -/

/-- The full/empty bit of a word. -/
def State.isFull (s : State) (pa : Nat) : Bool := s.full.contains (pa / 4)

/-- A full/empty bit written; the line's monitors wake (R244). -/
def State.setFull (s : State) (pa : Nat) (b : Bool) : State :=
  wakeMonitors { s with full := if b then setIns s.full (pa / 4) else setDel s.full (pa / 4) } pa 4

/-- An access at the home of a line: translated, the core's own L1 copy written back and invalidated (R239). -/
def atHome (s : State) (c : Nat) (t : Thread) (need : Need) (va : W64) : Except Fail (Nat × W64 × State) :=
  match translate s c t need va with
  | .error f => .error f
  | .ok (pa, e) =>
    let s := tlbFill s c t.part t.asid va.toNat
    .ok (pa, e, flushFrom s (fun l => l.pline / 2 == pa / 64) [c])

/-- LDC: waits until the word is full, takes it, acquires at .pk. -/
def execLdc (x : LdcM) (s : State) : Out :=
  issue x.stall (formA x.a x.d) (accessCheck .glb needLdc false 4 (effAddr x.off)) (fun s v =>
    let s := settle s
    let ea := effAddr x.off v.a
    match atHome s s.cur.1 s.me.thread needLdc ea with
    | .error f => .fail 1 f
    | .ok (pa, _, s') => behindReds s .glb [(ea, 4)]
      (let s := s'
       if s.poisoned pa then oweScalar (noteBad s pa true) 0 true
       else if !s.isFull pa then .park .fullempty id
       else oweScalar (scAcquire (s.setFull pa false) s.cur.1) (homeRead s pa 4).1 false)) s

/-- STF: waits until the word is empty, fills it, a release at .pk. -/
def execStf (x : StfM) (s : State) : Out :=
  issue x.stall { noOperands with a := .s x.a, b := .s x.b } (accessCheck .glb needStf false 4 (effAddr x.off))
    (fun s v =>
      let s := settle s
      afterReds s true
      (let ea := effAddr x.off v.a
       match atHome s s.cur.1 s.me.thread needStf ea with
       | .error f => .fail 2 f
       | .ok (pa, leaf, s') => behindReds s .glb [(ea, 4)] <|
         let s := s'
         if s.poisoned pa then .poison (noteBad s pa true)
         else if s.isFull pa then .park .fullempty id
         else
           let s := scRelease s s.cur.1
           let s := homeWrite s none (leafClass leaf == 0) pa (toBytes 4 (v.b.toNat % 2 ^ 32))
           .done (s.setFull pa true) .none .seq false)) s

end Sys2Proof.Machine
end

