-- ==== Sys2Proof/Machine/Collective.lean ====
section
/-!
DEFINITION. The link layer of the fabric ports (R346–R349), and collectives: the record, its binding, what the ports send,
staging and enqueueing (R351, R352).
-/

namespace Sys2Proof.Machine

/-! ### Link flits (R347) -/

/-- One bit of the reflected CRC-32C. -/
def crcBit (c : BitVec 32) : BitVec 32 := if c.getLsbD 0 then c >>> 1 ^^^ 0x82F63B78#32 else c >>> 1

/-- One byte of it. -/
def crcByte (c : BitVec 32) (b : Byte) : BitVec 32 :=
  crcBit (crcBit (crcBit (crcBit (crcBit (crcBit (crcBit (crcBit (c ^^^ b.zeroExtend 32))))))))

/-- CRC-32C of a byte string. -/
def crc32c (bs : List Byte) : BitVec 32 := ~~~(bs.foldl crcByte 0xFFFFFFFF#32)

/-- Kinds of link flits. -/
inductive LinkKind where
  | data | idle | replay | retrain | other
  deriving DecidableEq, Repr

/-- A kind's code. -/
def LinkKind.code : LinkKind → Nat
  | .data => 0
  | .idle => 1
  | .replay => 2
  | .retrain => 3
  | .other => 15

/-- A kind by its code. -/
def linkKind (v : Nat) : LinkKind :=
  match v with
  | 0 => .data
  | 1 => .idle
  | 2 => .replay
  | 3 => .retrain
  | _ => .other

/-- A byte string cut or padded with zeros to n bytes. -/
def fitBytes (n : Nat) (bs : List Byte) : List Byte := (bs ++ zeroBytes n).take n

/-- A link flit: sequence number, kind, acknowledged number, and up to three understory flits. -/
def linkFlit (seq : Nat) (k : LinkKind) (ack : Nat) (slots : List (List Byte)) : List Byte :=
  let body := toBytes 2 (seq % 4096 + k.code * 4096) ++ toBytes 2 (ack % 4096 + (2 ^ slots.length - 1) % 8 * 4096) ++
    zeroBytes 4 ++ fitBytes 240 (slots.flatMap (fitBytes 80)) ++ zeroBytes 4
  body ++ toBytes 4 (crc32c body).toNat

/-- Fields of a link flit. -/
def flitSeq (bs : List Byte) : Nat := fieldAt bs 0 2 % 4096
def flitKind (bs : List Byte) : LinkKind := linkKind (fieldAt bs 0 2 / 4096)
def flitAck (bs : List Byte) : Nat := fieldAt bs 2 2 % 4096
def flitCrcOk (bs : List Byte) : Bool := bs.length == 256 && fieldAt bs 252 4 == (crc32c (bs.take 252)).toNat

/-- The understory flits in the valid slots of a link flit. -/
def flitSlots (bs : List Byte) : List (List Byte) :=
  ((List.range 3).filter (fun i => (fieldAt bs 2 2 / 4096).testBit i)).map (fun i => (bs.drop (8 + 80 * i)).take 80)

/-! ### Ports (R348) -/

/-- The fabric ports, each at reset until something changes it. -/
def State.port (s : State) (p : Nat) : Port := mapGet Port.reset s.ports p

/-- The state with a port replaced. -/
def State.setPort (s : State) (p : Nat) (x : Port) : State := { s with ports := mapSet s.ports p x }

/-- The number a port acknowledges: the last received in order. -/
def Port.ack (x : Port) : Nat := (x.rxSeq + 4095) % 4096

/-- A port that has sent a link flit, where it can. -/
def Port.sends (x : Port) (bs : List Byte) : Port :=
  if x.down || x.retrain then x else { x with wire := x.wire ++ [bs] }

/-- A port whose replay buffer has lost the flits up to an acknowledged number. -/
def Port.acked (x : Port) (ack : Nat) : Port :=
  if x.unacked.any (fun e => e.1 == ack) then
    { x with unacked := (x.unacked.dropWhile (fun e => e.1 != ack)).drop 1 }
  else x

/-- A port that sends again every unacknowledged flit from a number on. -/
def Port.replay (x : Port) (seq : Nat) : Port :=
  (x.unacked.dropWhile (fun e => e.1 != seq)).foldl (fun x e => x.sends e.2) x

/-- One data flit with understory flits sent by a port. -/
def Port.sendData (x : Port) (slots : List (List Byte)) : Port :=
  let bs := linkFlit x.txSeq .data x.ack slots
  { x with txSeq := (x.txSeq + 1) % 4096, unacked := x.unacked ++ [(x.txSeq, bs)], wire := x.wire ++ [bs] }

/-- The bytes of a block. -/
def blockBytes (s : State) (addr bb : Nat) : List Byte := toBytes bb (homeRead s addr bb).1

/-- The next blocks of a job, three at most (R352). -/
def SendJob.blocks (j : SendJob) : List Nat := ((List.range 3).map (fun i => j.next + i)).filter (fun b => decide (b < j.nblk))

/-- The poisoned lines of a block's source. -/
def SendJob.bad (s : State) (j : SendJob) (b : Nat) : List Nat := poisonedLines s (j.src + b * j.bb) j.bb

/-- The understory flits of the next blocks of a job (R352). A block of whose source a line is uncorrectable is not sent: R298 has no
row for a port, and nothing that depends on such a line is written by an engine (DESIGN CHOICE, log 15). -/
def jobSlots (s : State) (p : Nat) (j : SendJob) : List (List Byte) :=
  (j.blocks.filter (fun b => (j.bad s b).isEmpty)).map (fun b =>
    Config.blockFlit p j.id b (blockBytes s (j.src + b * j.bb) j.bb))

/-- The events of the lines that it has read (R305). -/
def noteJob (s : State) (j : SendJob) : State := noteLines s (j.blocks.flatMap (j.bad s))

/-- A port sends blocks while its replay buffer has room: at most n flits. -/
def pumpPort (p : Nat) : Nat → State → State
  | 0, s => s
  | n + 1, s =>
    let x := s.port p
    match x.todo with
    | [] => s
    | j :: js =>
      if x.down || x.retrain || decide (64 ≤ x.unacked.length) then s
      else
        let slots := jobSlots s p j
        let x := if slots.isEmpty then x else x.sendData slots
        let next := j.next + 3
        let todo := if j.nblk ≤ next then js else { j with next := next } :: js
        pumpPort p n ((noteJob s j).setPort p { x with todo := todo })

/-! ### Collectives (R351, R352) -/

/-- Whether an image may describe the blocks of a collective: valid, scale kind 1, width 2, 4 or 8. -/
def blockImageOk (i : BitVec 32) : Bool :=
  let n := narrowOf i
  imageValid i && n.scale == 1 && (n.width == 2 || n.width == 4 || n.width == 8)

/-- Bytes of a block of a width. -/
def blockSize (w : Nat) : Nat := 4 * w + 4

/-- The collective that a record at a physical address describes; none where it breaks the table of R351. -/
def collRecord (s : State) (addr : W64) : Option Collective :=
  let d := toBytes 64 (homeRead s addr.toNat 64).1
  let image := BitVec.ofNat 32 (fieldAt d 44 4)
  let nblk := fieldAt d 40 4
  let bar := fieldAt d 32 8
  let inMemory := match regionOf bar with | .hbm _ => true | _ => false
  if blockImageOk image && decide (1 ≤ nblk) && decide (nblk ≤ 65536) && fieldAt d 54 10 == 0 && bar % 64 == 0 &&
      inMemory && lineClass s bar == 0 then
    some { addr := addr, src := fieldAt d 0 8, dst := fieldAt d 8 8, stage := fieldAt d 16 8, status := fieldAt d 24 8,
           bar := fieldAt d 32 8, nblk := nblk, image := image, inPorts := BitVec.ofNat 16 (fieldAt d 48 2),
           outPorts := BitVec.ofNat 16 (fieldAt d 50 2), id := fieldAt d 52 2, masks := [], enq := [], queue := [],
           claims := 0, anyInc := false, since := s.clk.toNat }
  else none

/-- Bytes of a block of a collective. -/
def Collective.bb (k : Collective) : Nat := blockSize (narrowOf k.image).width

/-- The received mask of a block. -/
def Collective.mask (k : Collective) (b : Nat) : BitVec 16 := mapGet 0 k.masks b

/-- The status word of a block (R352). -/
def statusWord (inc : Bool) (mask : BitVec 16) : Nat := 2 ^ 31 + inc.toNat * 2 ^ 30 + mask.toNat

/-- A block enqueued: its status word is written first. -/
def enqueueBlock (s : State) (k : Collective) (b : Nat) (inc : Bool) : State :=
  let m := k.mask b
  let s := homeWrite s none true (k.status + 4 * b) (toBytes 4 (statusWord inc m))
  { s with coll := some { k with enq := k.enq ++ [b], queue := k.queue ++ [(b, m, inc)], anyInc := k.anyInc || inc } }

/-- The blocks of a list that have not been enqueued, enqueued in turn. -/
def enqueueAll (inc : Bool) : List Nat → State → State
  | [], s => s
  | b :: bs, s => match s.coll with
    | none => s
    | some k => enqueueAll inc bs (if k.enq.contains b then s else enqueueBlock s k b inc)

/-- The ports of a collective given their blocks to send. -/
def startJobs (k : Collective) : List Nat → State → State
  | [], s => s
  | p :: ps, s =>
    let x := s.port p
    let j : SendJob := { id := k.id, src := k.src, bb := k.bb, next := 0, nblk := k.nblk }
    startJobs k ps (if k.outPorts.getLsbD p && !x.down then s.setPort p { x with todo := x.todo ++ [j] } else s)

/-- A write of `svc.coll` (R351): ignored while a collective is active, or where the record breaks its table; a collective
that expects no contribution has every block complete at once. A record on a line that is uncorrectable is not bound, and the event
enters the fault-address queue (R298 has no row for root logic's own reads; DESIGN CHOICE, log 9). -/
def collBind (s : State) (addr : W64) : State :=
  let bad := poisonedLines s addr.toNat 64
  if s.coll.isNone && !bad.isEmpty then noteLines s bad
  else match s.coll, collRecord s addr with
  | none, some k =>
    let s := startJobs k (List.range 16) { s with coll := some k }
    if k.inPorts = 0 then enqueueAll false (List.range k.nblk) s else s
  | _, _ => s

end Sys2Proof.Machine
end

