-- ==== Sys2Proof/Machine/System.lean ====
section
/-!
DEFINITION. System registers (R110, R111, R219, R258, R340, R350), traps and returns (R112, R113) and trace markers (R114).
-/

namespace Sys2Proof.Machine

/-! ### Values of system registers -/

/-- The mean congestion level of a die's sixteen clusters (R219). -/
def dieLevel (s : State) (d : Nat) : Nat :=
  ((List.range 16).map (fun i => min 255 ((s.cluster (16 * d + i)).lastDefl / 16))).foldl (· + ·) 0 / 16

/-- `sys.netload` (R219). -/
def netload (s : State) (c : Nat) : Nat :=
  let x := s.cluster (clusterOf c)
  x.lastDefl * 2 ^ 16 + dieLevel s (dieOf c) * 2 ^ 8 + min 255 (x.lastDefl / 16)

/-- `sys.clearing` (R258). -/
def clearingWord (s : State) (d : Nat) : Nat :=
  (s.die d).clearings % 256 * 2 ^ 16 +
    ((List.range 16).map (fun i => if (s.cluster (16 * d + i)).clearing then 2 ^ i else 0)).foldl (· + ·) 0

/-- `sys.gang`, `sys.thr` and `sys.stage` of a thread (R111). -/
def gangWord (t : Thread) : Nat := t.launch % 2 ^ 16 * 2 ^ 32 + t.gang % 2 ^ 32
def thrWord (t : Thread) : Nat := t.j % 16 * 2 ^ 20 + t.y % 4 * 2 ^ 18 + t.x % 4 * 2 ^ 16 + t.index % 256
def stageWord (t : Thread) : Nat := t.prio % 8 * 2 ^ 8 + t.stage % 16

/-- `svc.port0`–`svc.port15` (R350). -/
def portWord (p : Port) : Nat :=
  p.repairs * 2 ^ 32 + p.replays * 2 ^ 16 + p.retrain.toNat * 2 ^ 5 + p.down.toNat * 2 ^ 4 +
    (if p.down then 0 else p.lanes)

/-- The value of a system register of the current slot; none for a number the table of R110 does not list. -/
def sysValue (s : State) (reg : Nat) : Option W64 :=
  let x := s.me
  let y := s.myCore
  let c := s.cur.1
  if reg = 0x000 then some x.status
  else if reg = 0x001 then some x.tvec
  else if reg = 0x002 then some x.tcause
  else if reg = 0x003 then some x.tepc
  else if 0x008 ≤ reg ∧ reg ≤ 0x00F then some ((x.fmtReg (reg - 8)).zeroExtend 64)
  else if reg = 0x010 then some (BitVec.ofNat 64 (gangWord x.thread))
  else if reg = 0x011 then some (BitVec.ofNat 64 (thrWord x.thread))
  else if reg = 0x012 then some (BitVec.ofNat 64 (stageWord x.thread))
  else if reg = 0x013 then some (BitVec.ofNat 64 (s.loc c s.cur.2))
  else if reg = 0x014 then some s.clk
  else if reg = 0x015 then some (BitVec.ofNat 64 x.thread.part)
  else if reg = 0x020 then some (BitVec.ofNat 64 (netload s c))
  else if reg = 0x021 then some (BitVec.ofNat 64 (s.cluster (clusterOf c)).rate)
  else if reg = 0x022 then some (BitVec.ofNat 64 (clearingWord s (dieOf c)))
  else if reg = 0x030 then some x.cldser
  else if reg = 0x100 then some y.svcCmd
  else if 0x101 ≤ reg ∧ reg ≤ 0x106 then some (mapGet 0 y.svcArg (reg - 0x101))
  else if reg = 0x108 then some y.svcRes0
  else if reg = 0x109 then some y.svcRes1
  else if reg = 0x10A then some (BitVec.ofNat 64 s.faqOvf)
  else if reg = 0x110 then some (match s.coll with | some k => k.addr | none => 0)
  else if 0x120 ≤ reg ∧ reg ≤ 0x12F then some (BitVec.ofNat 64 (portWord (s.port (reg - 0x120))))
  else none

/-- Whether a register of the table is read-only (R110, R340, R350, R351). -/
def sysReadOnly (reg : Nat) : Bool :=
  (decide (0x010 ≤ reg) && decide (reg ≤ 0x022)) || reg == 0x108 || reg == 0x109 || reg == 0x10A ||
    (decide (0x120 ≤ reg) && decide (reg ≤ 0x12F))

/-- The checks of a register access (R110). -/
def sysCheck (reg : Nat) (writes : Bool) : Checks :=
  let trap (s : State) : Option Trap :=
    if 0x100 ≤ reg ∧ reg ≤ 0x1FF ∧ s.isSvc s.cur.1 = false then some (trapPriv reg)
    else if (sysValue s reg).isNone then some trapIllegal
    else if writes && sysReadOnly reg then some trapIllegal
    else if reg = 0x030 ∧ s.me.thread.debug = false then some (trapPriv reg)
    else none
  { noChecks with pre := fun s _ => trap s }

/-- SYSRD (R110). -/
def execSysrd (x : SysrdI) (s : State) : Out :=
  issue x.stall { noOperands with d := .s x.d } (sysCheck x.reg.toNat false)
    (fun s _ => .done s (.one ((sysValue s x.reg.toNat).getD 0) 0) .seq false) s

/-! ### Service commands (R340, R341) -/

/-- A refused command: its reason (R340). -/
def refusal (reason : Nat) : W64 := BitVec.ofNat 64 (2 ^ 63 + reason * 2 ^ 56)

/-- The step that performs a command, by its code and arguments; or the reason it is refused at once. -/
def commandStep (cmd : W64) (arg : Nat → W64) : Sum Instr Nat :=
  match cmd.toNat % 256 with
  | 0x01 => .inl .asrec
  | 0x02 => .inl .faultdest
  | 0x03 => if arg 2 = 0 then .inl .cereplyResume else if arg 2 = 1 then .inl .cereplyEnd else .inr 2
  | 0x04 => if arg 2 = 0 then .inl .redreplyResume else if arg 2 = 1 then .inl .redreplyDrop else .inr 2
  | 0x05 => .inl .migpool
  | 0x06 => .inl .decwin
  | 0x07 => .inl .objtab
  | 0x08 => .inl .faqpop
  | 0x09 => .inl .thrtab
  | 0x0A => .inl .policy
  | 0x0B => .inl .lend
  | 0x0C => if arg 1 = 0 then .inl .coreRestart else if arg 1 = 1 then .inl .coreHold
    else if arg 1 = 2 then .inl .coreRelease else .inr 2
  | 0x0D => .inl .tracebuf
  | 0x0E => .inl .traceptr
  | 0x0F => .inl .partset
  | 0x10 => .inl .hostsvc
  | _ => .inr 1

/-- A command started by the current slot (R340): its accesses are performed, its arguments taken, its step is under way. -/
def startCommand (cmd : W64) (s : State) : State :=
  let c := s.cur.1
  let s := scRelease (settle s) c
  let x := s.core c
  let s := s.setCore c { x with
    svcCmd := cmd &&& 0xFF, svcBusy := true, svcDone := false, svcRes0 := 0, svcRes1 := 0, cmdArgs := x.svcArg,
    svcBy := s.myTid }
  let s := s.setMe { s.me with asked := true }
  match commandStep cmd (fun i => mapGet 0 x.svcArg i) with
  | .inl i => { s.post [i] with commands := s.commands ++ [c] }
  | .inr reason => s.setCore c { s.core c with svcRes0 := refusal reason, svcDone := true }

/-- A command that has completed, acquired by the slot that waits for it (R340). -/
def endCommand (s : State) : State :=
  let s := scAcquire s s.cur.1
  s.setCore s.cur.1 { s.myCore with svcBusy := false, svcDone := false }

/-- Whether a core is taken by a command: one under way, or one that has completed and whose slot still waits to issue. A slot
that has been saved or emptied since waits no more; its SYSWR, where it is restored, starts the command again. -/
def commandTaken (x : Core) : Bool :=
  x.svcBusy && (!x.svcDone || x.slots.any (fun e : Nat × Slot =>
    e.2.asked && e.2.st != .empty && BitVec.ofNat 64 (threadId e.2.thread) == x.svcBy))

/-- A write of `svc.cmd` (R340): the slot parks with reason result until the command completes. -/
def commandAct (v : W64) (s : State) : Act :=
  if s.me.asked && s.myCore.svcDone then .done (endCommand s) .none .seq false
  else if s.me.asked || commandTaken s.myCore then .park .result id
  else afterReds (settle s) true (.park .result (startCommand v))

/-- The effect of a register write other than `svc.cmd` (R8, R76, R77, R64, R156, R340, R351). -/
def sysWrite (s : State) (reg : Nat) (v : W64) : State :=
  let x := s.me
  if reg = 0x000 then s.setMe { x with status := v &&& statusMask }
  else if reg = 0x001 then s.setMe { x with tvec := v &&& tvecMask }
  else if reg = 0x002 then s.setMe { x with tcause := v }
  else if reg = 0x003 then s.setMe { x with tepc := v }
  else if 0x008 ≤ reg ∧ reg ≤ 0x00F then
    s.setMe { x with fmt := mapSet x.fmt (reg - 8) (v.setWidth 32 &&& fmtMask) }
  else if reg = 0x030 then s.setMe { x with cldser := v }
  else if 0x101 ≤ reg ∧ reg ≤ 0x106 then
    s.setCore s.cur.1 { s.myCore with svcArg := mapSet s.myCore.svcArg (reg - 0x101) v }
  else s

/-- A write of `svc.coll` (R351): every earlier access of the slot is performed, the collective is bound, and its ports
start. -/
def collAct (v : W64) (s : State) : Act :=
  let s := settle s
  afterReds s true (.done ((collBind (scRelease s s.cur.1) v).post [.collectiveBind]) .none .seq false)

/-- SYSWR (R110). As A, `imm` is the register number sign-extended (R40 leaves the extension to the instruction and R110 gives
none; DESIGN CHOICE, log 38). -/
def execSyswr (x : SyswrI) (s : State) : Out :=
  issue x.stall { formSrc x.a with imm := x.reg.signExtend 64 } (sysCheck x.reg.toNat true)
    (fun s v =>
      if x.reg = 0x100 then commandAct v.a s
      else if x.reg = 0x110 then collAct v.a s
      else .done (sysWrite (leavePark s) x.reg.toNat v.a) .none .seq false) s

/-! ### Traps and trace (R112–R114) -/

/-- TRAP (R112): it never issues. -/
def execTrap (x : TrapI) (s : State) : Out :=
  issue x.stall noOperands noChecks (fun _ _ => .fail 0 (.trap (trapTrap x.imm.toNat))) s

/-- ERET (R113). -/
def execEret (x : BareI) (s : State) : Out :=
  issue x.stall noOperands noChecks
    (fun s _ => match returnTo s s.me.tepc (causeIdx s.me.tcause) with
      | .position h i => .done (s.setMe s.me.clearTin) .none (.at_ h i) false
      | .bad h => .fail 4 (.trap (trapBadtgt h))
      | .fail f => .fail 4 f
      | .poison => .poison (noteFetch s (returnHdr s.me.tepc (causeIdx s.me.tcause)))) s

/-- TRACE (R114): a marker record where the slot's trace bit is 1. As A, `imm` is the tag sign-extended (R40 and R41 leave the
extension to the instruction and R114 gives none; DESIGN CHOICE, log 38). That TRACE raises no trap but ILLEGAL and does nothing
where the bit is 0 is read as said of its own effect: its operand A is read as that of any word, with its waits, its traps and
what it pops, whatever the bit (DESIGN CHOICE, log 38). -/
def execTrace (x : TraceI) (s : State) : Out :=
  issue x.stall { formSrc x.a with imm := x.tag.signExtend 64 } noChecks
    (fun s v => .done (traceRec (leavePark s) s.cur.1 s.cur.2 0xC x.tag.toNat v.a.toNat) .none .seq false) s

end Sys2Proof.Machine
end

