-- ==== Sys2Proof/Machine/Buffers.lean ====
section
/-!
DEFINITION. Circular buffers (R172, R173).
-/

namespace Sys2Proof.Machine

/-- A circular buffer of a core. -/
def Core.cbuf (x : Core) (k : Nat) : CBuf := mapGet CBuf.reset x.cbufs k

/-- The state with a buffer of a core replaced. -/
def setCbuf (s : State) (c k : Nat) (b : CBuf) : State :=
  s.setCore c { s.core c with cbufs := mapSet (s.core c).cbufs k b }

/-- The gang of the current thread. -/
def State.myGang (s : State) : GangId := (s.me.thread.launch, s.me.thread.gang)

/-- ACCESS of a word that names a buffer of another gang, or one never defined (R172). -/
def cbTrap (s : State) (k : Nat) : Option Trap :=
  if (s.myCore.cbuf k).owner = some s.myGang then none else some (trapResource (0x200 + k))

/-- The checks of a word other than CBDEF. -/
def cbCheck (k : Nat) : Checks := { noChecks with mid := fun s _ => cbTrap s k }

/-- A space of a buffer as a memory space. -/
def cbSpace : CbSpace → Space
  | .spd => .spd
  | .cls => .cls

/-- The limits of B and C (R173). -/
def cbSizeOk (v : W64) : Bool := v.toNat % 32 == 0 && decide (32 ≤ v.toNat) && decide (v.toNat ≤ 65536)
def cbCountOk (v : W64) : Bool := decide (1 ≤ v.toNat) && decide (v.toNat ≤ 256)

/-- CBDEF's checks: the limits, the alignment of A, the owner, and the region, which holds at least 32 bytes whatever B and C are; each
as soon as its operands can be read (R89). -/
def cbdefCheck (x : CbdefR) : Checks :=
  { pre := fun _ y =>
      if (y.b.val?.map cbSizeOk).getD true && (y.c.val?.map cbCountOk).getD true then none else some trapIllegal
    mid := fun s y =>
      firstOf [(y.a.val?).bind (fun a => if a.toNat % 32 != 0 then some (trapAlign a) else none),
        if (s.myCore.cbuf x.cb.val).owner.isSome then cbTrap s x.cb.val else none,
        (y.a.val?).bind (fun a =>
          let n := ((y.b.val?).getD 32).toNat * ((y.c.val?).getD 1).toNat
          match resolve s s.cur.1 s.me.thread (cbSpace x.sp) needStore false a n with
          | .ok _ => none
          | .error _ => some (trapAccess a))] }

/-- CBDEF (R173). -/
def execCbdef (x : CbdefR) (s : State) : Out :=
  issue x.stall { noOperands with a := .s x.a, b := .s x.b, c := .s x.c } (cbdefCheck x) (fun s v =>
    let b : CBuf :=
      { CBuf.reset with
        owner := some s.myGang, sp := x.sp, base := v.a.toNat, size := v.b.toNat, count := v.c.toNat,
        free := v.c.toNat, waiters := (s.myCore.cbuf x.cb.val).waiters }
    .done (setCbuf s s.cur.1 x.cb.val b) .none .seq false) s

/-- A slot struck from the waiters of every buffer of a core. -/
def unwait (x : Core) (k : Nat) : Core :=
  { x with cbufs := x.cbufs.map (fun e => (e.1, { e.2 with waiters := e.2.waiters.filter (fun w => w.1 != k) })) }

/-- Slots that parked before a slot on the same buffer for the same purpose and still wait: the order of R173 is kept among
words of one kind, and a word that comes new stands behind those still parked (R173 says no more; DESIGN CHOICE, log 38). -/
def waitersBefore (x : Core) (b : CBuf) (k : Nat) (take : Bool) : Nat :=
  ((b.waiters.takeWhile (fun w => w.1 != k)).filter
    (fun w => w.2 == take && (mapGet Slot.reset x.slots w.1).st == .parked .buffer)).length

/-- The current slot noted among the waiters of a buffer. -/
def waitOn (s : State) (k : Nat) (take : Bool) : State :=
  let x := s.myCore
  let b := x.cbuf k
  if b.waiters.any (fun w => w.1 == s.cur.2) then s
  else
    let x := unwait x s.cur.2
    s.setCore s.cur.1 { x with cbufs := mapSet x.cbufs k { b with waiters := b.waiters ++ [(s.cur.2, take)] } }

/-- CBRSV's counts and the slot address that it yields. -/
def cbReserve (b : CBuf) : Nat × CBuf :=
  (b.base + b.rsv * b.size, { b with free := b.free - 1, reserved := b.reserved + 1, rsv := (b.rsv + 1) % b.count })

/-- CBPUB's counts. -/
def cbPublish (b : CBuf) : CBuf :=
  { b with reserved := b.reserved - 1, filled := b.filled + 1, pub := (b.pub + 1) % b.count }

/-- CBTAKE's counts and the slot address that it yields. -/
def cbTake (b : CBuf) : Nat × CBuf :=
  (b.base + b.take * b.size, { b with filled := b.filled - 1, taken := b.taken + 1, take := (b.take + 1) % b.count })

/-- CBREL's counts. -/
def cbRelease (b : CBuf) : CBuf :=
  { b with taken := b.taken - 1, free := b.free + 1, rel := (b.rel + 1) % b.count }

/-- CBRSV (R173). -/
def execCbrsv (x : CbdR) (s : State) : Out :=
  issue x.stall { noOperands with d := .s x.d } (cbCheck x.cb.val) (fun s _ =>
    let k := x.cb.val
    let b := s.myCore.cbuf k
    if b.free ≤ waitersBefore s.myCore b s.cur.2 false then .park .buffer (fun s => waitOn s k false)
    else
      let s := s.setCore s.cur.1 (unwait s.myCore s.cur.2)
      let (a, b) := cbReserve (s.myCore.cbuf k)
      oweScalar (setCbuf s s.cur.1 k b) a false) s

/-- CBPUB (R173). -/
def execCbpub (x : CbR) (s : State) : Out :=
  issue x.stall noOperands (cbCheck x.cb.val) (fun s _ =>
    let b := s.myCore.cbuf x.cb.val
    if b.reserved = 0 then .done s .none .seq false
    else
      let s := settle s
      afterReds s true
      (let s := scRelease s s.cur.1
       .done (setCbuf s s.cur.1 x.cb.val (cbPublish b)) .none .seq false)) s

/-- CBTAKE (R173). -/
def execCbtake (x : CbdR) (s : State) : Out :=
  issue x.stall { noOperands with d := .s x.d } (cbCheck x.cb.val) (fun s _ =>
    let k := x.cb.val
    let b := s.myCore.cbuf k
    if b.filled ≤ waitersBefore s.myCore b s.cur.2 true then .park .buffer (fun s => waitOn s k true)
    else behindFence s <|
      let s := scAcquire s s.cur.1
      let s := s.setCore s.cur.1 (unwait s.myCore s.cur.2)
      let (a, b) := cbTake (s.myCore.cbuf k)
      oweScalar (setCbuf s s.cur.1 k b) a false) s

/-- CBREL (R173). -/
def execCbrel (x : CbR) (s : State) : Out :=
  issue x.stall noOperands (cbCheck x.cb.val) (fun s _ =>
    let b := s.myCore.cbuf x.cb.val
    if b.taken = 0 then .done s .none .seq false
    else
      let s := settle s
      afterReds s true
      (let s := scRelease s s.cur.1
       .done (setCbuf s s.cur.1 x.cb.val (cbRelease b)) .none .seq false)) s

end Sys2Proof.Machine
end

