-- ==== Sys2Proof/Machine/Atomic.lean ====
section
/-!
DEFINITION. Atomics (R238–R240), queued reservations (R300–R303), barrier objects (R242, R243), MWAIT (R244), range
write-back and invalidation (R235), and FENCE (R273).
-/

namespace Sys2Proof.Machine

/-! ### AMO, CAS and RED (R238, R239) -/

/-- The checks of an atomic at A. -/
def atomCheck (sp : Space) (n : Nat) : Checks := accessCheck sp needAtomic false n id

/-- The current slot's sticky bit after a word that read B. -/
def State.noteB (s : State) (b : Bool) : State := s.setMe (s.me.noteSnan b)

/-- The event of an access to a poisoned line enters the fault-address queue (R298, R305). -/
def noteLoc (s : State) : Loc → State
  | .mem pa _ => noteRead s pa
  | _ => s

/-- What leaves the core's L1 before its atomic at a location (R239), the location's translation cached. -/
def atomLeave (s : State) (ea : W64) : Loc → State
  | .mem pa leaf => leaveHome (tlbFill s s.cur.1 s.me.thread.part s.me.thread.asid ea.toNat) s.cur.1 pa leaf
  | _ => s

/-- AMO and CAS after their checks: one read-modify-write, its old value owed. -/
def atomAct (s : State) (sp : Space) (o : Ord) (ea : W64) (n : Nat) (f : Nat → Option Nat) (res : Nat → Nat)
    (snan : Bool) : Act :=
  let s := settle s
  match resolve s s.cur.1 s.me.thread sp needAtomic false ea n with
  | .error f => .fail 3 f
  | .ok loc => afterReds s (ordIsRelease o) <| behindReds s sp [(ea, n)]
    (let s := atomLeave (s.noteB snan) ea loc
     if locPoisoned s n loc then oweScalar (noteLoc s loc) 0 true
     else
       let s := orderBefore s s.cur.1 o
       let (old, s) := rmw s s.cur.1 loc n f
       oweScalar (orderAfter s s.cur.1 o) (res old) false)

/-- AMO. -/
def execAmo (x : AmoR) (s : State) : Out :=
  let n := wtyBytes x.w
  issue x.stall (formAB x.a x.b x.d) (atomCheck x.sp n) (fun s v =>
    atomAct s x.sp x.ord v.a n (fun old => some (amoNew x.op x.w old v.b)) (amoResult (amoIsFp x.op) x.w)
      (amoSnan x.op v.b)) s

/-- CAS: the new value where the old one equals B; nothing is written otherwise. -/
def execCas (x : CasR) (s : State) : Out :=
  let n := wtyBytes x.w
  issue x.stall (formABC x.a x.b x.c x.d) (atomCheck x.sp n) (fun s v =>
    atomAct s x.sp x.ord v.a n
      (fun old => if old = v.b.toNat % 2 ^ (8 * n) then some (v.c.toNat % 2 ^ (8 * n)) else none)
      (amoResult false x.w) false) s

/-- RED's checks: a .GLB address is not translated before it issues (R238). -/
def redCheck (sp : Space) (n : Nat) : Checks :=
  match sp with
  | .glb => { noChecks with mid := fun _ x => x.a.val?.bind (fun a =>
      if a.toNat % n != 0 then some (trapAlign a) else if canonical a then none else some (trapAccess a)) }
  | sp => atomCheck sp n

/-- A .GLB RED accepted: its translation is under way (R240). -/
def redDefer (s : State) (op : AmoOp) (ty : WTy) (a b : W64) : State :=
  let (id, s) := s.newName
  let r : DefRed :=
    { id := id, core := s.cur.1, slot := s.cur.2, thr := s.me.thread, op := op, w := ty, addr := a, val := b,
      word := s.me.wordAddr, failed := false }
  { s.post [.redTranslation id] with reds := s.reds ++ [r] }

/-- RED. -/
def execRed (x : RedR) (s : State) : Out :=
  let n := wtyBytes x.w
  issue x.stall { noOperands with a := .s x.a, b := .s x.b } (redCheck x.sp n) (fun s v =>
    let s := if ordIsRelease x.ord then settle s else s
    afterReds s (ordIsRelease x.ord)
      (let s := orderBefore (s.noteB (amoSnan x.op v.b)) s.cur.1 x.ord
       match x.sp with
       | .glb => behindClaim s [(v.a, n)] (.done (redDefer s x.op x.w v.a v.b) .none .seq false)
       | sp => match resolve s s.cur.1 s.me.thread sp needAtomic false v.a n with
         | .error f => .fail 3 f
         | .ok loc =>
           if locPoisoned s n loc then .poison (noteLoc s loc)
           else .done (rmw s s.cur.1 loc n (fun old => some (amoNew x.op x.w old v.b))).2 .none .seq false)) s

/-! ### Queued reservations (R300–R303) -/

/-- Whether the current thread holds a line. -/
def holdsLine (s : State) (line : Nat) : Bool :=
  match resHolder s line with
  | some e => e.tid == s.myTid
  | none => false

/-- The current thread appended to the FIFO of a line; the first entry is the holder and is granted at once. -/
def resJoin (s : State) (line : Nat) : State :=
  { s with res := s.res ++
      [{ line := line, tid := s.myTid, held := if (resHolder s line).isNone then some s.clk.toNat else none }] }

/-- Whether the current thread has an entry for a line. -/
def resWaits (s : State) (line : Nat) : Bool := s.res.any (fun e => e.line == line && e.tid == s.myTid)

/-- The partition that owns a line's stack. -/
def State.partOfLine (s : State) (line : Nat) : Option Partition :=
  (s.parts.find? (fun e => e.2.stackSet.testBit (line * 64 / 2 ^ 36))).map (·.2)

/-- Whether the holder of a line has reached the tenure limit of the line's partition (R302). -/
def tenureOver (s : State) (line : Nat) : Bool :=
  match resHolder s line, s.partOfLine line with
  | some e, some p => (match e.held with
      | some h => p.tau != 0 && decide (h + p.tau ≤ s.clk.toNat)
      | none => false)
  | _, _ => false

/-- A line without a holder that has reached the tenure limit. -/
def expireTenure (s : State) (line : Nat) : State :=
  match resHolder s line with
  | some e => if tenureOver s line then resDrop s (fun x => x.line == line && x.tid == e.tid) else s
  | none => s

/-- The checks of a reservation word at A (R301). -/
def resCheck (n : Nat) : Checks := accessCheck .glb needLrw false n id

/-- The word read by the thread that holds its line: a read-modify-write that writes what it read (R301). -/
def lrwTake (s : State) (pa n : Nat) (hc : Bool) : Act :=
  let v := (homeRead s pa n).1
  oweScalar (scAcquire (homeWrite s none hc pa (toBytes n v)) s.cur.1) v false

/-- LRW: a request that finds the bank queue full is repeated after 256 clk, 16 turns. -/
def execLrw (x : LrwR) (s : State) : Out :=
  let n := wtyBytes x.w
  issue x.stall (formA x.a x.d) (resCheck n) (fun s v =>
    let s := settle s
    match translate s s.cur.1 s.me.thread needLrw v.a with
    | .error f => .fail 3 f
    | .ok (pa, leaf) =>
      let line := pa / 64
      behindReds s .glb [(v.a, n)]
      (let s' := leaveHome s s.cur.1 pa leaf
       if s'.poisoned pa then oweScalar (noteBad s' pa true) 0 true
       else if holdsLine s line then lrwTake s' pa n (leafClass leaf == 0)
       else if resWaits s line then .park .reservation id
       else if s.me.asked && (s.me.sleepLeft.getD 0) != 0 then .park .reservation id
       else if 64 ≤ bankCount s line then
         .park .reservation (fun s => s.setMe { s.me with asked := true, sleepLeft := some 16 })
       else
         let s' := resJoin s' line
         if holdsLine s' line then lrwTake s' pa n (leafClass leaf == 0) else .park .reservation (fun s => resJoin s line))) s

/-- SCH: the holder's store, or 1 and nothing written. -/
def execSch (x : SchR) (s : State) : Out :=
  let n := wtyBytes x.w
  issue x.stall (formAB x.a x.b x.d) (resCheck n) (fun s v =>
    let s := settle s
    match translate s s.cur.1 s.me.thread needLrw v.a with
    | .error f => .fail 3 f
    | .ok (pa, leaf) => afterReds s true <| behindReds s .glb [(v.a, n)]
      (let s := leaveHome s s.cur.1 pa leaf
       if s.poisoned pa then .poison (noteBad s pa true)
       else
         let s := scRelease s s.cur.1
         let line := pa / 64
         if holdsLine s line && !tenureOver s line then
           let s := homeWrite s none (leafClass leaf == 0) pa (toBytes n v.b.toNat)
           oweScalar (resDrop s (fun e => e.line == line && e.tid == s.myTid)) 0 false
         else oweScalar s 1 false)) s

/-- RREL. -/
def execRrel (x : RrelR) (s : State) : Out :=
  issue x.stall (formSrc x.a) (resCheck (wtyBytes x.w)) (fun s v =>
    let s := settle s
    match translate s s.cur.1 s.me.thread needLrw v.a with
    | .error f => .fail 3 f
    | .ok (pa, _) => afterReds s true <| behindReds s .glb [(v.a, wtyBytes x.w)]
      (let s := scRelease s s.cur.1
       let line := pa / 64
       let t := s.myTid
       .done (if holdsLine s line then resDrop s (fun e => e.line == line && e.tid == t) else s) .none .seq false)) s

/-- TENURE_EXPIRY (R302): the holder of a line that has reached τ is removed. -/
def execTenureExpiry (line : Nat) (s : State) : Out := .next (expireTenure s line)

/-- LRW_REPEAT (R301): a refused request asks again. -/
def execLrwRepeat (core slot : Nat) (s : State) : Out :=
  let x := s.slot core slot
  .next (if x.st = .parked .reservation ∧ x.asked = true then s.setSlot core slot { x with sleepLeft := some 0 } else s)

/-! ### Barrier objects (R242, R243) -/

/-- The state word of a barrier after an arrival, its counts, and whether the phase changed. -/
def arriveWords (expected count state : Nat) (err : Bool) : Nat × Nat × Bool :=
  let state := if err then state ||| 2 ^ 31 else state
  let p := state % 2 ^ 31
  if expected = 0 then (count, state ||| 2 ^ 31, false)
  else
    let count := (count + 1) % 2 ^ 32
    if expected ≤ count then (0, state / 2 ^ 31 * 2 ^ 31 + (p + 1) % 2 ^ 31, true) else (count, state, false)

/-- The arrival word. -/
def arrivalWord (before after : Nat) : Nat := after / 2 ^ 31 * 2 ^ 31 + before % 2 ^ 31

/-- One arrival on the barrier object at a physical address (R242): the arrival word and the state after it. -/
def arrive (s : State) (pa : Nat) (err : Bool) : Nat × State :=
  let expected := readLe s.mem pa 4
  let state := readLe s.mem (pa + 8) 4
  let (count', state', changed) := arriveWords expected (readLe s.mem (pa + 4) 4) state err
  let rest := bytesAt s.mem (pa + 12) 14
  let bs := toBytes 4 count' ++ toBytes 4 state' ++ (if changed then rest.take 4 ++ zeroBytes 10 else rest)
  (arrivalWord state state', homeWrite s none true (pa + 4) bs)

/-- The checks of a barrier operand (R242). -/
def barCheck (need : Need) : Checks := accessCheck .glb need false 64 id

/-- BARR. -/
def execBarr (x : DlA) (s : State) : Out :=
  issue x.stall (formA x.a x.d) (barCheck needArrive) (fun s v =>
    let s := settle s
    match atHome s s.cur.1 s.me.thread needArrive v.a with
    | .error f => .fail 3 f
    | .ok (pa, _, s') => afterReds s true <| behindReds s .glb [(v.a, 64)]
      (let s := s'
       if s.poisoned pa then oweScalar (noteBad s pa true) 0 true
       else
         let (w, s) := arrive (scRelease s s.cur.1) pa false
         oweScalar s w false)) s

/-- The bit of the current cluster or gateway core set in a barrier's summary (R242). -/
def markWaiter (s : State) (pa : Nat) : State :=
  let w := readLe s.mem (pa + 16) 10
  let b := 2 ^ clusterOf s.cur.1
  if w / b % 2 = 1 then s else homeWrite s none true (pa + 16) (toBytes 10 (w + b))

/-- The phase of the barrier object at a physical address. -/
def barPhase (s : State) (pa : Nat) : Nat := readLe s.mem (pa + 8) 4 % 2 ^ 31

/-- BARW. -/
def execBarw (x : AB) (s : State) : Out :=
  issue x.stall { noOperands with a := .s x.a, b := .s x.b } (barCheck needWaitBar) (fun s v =>
    let s := settle s
    match atHome s s.cur.1 s.me.thread needWaitBar v.a with
    | .error f => .fail 1 f
    | .ok (pa, _, s') => behindReds s .glb [(v.a, 64)]
      (let s := s'
       if s.poisoned pa then .poison (noteBad s pa true)
       else if barPhase s pa != v.b.toNat % 2 ^ 31 then .done (scAcquire s s.cur.1) .none .seq false
       else .park .barrier (fun s => markWaiter s pa))) s

/-- BARA's arrival, made once: the phase in which it arrived. -/
def baraArrive (s : State) (pa : Nat) : Nat × State :=
  match s.me.arrived with
  | some p => (p, s)
  | none =>
    let (w, s) := arrive (scRelease s s.cur.1) pa false
    (w % 2 ^ 31, s.setMe { s.me with arrived := some (w % 2 ^ 31) })

/-- BARA. -/
def execBara (x : DlA) (s : State) : Out :=
  issue x.stall (formA x.a x.d) (barCheck needArrive) (fun s v =>
    let s := settle s
    match atHome s s.cur.1 s.me.thread needArrive v.a with
    | .error f => .fail 3 f
    | .ok (pa, _, s') => afterReds s s.me.arrived.isNone <| behindReds s .glb [(v.a, 64)]
      (let s := s'
       if s.poisoned pa then oweScalar (noteBad s pa true) 0 true
       else
         let (p, s') := baraArrive s pa
         if barPhase s' pa != p then oweScalar (scAcquire s' s.cur.1) (readLe s'.mem (pa + 8) 4) false
         else .park .barrier (fun s => markWaiter (baraArrive (settle s) pa).2 pa))) s

/-! ### MWAIT (R244) -/

/-- MWAIT's checks: none once its monitor has woken. -/
def mwaitCheck : Checks :=
  { noChecks with mid := fun s y => if s.me.monitor.armed && s.me.monitor.woken then none
      else (accessCheck .glb needMonitor false 1 id).mid s y }

/-- MWAIT: it arms its monitor, and issues once the line has been written since. One that a save of its gang has found waiting
issues at its first turn after the restore, whatever has become of its page (R244, R256). -/
def execMwait (x : UnR) (s : State) : Out :=
  issue x.stall (formSrc x.a) mwaitCheck (fun s v =>
    let m := s.me.monitor
    if m.armed && m.woken then .done (s.setMe { s.me with monitor := Monitor.reset }) .none .seq false
    else match translate s s.cur.1 s.me.thread needMonitor v.a with
    | .error f => .fail 1 f
    | .ok (pa, _) => behindFence s <|
      if m.armed && m.line == pa / 32 then .park .monitor id
      else .park .monitor (fun s => s.setMe { s.me with monitor := { armed := true, woken := false, line := pa / 32 } })) s

/-- UNPARK (R87): the reason of a parked slot clears; a monitor may wake for no cause (R244). -/
def execUnpark (core slot : Nat) (s : State) : Out :=
  let x := s.slot core slot
  .next (match x.st with
    | .parked .monitor =>
      let s := traceUnpark s core slot
      s.setSlot core slot { s.slot core slot with st := .running, monitor := { x.monitor with woken := true } }
    | .parked _ =>
      let s := traceUnpark s core slot
      s.setSlot core slot { s.slot core slot with st := .running }
    | _ => s)

/-! ### CWB, CINV and ALINV (R235) -/

/-- A range length above 2^32 is ILLEGAL. -/
def rangeCheck : Checks :=
  { noChecks with pre := fun _ x => match x.b.val? with
      | some b => if 2 ^ 32 < b.toNat then some trapIllegal else none
      | none => none }

/-- Whether a range of n bytes from an address overlaps the 32-byte line of a virtual line index. -/
def rangeOverlaps (ea n vline : Nat) : Bool :=
  n != 0 && (decide ((vline * 32 + (2 ^ 64 - ea)) % 2 ^ 64 < n) || decide ((ea + (2 ^ 64 - vline * 32)) % 2 ^ 64 < 32))

/-- Whether a range covers an L1 line of the current thread's address space. -/
def rangeLine (t : Thread) (ea n : Nat) (l : L1Line) : Bool :=
  l.part == t.part && l.asid == t.asid && rangeOverlaps ea n l.vline

/-- The pages of a virtual range, each as its first address in the range and a number of bytes. -/
def rangePages (ea n : Nat) : List (Nat × Nat) :=
  (List.range ((ea % 2 ^ 16 + n + 2 ^ 16 - 1) / 2 ^ 16)).map (fun i =>
    let lo := max ea (ea / 2 ^ 16 * 2 ^ 16 + 2 ^ 16 * i)
    (lo % 2 ^ 64, min (ea + n) ((lo / 2 ^ 16 + 1) * 2 ^ 16) - lo))

/-- Whether any monitor is armed. -/
def State.anyMonitor (s : State) : Bool :=
  s.cores.any (fun e : Nat × Core => e.2.slots.any (fun k : Nat × Slot => k.2.monitor.armed))

/-- The monitors on the lines that a virtual range of the current thread maps to now. -/
def loseRange (s : State) (ea n : Nat) : State :=
  if s.anyMonitor then
    (rangePages ea n).foldl (fun s p => match physOf s s.cur.1 s.me.thread (BitVec.ofNat 64 p.1) with
      | some pa => wakeMonitors s pa p.2
      | none => s) s
  else s

/-- A monitor on a line of a range that a range word covers wakes, whether or not an L1 holds the line, and so does one on a line
that the word finds in the core's L1: it may have been lost by step 2 of a class transition (R237), and a monitor may wake for
no cause (R244; DESIGN CHOICE, log 38). -/
def loseLines (s : State) (ea n : Nat) (p : L1Line → Bool) : State :=
  ((s.core s.cur.1).l1.filter p).foldl (fun s l => wakeMonitors s (l.pline * 32) 32) (loseRange s ea n)

/-- CWB: it begins once every earlier access of the slot has been performed. -/
def execCwb (x : RngM) (s : State) : Out :=
  issue x.stall { noOperands with a := .s x.a, b := .s x.b } rangeCheck (fun s v =>
    let s := settle s
    afterReds s true
      (let ea := (effAddr x.off v.a).toNat
       let r := rangeLine s.me.thread ea v.b.toNat
       .done (cleanLines (loseLines s ea v.b.toNat r) s.cur.1 r) .none .seq false)) s

/-- CINV. -/
def execCinv (x : RngM) (s : State) : Out :=
  issue x.stall { noOperands with a := .s x.a, b := .s x.b } rangeCheck (fun s v =>
    let s := settle s
    afterReds s true
      (let ea := (effAddr x.off v.a).toNat
       let r := rangeLine s.me.thread ea v.b.toNat
       .done (flushLines (loseLines s ea v.b.toNat r) s.cur.1 r) .none .seq false)) s

/-- The physical alias ranges of a virtual range, page by page from an address on, or the failure of a page's
translation. -/
def aliasRanges (s : State) (ea n : Nat) : Nat → Except Fail (List (Nat × Nat))
  | 0 => .ok []
  | fuel + 1 =>
    if n = 0 then .ok []
    else
      let m := min n (2 ^ 16 - ea % 2 ^ 16)
      let va := BitVec.ofNat 64 ea
      match if canonical va then lookup s s.cur.1 s.me.thread.part s.me.thread.asid ea else .access 0 with
      | .access _ => .error (.trap (trapAccess va))
      | .fail level => .error (.page va (level * 4))
      | .leaf large e =>
        let pa := leafAddr large e (ea % 2 ^ 55)
        match aliasRanges s ((ea + m) % 2 ^ 64) (n - m) fuel with
        | .error f => .error f
        | .ok rs => .ok (if regionOf pa = .aliased then (pa, m) :: rs else rs)

/-- L2 alias lines of a physical range invalidated (R235). -/
def dropAliases (s : State) (pa n : Nat) : State :=
  { s with aliases := s.aliases.filter (fun e => decide ((e.1 + 1) * 64 ≤ pa) || decide (pa + n ≤ e.1 * 64)) }

/-- Ranges of alias lines invalidated in turn. -/
def dropAliasRanges (s : State) : List (Nat × Nat) → State
  | [] => s
  | (pa, n) :: rs => dropAliasRanges (dropAliases s pa n) rs

/-- ALINV: stores to a source reach its home first, so that a later decode reads them (R234, R270): the core's own, and those to
CP pages of other cores, which no release has brought there. -/
def execAlinv (x : RngM) (s : State) : Out :=
  issue x.stall { noOperands with a := .s x.a, b := .s x.b } rangeCheck (fun s v =>
    let s := settle s
    match aliasRanges s (effAddr x.off v.a).toNat v.b.toNat (v.b.toNat / 2 ^ 16 + 2) with
    | .error f => .fail 1 f
    | .ok rs => afterReds s true
      (.done (dropAliasRanges (scRelease (cpRelease s) s.cur.1) rs) .none .seq false)) s

/-! ### FENCE (R273) -/

/-- Whether a flit carries a message that a thread has sent. -/
def Flit.sentBy (f : Flit) (t : Thread) : Bool :=
  match f.payload with
  | .reg m => m.tid == BitVec.ofNat 64 (threadId t) && !m.notice
  | _ => false

/-- Whether every SEND, LBSEND and link push of the current thread has arrived, from whichever slot it was made. -/
def sendsArrived (s : State) : Bool :=
  let t := s.me.thread
  !s.flits.any (·.sentBy t) && s.cores.all (fun e : Nat × Core => !e.2.inject.any (·.sentBy t) &&
      e.2.links.all (fun f => f.wire.isEmpty || f.gang != (t.launch, t.gang) || f.j != t.j)) &&
    s.agenda.all (fun i => match i with
      | .registerMessage m => m.tid != BitVec.ofNat 64 (threadId t) || m.notice
      | _ => true)

/-- Whether a FENCE of an ordering has nothing left to wait for. -/
def fenceReady (s : State) (o : Ord) : Bool := !ordIsRelease o || (!redsPending s && sendsArrived s)

/-- A FENCE that waits takes its steps as soon as it can. -/
def settleFence (s : State) : State :=
  match s.me.fence with
  | some o => if fenceReady s o then (let s := orderAfter s s.cur.1 o; s.setMe { s.me with fence := none }) else s
  | none => s

/-- FENCE: it issues at once; what it still waits for holds back the later words that touch memory, engines or messages. -/
def execFence (x : FenceI) (s : State) : Out :=
  issue x.stall noOperands noChecks (fun s _ =>
    let s := settle s
    behindFence s (.done (settleFence (s.setMe { s.me with fence := some x.ord })) .none .seq false)) s

end Sys2Proof.Machine
end

