-- ==== Sys2Proof/Machine/Contract.lean ====
section
/-!
DEFINITION. Contracting loads: operand slots and the operand cache (R136–R140), accumulator tiles (R141, R142), CLD and its
engine (R143–R152), the words that act on a progress record (R153, R154), serial arrival (R156) and the checker (R134,
R157).
-/

namespace Sys2Proof.Machine

/-! ### Operand slots (R136–R140) -/

/-- An operand slot of a core. -/
def Core.opslot (x : Core) (k : Nat) : OpSlot := mapGet OpSlot.reset x.opslots k

/-- Whether some running or faulted load of a core satisfies a test. -/
def anyLoad (x : Core) (p : Record → Bool) : Bool := x.slots.any (fun e => e.2.loadActive && p e.2.record)

/-- ODEF's checks. -/
def odefCheck (x : OdefR) : Checks :=
  { pre := fun _ y =>
      let bad (v : Option W64) (hi : Nat) : Bool := match v with
        | some n => n == 0 || decide (hi < n.toNat)
        | none => false
      if bad y.b.val? 128 || bad y.c.val? 1048576 then some trapIllegal else none
    mid := fun s y => match y.a.val? with
      | none => none
      | some a =>
        if a.toNat % 32 != 0 then some (trapAlign a)
        else
          let o := (s.myCore.opslot x.os.val).owner
          if 262144 ≤ a.toNat || (o.isSome && o != some s.myGang) then some (trapAccess a) else none }

/-- ODEF (R138). -/
def execOdef (x : OdefR) (s : State) : Out :=
  issue x.stall { noOperands with a := .s x.a, b := .s x.b, c := .s x.c } (odefCheck x) (fun s v =>
    let k := x.os.val
    let y := s.myCore
    let g := ((y.opslot k).gen + 1) % 256
    if anyLoad y (fun r => r.oslot == k && r.gen == g) then .park .cld id
    else
      let o : OpSlot :=
        { owner := some s.myGang, base := v.a.toNat, rows := v.b.toNat, cols := v.c.toNat, layout := x.layout,
          image := s.me.fmtReg x.fmt.val, gen := g }
      let y := { y with opslots := mapSet y.opslots k o }
      .done (s.setCore s.cur.1 y) .none .seq false) s

/-- SPFENCE (R140): no named slot means all eight. A load that runs at the word uses the refreshed values from its next
sector on (R140 lets it use either; DESIGN CHOICE, log 38). -/
def execSpfence (x : SpfI) (s : State) : Out :=
  issue x.stall noOperands noChecks (fun s _ =>
    let y := s.myCore
    let named (k : Nat) : Bool := x.mask == 0 || x.mask.getLsbD k
    .done (s.setCore s.cur.1 { y with
      opslots := y.opslots.map (fun e : Nat × OpSlot => (e.1, if named e.1 then { e.2 with seen := [] } else e.2)) })
      .none .seq false) s

/-! ### Tiles (R141, R142) -/

/-- ACCESS of a tile that the thread does not hold: one that has migrated holds none (R226). -/
def tileTrap (s : State) (k : Nat) : Option Trap :=
  match s.gangOf s.me.thread with
  | some g => if s.me.thread.rect && g.covers s.cur.1 && g.tiles.getLsbD k then none else some (trapResource k)
  | none => some (trapResource k)

/-- The check of a word that names a tile. -/
def tileCheck (k : Nat) : Checks := { noChecks with mid := fun s _ => tileTrap s k }

/-- Word i of a tile. -/
def Core.tileWord (x : Core) (k i : Nat) : BitVec 32 := cellGet x.tiles (k * 4096 + i)

/-- Words written to a tile from an index on. -/
def tilePut (m : Words) (a : Nat) : List Nat → Words
  | [] => m
  | v :: vs => tilePut (cellSet m a (BitVec.ofNat 32 v)) (a + 1) vs

/-- Whether a running or faulted load of the core targets a tile. -/
def tileBusy (s : State) (k : Nat) : Bool := anyLoad s.myCore (fun r => r.tile == k)

/-- CZERO. -/
def execCzero (x : TileR) (s : State) : Out :=
  issue x.stall noOperands (tileCheck x.tile.val) (fun s _ =>
    if tileBusy s x.tile.val then .park .cld id
    else
      let y := s.myCore
      .done (s.setCore s.cur.1 { y with
        tiles := clearRange y.tiles (x.tile.val * 4096) 4096, flaws := y.mended .tile (x.tile.val * 16384) 16384 })
        .none .seq false) s

/-- CRD: L = 1. -/
def execCrd (x : CrdR) (s : State) : Out :=
  issue x.stall { noOperands with a := .s x.a, d := .v x.d } (tileCheck x.tile.val) (fun s v =>
    let r := v.a.toNat % 128
    let vs := (List.range 32).map (fun j => (s.myCore.tileWord x.tile.val (32 * r + j)).toNat)
    if s.myCore.flawIn .tile (x.tile.val * 16384 + 128 * r) 128 then .poison s
    else .done s (.vec (BitVec.ofNat 1024 (joinCells 32 vs)) 1) .seq false) s

/-- CWR. -/
def execCwr (x : CwrR) (s : State) : Out :=
  issue x.stall { noOperands with a := .s x.a, b := .v x.b } (tileCheck x.tile.val) (fun s v =>
    if tileBusy s x.tile.val then .park .cld id
    else
      let y := s.myCore
      let r := v.a.toNat % 128
      let m := tilePut y.tiles (x.tile.val * 4096 + 32 * r) ((List.range 32).map (lane v.vb))
      .done (s.setCore s.cur.1 { y with
        tiles := m, flaws := y.mended .tile (x.tile.val * 16384 + 128 * r) 128 }) .none .seq false) s

/-! ### Geometry and formats of a load (R144, R145, R147) -/

/-- Fields of the geometry operand. -/
def geoRow (g : W64) : Nat := g.toNat % 2 ^ 10
def geoPolicy (g : W64) : Policy :=
  match g.toNat / 2 ^ 10 % 4 with
  | 0 => .nrm
  | 1 => .once
  | 2 => .noal
  | _ => .keep
def geoSpace (g : W64) : Space :=
  match g.toNat / 2 ^ 12 % 4 with
  | 0 => .glb
  | 1 => .spd
  | 2 => .cls
  | _ => .chp
def geoK (g : W64) : Nat := g.toNat / 2 ^ 16 % 2 ^ 24
def geoStride (g : W64) : Nat := g.toNat / 2 ^ 40

/-- Whether a geometry operand keeps the limits of R144. -/
def geoOk (g : W64) : Bool :=
  let r := geoRow g
  (r == 8 || r == 16 || (r % 32 == 0 && r != 0 && decide (r ≤ 512))) && g.toNat / 2 ^ 14 % 4 == 0 && geoK g != 0 &&
    (decide (32 ≤ r) || geoStride g == 0)

/-- Width of an element of a kind, under a narrow image. -/
def cldWidth (k : CldKind) (image : BitVec 32) : Nat :=
  match k with
  | .f32 => 32
  | .f16 => 16
  | .bf16 => 16
  | .i8 => 8
  | .nf => (narrowOf image).width

/-- Block size of the scales of a kind; 0: none. -/
def cldBlock (k : CldKind) (image : BitVec 32) : Nat :=
  match k with
  | .nf => scaleBlock (narrowOf image).scale
  | _ => 0

/-- Bytes of a resident operand from its base (R137): the elements, and the scales after them. -/
def residentScales (k : CldKind) (image : BitVec 32) (m cols : Nat) : Nat :=
  ((m * cols * cldWidth k image + 7) / 8 + 31) / 32 * 32

/-- Size of the resident region. -/
def residentSize (k : CldKind) (image : BitVec 32) (m cols : Nat) : Nat :=
  if cldBlock k image = 0 then (m * cols * cldWidth k image + 7) / 8
  else residentScales k image m cols + m * (cols / cldBlock k image)

/-- The positions that `sys.cldser` lists (R156). -/
def serPositions (v : W64) : List Nat :=
  let n := v.toNat % 16 + 1
  let ps := (List.range (min n 15)).map (fun j => v.toNat / 2 ^ (4 * j + 4) % 16)
  if n = 16 then ps ++ (List.range 16).filter (fun p => !ps.contains p) else ps

/-- Whether `sys.cldser` is off or holds a permutation. -/
def serOk (v : W64) : Bool :=
  v.toNat % 16 == 0 || (List.range (v.toNat % 16 + 1)).all (fun p => (serPositions v).count p == 1)

/-- Streamed elements in a k-row. -/
def geoN (g : W64) (w : Nat) : Nat := geoRow g * 8 / w

/-- Sectors of a load (R147). -/
def geoSectors (g : W64) : Nat := if 32 ≤ geoRow g then geoK g * (geoRow g / 32) else (geoK g * geoRow g + 31) / 32

/-! ### CLD (R143, R146) -/

/-- The ILLEGAL conditions that neither the geometry operand nor the binding enters: the width of the streamed elements, and a
scale operand that does not match their format. Both are read from the image's own fields, whether or not it is valid (DEDUCED,
log 18). -/
def cldFormIllegal (x : CldR) (image : BitVec 32) : Bool :=
  let w := cldWidth x.kind image
  let bs := cldBlock x.kind image
  (x.kind == .nf && !(w == 2 || w == 4 || w == 8)) || (bs == 0 && x.c != .z) || (bs != 0 && x.c == .z)

/-- The ILLEGAL conditions of a geometry operand that need no binding. -/
def cldIllegal (x : CldR) (image : BitVec 32) (g : W64) : Bool :=
  let w := cldWidth x.kind image
  let bs := cldBlock x.kind image
  !geoOk g || geoRow g * 8 % w != 0 || (bs != 0 && geoN g w % bs != 0)

/-- The ILLEGAL conditions that need the binding and the geometry operand. -/
def cldBindIllegal (x : CldR) (image : BitVec 32) (g : W64) (o : OpSlot) : Bool :=
  decide (4096 < o.rows * geoN g (cldWidth x.kind image)) || decide (o.cols < geoK g)

/-- The ILLEGAL condition that needs the binding alone: the resident K against the resident block size. -/
def cldBlockIllegal (x : CldR) (o : OpSlot) : Bool :=
  let bs := cldBlock x.kind o.image
  bs != 0 && o.cols % bs != 0

/-- Whether an operand slot is bound to the gang of the current thread. -/
def boundHere (s : State) (k : Nat) : Bool := (s.myCore.opslot k).owner == some s.myGang

/-- ACCESS of a load's operand slot, or of its resident region. -/
def residentTrap (x : CldR) (s : State) : Option Trap :=
  let o := s.myCore.opslot x.os.val
  let out := some (trapAccess (BitVec.ofNat 64 o.base))
  if !boundHere s x.os.val then some (trapResource (0x100 + x.os.val))
  else match s.gangOf s.me.thread with
    | some g => if g.holdsSpd s.cur.1 o.base (residentSize x.kind o.image o.rows o.cols) then none else out
    | none => out

/-- CLD's checks (R146): each as soon as the operands that it needs can be read. -/
def cldCheck (x : CldR) : Checks :=
  { pre := fun s y =>
        let image := s.me.fmtReg x.fmt.val
        let o := s.myCore.opslot x.os.val
        let bound := boundHere s x.os.val
        let geo := match y.b.val? with
          | some g => cldIllegal x image g || (bound && cldBindIllegal x image g o)
          | none => false
        if !serOk s.me.cldser || cldFormIllegal x image || (bound && cldBlockIllegal x o) || geo then some trapIllegal
        else if x.kind != .nf then none
        else if !imageValid image then some (trapFormat x.fmt.val)
        else if bound && !imageValid o.image then some (trapFormat 0xFE)
        else none
    mid := fun s y => firstOf [y.a.val?.bind (fun a => if a.toNat % 32 != 0 then some (trapAlign a) else none),
      tileTrap s x.tile.val, residentTrap x s] }

/-- The record of a load that issues: what it captures (R146). -/
def cldRecord (x : CldR) (s : State) (v : Vals) : Record :=
  let o := s.myCore.opslot x.os.val
  { Record.reset with
    state := .running, sectors := geoSectors v.b, tile := x.tile.val, oslot := x.os.val, topx := s.me.topx,
    kind := x.kind, layout := o.layout, sImage := s.me.fmtReg x.fmt.val, rImage := o.image, rows := o.rows,
    rbase := o.base, rK := o.cols, gen := o.gen, a := v.a, geo := v.b, c := v.c, cldser := s.me.cldser,
    word := s.me.wordAddr }

/-- CLD. -/
def execCld (x : CldR) (s : State) : Out :=
  issue x.stall { noOperands with a := .s x.a, b := .s x.b, c := .s x.c } (cldCheck x) (fun s v =>
    let s := settle s
    behindFence s <| if s.me.loadActive || tileBusy s x.tile.val then .park .cld id
    else
      let s := leavePark s
      let s := s.setMe { s.me with record := cldRecord x s v }
      let s := traceRec s s.cur.1 s.cur.2 0xA (x.tile.val + 256 * x.os.val) v.a.toNat
      .done (s.post [.sectorRequest s.cur.1 s.cur.2]) .none .seq false) s

/-! ### Sectors (R147) -/

/-- Address of a sector. -/
def sectorAddr (r : Record) (i : Nat) : W64 :=
  let row := geoRow r.geo
  if 32 ≤ row then
    let n := row / 32
    r.a + BitVec.ofNat 64 (i / n * 32 * geoStride r.geo + 32 * (i % n))
  else r.a + BitVec.ofNat 64 (32 * i)

/-- The elements that a sector holds: k-row, column, and bit offset in the sector. -/
def sectorElems (r : Record) (i : Nat) : List (Nat × Nat × Nat) :=
  let row := geoRow r.geo
  let w := cldWidth r.kind r.sImage
  if 32 ≤ row then
    let n := row / 32
    (List.range (256 / w)).map (fun e => (i / n, 256 * (i % n) / w + e, w * e))
  else
    let rows := 32 / row
    (List.range rows).flatMap (fun q =>
      if i * rows + q < geoK r.geo then
        (List.range (row * 8 / w)).map (fun n => (i * rows + q, n, row * 8 * q + w * n))
      else [])

/-- Address of the scale byte of a streamed element. -/
def scaleAddr (r : Record) (k n : Nat) : W64 :=
  let bs := cldBlock r.kind r.sImage
  r.c + BitVec.ofNat 64 (k * (geoN r.geo (cldWidth r.kind r.sImage) / bs) + n / bs)

/-- The accesses of a sector: its 32 bytes, then its scale bytes. -/
def sectorReads (r : Record) (i : Nat) : List (W64 × Nat) :=
  (sectorAddr r i, 32) ::
    (if cldBlock r.kind r.sImage = 0 then []
     else ((sectorElems r i).map (fun e => scaleAddr r e.1 e.2.1)).eraseDups.map (fun a => (a, 1)))

/-- The level that a fault message reports for an access condition (R152, R201): that of the leaf found, and 0 where no walk was
made. A walk that a table's frame outside the partition has ended found no leaf, of which the manual says nothing: 0 as well
(DESIGN CHOICE, log 38). -/
def accessLevel (s : State) (c : Nat) (t : Thread) (sp : Space) (va : W64) : Nat :=
  match sp with
  | .glb =>
    if canonical va then
      match lookup s c t.part t.asid va.toNat with
      | .leaf large _ => if large then 2 else 3
      | .access l => l
      | .fail l => l
    else 0
  | _ => 0

/-- The first failing access of a sector with the flags of its message (R152, R201). -/
def sectorFails (s : State) (c : Nat) (t : Thread) (r : Record) (i : Nat) : Option (W64 × Nat) :=
  let sp := geoSpace r.geo
  (sectorReads r i).findSome? (fun a =>
    match resolve s c t sp needLoad true a.1 a.2 with
    | .ok _ => none
    | .error (.page _ flags) => some (a.1, 1 + flags)
    | .error (.trap _) => some (a.1, 3 + 4 * accessLevel s c t sp a.1))

/-! ### The engine (R148, R151, R152, R156) -/

/-- Whether a sector is marked. -/
def Record.marked (r : Record) (i : Nat) : Bool := decide (i < r.base) || r.bitmap.testBit (i - r.base)

/-- base advanced over the marked sectors. -/
def Record.advance (r : Record) : Nat → Record
  | 0 => r
  | n + 1 => if r.bitmap % 2 = 1 then ({ r with base := r.base + 1, bitmap := r.bitmap / 2 }).advance n else r

/-- A sector marked (R151). -/
def Record.mark (r : Record) (i : Nat) : Record :=
  ({ r with bitmap := r.bitmap ||| 2 ^ (i - r.base) }).advance 256

/-- The order of the sectors of a load: ascending, or in groups by `sys.cldser`. -/
def sectorOrder (r : Record) : List Nat :=
  if r.cldser.toNat % 16 = 0 then (List.range 256).map (· + r.base)
  else
    let l := r.cldser.toNat % 16 + 1
    (List.range (256 / l + 2)).flatMap (fun g => (serPositions r.cldser).map (fun p => (r.base / l + g) * l + p))

/-- The next sector that the engine requests, if it may request one. -/
def nextSector (r : Record) : Option Nat :=
  if r.state != .running || r.failing || r.aborting || (r.cldser.toNat % 16 != 0 && !r.inflight.isEmpty) then none
  else (sectorOrder r).find? (fun i =>
    decide (r.base ≤ i) && decide (i ≤ r.base + 255) && decide (i < r.sectors) && !r.marked i && !r.inflight.contains i)

/-- The record of a slot replaced. -/
def setRecord (s : State) (c k : Nat) (r : Record) : State := s.setSlot c k { s.slot c k with record := r }

/-- The code of a record's state (R151). -/
def loadCode : LoadSt → Nat
  | .none => 0
  | .running => 1
  | .faulted => 2
  | .done => 3
  | .aborted => 4

/-- The trace record of a load that has ended (R345). -/
def traceLoad (s : State) (c k : Nat) (r : Record) : State :=
  traceRec s c k 0xB (loadCode r.state + 256 * (r.sat.toNat + 2 * r.err.toNat)) r.base

/-- A faulted load resumed (R152); the wake is an acquire at .pk (R263). -/
def resumeLoad (s : State) (c k : Nat) : State :=
  let s := scAcquire s c
  let r := (s.slot c k).record
  (setRecord s c k { r with state := .running, failing := false, msgOut := false, held := none }).post
    [.sectorRequest c k]

/-- A faulted load ended by firmware (R152). -/
def endLoad (s : State) (c k : Nat) : State :=
  let r := { (s.slot c k).record with state := .aborted, err := true, failing := false, msgOut := false, held := none }
  traceLoad (setRecord s c k r) c k r

/-- What follows when no sector is in flight any more: done, aborted, or faulted with a held reply applied. A load under CABORT whose
sectors in flight complete its range is done (R151 and R153 each give it a state; DESIGN CHOICE, log 38). -/
def loadSettled (s : State) (c k : Nat) : State :=
  let r := (s.slot c k).record
  if r.state != .running then s
  else if r.base = r.sectors then
    let r := { r with state := .done, failing := false, msgOut := false, held := none, aborting := false }
    traceLoad (setRecord s c k r) c k r
  else if !r.inflight.isEmpty then s
  else if r.aborting then
    let r := { r with state := .aborted, failing := false, msgOut := false, held := none, aborting := false }
    traceLoad (setRecord s c k r) c k r
  else if r.failing then
    let s := setRecord s c k { r with state := .faulted, failing := false }
    match r.held with
    | some true => resumeLoad s c k
    | some false => endLoad s c k
    | none => s
  else s

/-- The failure of a sector access (R152): requests stop and a message is posted, once. -/
def loadFails (s : State) (c k : Nat) (addr : W64) (flags : Nat) : State :=
  let x := s.slot c k
  let r := x.record
  if r.state != .running || r.failing then s
  else
    let s := traceRec (setRecord s c k { r with failing := true, msgOut := true, faddr := addr }) c k 0x8 5 addr.toNat
    loadSettled (sendFault s c k x.thread 0x05 addr flags r.tile r.word) c k

/-- Whether a sector has to wait for a RED or a claim that its thread has issued to the same bytes (R147, R264). -/
def sectorBehind (s : State) (c k : Nat) (r : Record) (i : Nat) : Bool :=
  geoSpace r.geo == .glb && (sectorReads r i).any (fun a => ownAhead s c k a.1 a.2)

/-- SECTOR_REQUEST: nothing is requested while the gang's save is under way (R158, R254). -/
def execSectorRequest (core slot : Nat) (s : State) : Out :=
  let x := s.slot core slot
  .next (match if s.stopped x.thread then none else nextSector x.record with
    | none => s
    | some i =>
      if sectorBehind s core slot x.record i then s.post [.sectorRequest core slot]
      else match sectorFails s core x.thread x.record i with
      | some (a, flags) => loadFails s core slot a flags
      | none =>
        (setRecord s core slot { x.record with inflight := x.record.inflight ++ [i] }).post
          [.sectorArrival core slot i, .sectorRequest core slot])

/-- LOAD_FAULT. -/
def execLoadFault (core slot : Nat) (addr : W64) (flags : BitVec 8) (s : State) : Out :=
  .next (loadFails s core slot addr flags.toNat)

/-- Values of the accesses of a sector, by address, whether one is uncorrectable, and the state after them. -/
def sectorData (s : State) (c : Nat) (t : Thread) (r : Record) : List (W64 × Nat) → List (W64 × Nat) × Bool × State
  | [] => ([], false, s)
  | (a, n) :: as =>
    match resolve s c t (geoSpace r.geo) needLoad true a n with
    | .error _ => sectorData s c t r as
    | .ok loc =>
      let (v, bad, s) := loadLoc s c t (geoPolicy r.geo) a loc n
      let (m, bad', s) := sectorData s c t r as
      ((a, v) :: m, bad || bad', s)

/-- The value of a scale byte among those read. -/
def dataAt (m : List (W64 × Nat)) (a : W64) : Nat := ((m.find? (fun e => e.1 == a)).map (·.2)).getD 0

/-- Index of a resident element (R137). -/
def residentIndex (r : Record) (m k : Nat) : Nat :=
  match r.layout with
  | .km => k * r.rows + m
  | .mk => m * r.rK + k

/-- The scratchpad as it stood before the latest n stores that an operand slot has noted (R139). -/
def undoStores (spd : Memory) : List (Nat × List Byte) → Memory
  | [] => spd
  | (a, bs) :: es => undoStores (putBytes spd a bs) es

/-- n resident bytes from an address of a scratchpad. -/
def residentBytes (spd : Memory) (a : Nat) : Nat → Nat
  | 0 => 0
  | n + 1 => (cellGet spd a).toNat + 256 * residentBytes spd (a + 1) n

/-- What the uses of resident elements see: for element (m, k), the scratchpad as it stands or as it stood before some of the
stores since the ODEF or SPFENCE, each use by a free choice of its own (R139; DESIGN CHOICE, log 33). -/
structure Resident where
  spd : Memory
  seen : List (Nat × List Byte)
  /-- number of the first free value; none is taken while nothing has been stored -/
  first : Nat
  deriving DecidableEq, Repr

/-- The scratchpad that the use of element (m, k) sees. -/
def Resident.at_ (x : Resident) (r : Record) (m k : Nat) : Memory :=
  match x.seen with
  | [] => x.spd
  | es => undoStores x.spd (es.take (Config.freeNat (x.first + k * r.rows + m) % (es.length + 1)))

/-- The resident operand of a core's load, and the state after its free values. A load that still runs on an older generation of its
operand slot uses the bytes as they stand, which R139 permits beside any that they held since its own ODEF (DESIGN CHOICE, log
33). -/
def residentOf (s : State) (c : Nat) (r : Record) : Resident × State :=
  let x := s.core c
  let o := x.opslot r.oslot
  let seen := if o.gen = r.gen then o.seen else []
  ({ spd := x.spd, seen := seen, first := s.free }, if seen.isEmpty then s else { s with free := s.free + r.rows * r.rK })

/-- The code of a resident element, and of its scale. -/
def residentCode (x : Resident) (r : Record) (m k : Nat) : Nat :=
  let w := cldWidth r.kind r.rImage
  let bit := w * residentIndex r m k
  residentBytes (x.at_ r m k) (r.rbase + bit / 8) ((bit % 8 + w + 7) / 8) / 2 ^ (bit % 8) % 2 ^ w

def residentScale (x : Resident) (r : Record) (m k : Nat) : Nat :=
  let bs := cldBlock r.kind r.rImage
  if bs = 0 then 0
  else (cellGet (x.at_ r m k) (r.rbase + residentScales r.kind r.rImage r.rows r.rK + m * (r.rK / bs) + k / bs)).toNat

/-- The value of an element code under a load's kind (R65, R69, R148). -/
def loadNum (k : CldKind) (image : BitVec 32) (topx : Bool) (scale code : Nat) : Num :=
  match k with
  | .f32 => unpack fmt32 false code
  | .f16 => unpack fmt16 false code
  | .bf16 => unpack fmtBf false code
  | .i8 => Num.ofInt (intRead 8 true code)
  | .nf => scaledRead (narrowOf image) topx scale code

/-- Whether a code is a signalling NaN of a load's kind. -/
def loadSnan (k : CldKind) (code : Nat) : Bool :=
  match k with
  | .f32 => isSnan fmt32 code
  | .f16 => isSnan fmt16 code
  | .bf16 => isSnan fmtBf code
  | _ => false

/-- An exact sum of products; the first starts it. -/
def sumProducts : List (Num × Num) → Num
  | [] => .fin false 0 0
  | (a, b) :: ps => ps.foldl (fun acc p => acc.add .rne (p.1.mul p.2)) (a.mul b)

/-- A contribution added to an accumulator word: the new word and whether it saturated (R148). -/
def absorbWord (k : CldKind) (acc : BitVec 32) (c : Num) : Nat × Bool :=
  match k with
  | .i8 =>
    let v : Int := match c with
      | .fin neg m e => scaled neg m e 0
      | _ => 0
    let t := acc.toInt + v
    (clampCode (-(2 ^ 31 : Nat)) (2 ^ 31 - 1 : Nat) t 32, decide (t < -(2 ^ 31 : Nat)) || decide (((2 ^ 31 : Nat) : Int) ≤ t))
  | _ => (pack fmt32 .rne false ((unpack fmt32 false acc.toNat).add .rne c), false)

/-- The streamed elements of a sector: k-row, column, code and scale. The sector's own 32 bytes stand first in its data. -/
def sectorCodes (r : Record) (i : Nat) (data : List (W64 × Nat)) : List (Nat × Nat × Nat × Nat) :=
  let w := cldWidth r.kind r.sImage
  let v := (data.headD (0, 0)).2
  (sectorElems r i).map (fun e =>
    (e.1, e.2.1, v / 2 ^ e.2.2 % 2 ^ w,
      if cldBlock r.kind r.sImage = 0 then 0 else dataAt (data.drop 1) (scaleAddr r e.1 e.2.1)))

/-- One accumulator element updated: the tiles and whether it saturated. -/
def absorbElem (x : Resident) (r : Record) (codes : List (Nat × Nat × Nat × Nat)) (acc : Words × Bool) (m n : Nat) :
    Words × Bool :=
  let ps := (codes.filter (fun e => e.2.1 == n)).map (fun e =>
    (loadNum r.kind r.rImage r.topx (residentScale x r m e.1) (residentCode x r m e.1),
      loadNum r.kind r.sImage r.topx e.2.2.2 e.2.2.1))
  let a := r.tile * 4096 + m * geoN r.geo (cldWidth r.kind r.sImage) + n
  let (v, sat) := absorbWord r.kind (cellGet acc.1 a) (sumProducts ps)
  (cellSet acc.1 a (BitVec.ofNat 32 v), acc.2 || sat)

/-- A sector absorbed into its tile (R148). All its elements are updated in one step, so that every element of a load takes
its sectors in one order, though the manual lets elements take different permutations (R149; DESIGN CHOICE, log 38). -/
def absorb (x : Resident) (tiles : Words) (r : Record) (codes : List (Nat × Nat × Nat × Nat)) : Words × Bool :=
  let cols := (codes.map (fun e => e.2.1)).eraseDups
  (List.range r.rows).foldl (fun acc m => cols.foldl (fun acc n => absorbElem x r codes acc m n) acc) (tiles, false)

/-- Whether a signalling NaN was read. -/
def absorbSnan (x : Resident) (r : Record) (codes : List (Nat × Nat × Nat × Nat)) : Bool :=
  codes.any (fun e => loadSnan r.kind e.2.2.1) ||
    ((codes.map (fun e => e.1)).eraseDups.any (fun k =>
      (List.range r.rows).any (fun m => loadSnan r.kind (residentCode x r m k))))

/-- The resident bytes that a sector uses, as addresses. -/
def residentUses (r : Record) (ks : List Nat) : List Nat :=
  let w := cldWidth r.kind r.rImage
  let bs := cldBlock r.kind r.rImage
  ks.flatMap (fun k => (List.range r.rows).flatMap (fun m =>
    let bit := w * residentIndex r m k
    (List.range ((bit % 8 + w + 7) / 8)).map (fun j => r.rbase + bit / 8 + j) ++
      (if bs = 0 then [] else [r.rbase + residentScales r.kind r.rImage r.rows r.rK + m * (r.rK / bs) + k / bs])))

/-- Whether a sector's absorption reads a word of a tile or of the scratchpad that carries an uncorrectable error (R163). -/
def absorbFlawed (x : Core) (r : Record) (codes : List (Nat × Nat × Nat × Nat)) : Bool :=
  let n := geoN r.geo (cldWidth r.kind r.sImage)
  x.flaws.any (fun f => match f.1 with
    | .tile => codes.any (fun e => (List.range r.rows).any (fun m =>
        (r.tile * 4096 + m * n + e.2.1) / 2 == f.2))
    | .spd => (residentUses r (codes.map (fun e => e.1)).eraseDups).any (fun a =>
        a / 8 == f.2)
    | .slice => false)

/-- A sector's data absorbed by the load of a slot. -/
def absorbSector (s : State) (c k i : Nat) (data : List (W64 × Nat)) : State :=
  let r := (s.slot c k).record
  let (x, s) := residentOf s c r
  let codes := sectorCodes r i data
  let (tiles, sat) := absorb x (s.core c).tiles r codes
  let snan := absorbSnan x r codes
  let s := s.setCore c { s.core c with tiles := tiles }
  let y := s.slot c k
  let r := { r.mark i with inflight := r.inflight.erase i, sat := r.sat || sat, data := mapErase r.data i }
  s.setSlot c k ({ y with record := r }.noteSnan snan)

/-- A sector absorbed from its data; an uncorrectable datum seals the core. -/
def takeSector (s : State) (core slot i : Nat) (data : List (W64 × Nat)) (bad : Bool) : State :=
  let r := (s.slot core slot).record
  if bad || (s.core core).sealDue || absorbFlawed (s.core core) r (sectorCodes r i data) then sealAt s core slot 1 r.word
  else postOnce (loadSettled (absorbSector s core slot i data) core slot) (.sectorRequest core slot)

/-- A sector in flight arrives (R148): it is read, absorbed and marked; one that the checker has rejected is absorbed from the
data that the engine holds (R157). -/
def sectorArrives (s : State) (core slot sector : Nat) : State :=
  let x := s.slot core slot
  let r := x.record
  if r.state != .running || !r.inflight.contains sector then s
  else match mapFind r.data sector with
    | some data => takeSector s core slot sector data false
    | none => match sectorFails s core x.thread r sector with
      | some (a, flags) =>
        let s := setRecord s core slot { r with inflight := r.inflight.erase sector }
        if r.failing then loadSettled s core slot else loadFails s core slot a flags
      | none =>
        let (data, bad, s) := sectorData s core x.thread r (sectorReads r sector)
        takeSector s core slot sector data bad

/-- SECTOR_ARRIVAL. -/
def execSectorArrival (core slot sector : Nat) (s : State) : Out := .next (sectorArrives s core slot sector)

/-! ### Words on a record (R153, R154) -/

/-- CWAIT. -/
def execCwait (x : TileR) (s : State) : Out :=
  issue x.stall noOperands (tileCheck x.tile.val) (fun s _ =>
    if s.me.loadActive && s.me.record.tile == x.tile.val then .park .cld id else .done s .none .seq false) s

/-- The status that CQRY pushes (R154). -/
def Record.status (r : Record) : Nat :=
  (if r.state == .faulted || r.state == .aborted then r.faddr.toNat % 2 ^ 48 else 0) * 2 ^ 16 + r.err.toNat * 2 ^ 7 +
    r.sat.toNat * 2 ^ 6 + loadCode r.state

/-- CQRY. -/
def execCqry (x : CqryR) (s : State) : Out :=
  issue x.stall { noOperands with d := .s x.d } (tileCheck x.tile.val) (fun s _ =>
    let r := s.me.record
    if r.state != .none && r.tile == x.tile.val then owePair s r.status r.base false else owePair s 0 0 false) s

/-- CABORT. -/
def execCabort (x : TileR) (s : State) : Out :=
  issue x.stall noOperands (tileCheck x.tile.val) (fun s _ =>
    let s := leavePark s
    let c := s.cur.1
    let k := s.cur.2
    let r := s.me.record
    .done (if r.tile != x.tile.val then s
      else match r.state with
        | .running => loadSettled (setRecord s c k { r with aborting := true }) c k
        | .faulted =>
          let r := { r with state := .aborted, msgOut := false, held := none }
          traceLoad (setRecord s c k r) c k r
        | _ => s) .none .seq false) s

/-! ### The checker (R134) -/

/-- The checker disagrees with the absorption of a sector (R157): it is reported and the sector is absorbed once more, from
the data that the engine holds; at the second disagreement the core seals. -/
def sectorRetry (core slot i : Nat) (s : State) : State :=
  let x := s.slot core slot
  let r := x.record
  if r.state != .running || !r.inflight.contains i then s
  else if r.retried.contains i then sealAt s core slot 2 r.word
  else if (sectorFails s core x.thread r i).isSome then s
  else
    let (data, bad, s) := sectorData s core x.thread r (sectorReads r i)
    if bad then sealAt s core slot 1 r.word
    else sendFault (setRecord s core slot { r with retried := i :: r.retried, data := mapSet r.data i data }) core slot x.thread
      0x12 r.word 0 0x59 r.word

/-- The checker disagrees with the delivery of a result to a slot (R133): it is reported, with the opcode of the word that the
result is owed for (R201), and the delivery is made once more; at the second disagreement the core seals. -/
def deliveryRetry (core slot : Nat) (o : Owed) (s : State) : State :=
  let x := s.slot core slot
  if o.retried then sealAt s core slot 2 0
  else sendFault (s.setSlot core slot { x with
    owed := x.owed.map (fun p => if p.tag = o.tag then { p with retried := true } else p) }) core slot x.thread 0x12 0 0 o.op 0

/-- CHECKER_RETRY (R133–R135, R157): the checker will disagree with the word that the slot commits next, or disagrees with the
delivery of a result that the slot is owed: which, is a free choice (DESIGN CHOICE, log 5). With a sector, it disagrees with
the absorption of that sector of the slot's load. -/
def execCheckerRetry (core slot : Nat) (sector : Option Nat) (s : State) : Out :=
  .next (match sector with
   | some i => sectorRetry core slot i s
   | none =>
     let (n, s) := s.choose
     let x := s.slot core slot
     match x.owed[n % (x.owed.length + 1)]? with
     | some o => if o.val = .waiting then s else deliveryRetry core slot o s
     | none => if x.mayIssue then s.setSlot core slot { x with suspect := true } else s)

end Sys2Proof.Machine
end

