-- ==== Sys2Proof/Machine/Message.lean ====
section
/-!
DEFINITION. Register messages, inboxes and notices (R220–R224), the flits that carry them (R213, R214), the wake words of
firmware (R202), reinstatement (R204), and the delivery of service messages (R225).
-/

namespace Sys2Proof.Machine

/-! ### Injection (R221) -/

/-- Whether an injection queue has room on a plane (R221). -/
def injectRoom (x : Core) (plane : Nat) : Bool := decide ((x.inject.filter (fun f => f.plane == plane)).length < 8)

/-! ### Delivery (R222) -/

/-- Whether a slot holds a thread. -/
def Slot.occupied (x : Slot) : Bool := x.st != .empty && x.st != .sealed

/-- A message register filled; a PARK there wakes (R105). -/
def fillMsg (s : State) (c k reg : Nat) (v : W64) (topx : Bool) : State :=
  let x := s.slot c k
  s.setSlot c k { x with m := mapSet x.m reg { val := v, full := true, topx := topx }, msgWake := true }

/-- Whether a core is in spill mode (R224). -/
def spillMode (s : State) (c : Nat) : Bool := (s.slot c 15).occupied && (s.slot c 15).thread.spill

/-- The notice of an inbox that an append has brought to 12 entries (R224). -/
def spillHigh (s : State) (c : Nat) : State :=
  let y := s.slot c 15
  if spillMode s c && (s.core c).inbox.length == 12 && !(y.mreg 0).full then
    fillMsg s c 15 0 (noticeWord 0x05 c 15 0) y.topx
  else s

/-- The step that a wake word is (R202). -/
def wakeStep (kind c : Nat) (tid : W64) : Instr :=
  match kind with
  | 1 => .wakeReinstate c tid
  | 2 => .wakeEndGang c tid
  | 3 => .wakeResumeLoad c tid
  | 4 => .wakeEndLoad c tid
  | _ => .wakePassOver c tid

/-- REGISTER_MESSAGE (R222): the first row of its table that applies. A sealed slot refuses every message; the wake kind 0x02 with
which firmware ends a gang after a seal takes effect at its core's fault logic all the same (R341; DEDUCED, log 38). -/
def execRegisterMessage (m : RegMsg) (s : State) : Out :=
  let x := s.core m.core
  let y := s.slot m.core m.slot
  let kind := m.value.toNat / 2 ^ 56
  .next (if x.isSealed || y.st == .sealed then
      let s := refuse s m 0x01
      if m.reg == 7 && m.svc && !m.notice && kind == 2 then
        s.post [.wakeEndGang m.core (BitVec.ofNat 64 (m.value.toNat % 2 ^ 56))]
      else s
    else if m.reg == 7 && m.svc && !m.notice && 1 ≤ kind && kind ≤ 5 then
      s.post [wakeStep kind m.core (BitVec.ofNat 64 (m.value.toNat % 2 ^ 56))]
    else if !y.occupied then refuse s m 0x03
    else if !(y.mreg m.reg).full then fillMsg s m.core m.slot m.reg m.value m.topx
    else if x.inbox.length < 16 then
      spillHigh (s.setCore m.core { x with inbox :=
        x.inbox ++ [{ slot := m.slot, reg := m.reg, value := m.value, topx := m.topx }] }) m.core
    else refuse s m 0x02)

/-! ### The words (R221, R224) -/

/-- The core that a `sys.loc` image names. -/
def targetCore (a : W64) : Nat :=
  let v := a.toNat
  if v / 2 % 2 = 1 then 1024 + v / 2 ^ 6 % 16 else v / 2 ^ 6 % 2 ^ 10

/-- The slot that a `sys.loc` image names. -/
def targetSlot (a : W64) : Nat := a.toNat / 4 % 16

/-- Whether a core lies in a partition; the gateway cores lie in each (DEDUCED, log 13). -/
def State.inPart (s : State) (part c : Nat) : Bool := isGateway c || s.ownsCluster part (c / 16)

/-- ACCESS of a SEND's target. -/
def sendCheck : Checks :=
  { noChecks with mid := fun s x => match x.a.val? with
      | none => none
      | some a =>
        if (a.getLsbD 1 && a.toNat / 2 ^ 10 % 16 != 0) || !s.inPart s.me.thread.part (targetCore a) then
          some (trapTarget a)
        else none }

/-- SEND. -/
def execSend (x : SendR) (s : State) : Out :=
  issue x.stall { noOperands with a := .s x.a, b := .s x.b } sendCheck (fun s v =>
    behindFence s <|
    let c := targetCore v.a
    let k := targetSlot v.a
    if !injectRoom s.myCore (planeOf c k) then .busy
    else
      let m : RegMsg :=
        { core := c, slot := k, reg := x.mreg.val, value := v.b, topx := s.me.topx, svc := s.isSvc s.cur.1,
          srcCore := s.cur.1, srcSlot := s.cur.2, notice := false, tid := s.myTid }
      .done (sendFlit s 0x01 s.me.thread.part s.cur.1 s.cur.2 c (planeOf c k) (.reg m)) .none .seq false) s

/-- LBSEND. -/
def execLbsend (x : SendR) (s : State) : Out :=
  issue x.stall { noOperands with a := .s x.a, b := .s x.b } noChecks (fun s v =>
    behindFence s <|
    let k := targetSlot v.a
    if !injectRoom s.myCore (planeOf s.cur.1 k) then .busy
    else
      let m : RegMsg :=
        { core := s.cur.1, slot := k, reg := x.mreg.val, value := v.b, topx := v.a.getLsbD 0, svc := v.a.getLsbD 1,
          srcCore := s.cur.1, srcSlot := s.cur.2, notice := false, tid := s.myTid }
      .done (s.post [.registerMessage m]) .none .seq false) s

/-- FORMAT_MODE of a full register whose message carries another TOPX (R220). -/
def mpeekCheck (k : Nat) : Checks :=
  { noChecks with pre := fun s _ =>
      let r := s.me.mreg k
      if r.full && r.topx != s.me.topx then some (trapFormat 0xFF) else none }

/-- MPEEK. -/
def execMpeek (x : MpeekR) (s : State) : Out :=
  issue x.stall { noOperands with d := .s x.d } (mpeekCheck x.mreg.val) (fun s _ =>
    let r := s.me.mreg x.mreg.val
    if r.full then oweScalar s r.val.toNat false else .park .message id) s

/-- MCLR. -/
def execMclr (x : MclrR) (s : State) : Out :=
  issue x.stall noOperands noChecks (fun s _ =>
    .done (if (s.me.mreg x.mreg.val).full then takeMessage s s.cur.1 s.cur.2 x.mreg.val else s) .none .seq false) s

/-- ACCESS of INBX outside the spill thread. -/
def inbxCheck : Checks :=
  { noChecks with mid := fun s _ =>
      if s.cur.2 == 15 && spillMode s s.cur.1 then none else some (trapResource 0x300) }

/-- The header that INBX yields (R224). -/
def inbxWord (v busy : Bool) (lost occ : Nat) (e : InboxEntry) : Nat :=
  v.toNat * 2 ^ 63 + busy.toNat * 2 ^ 62 + lost * 2 ^ 16 + occ * 2 ^ 11 + e.topx.toNat * 2 ^ 10 + e.reg * 2 ^ 7 +
    e.slot * 2 ^ 3

/-- INBX. -/
def execInbx (x : DlR) (s : State) : Out :=
  issue x.stall { noOperands with d := .s x.d } inbxCheck (fun s _ =>
    let y := s.myCore
    let none_ : InboxEntry := { slot := 0, reg := 0, value := 0, topx := false }
    if (s.me.mreg 6).full then
      oweScalar s (inbxWord false true y.lost y.inbox.length none_) false
    else match y.inbox with
      | [] => oweScalar s (inbxWord false false y.lost 0 none_) false
      | e :: es =>
        let s := s.setCore s.cur.1 { y with inbox := es }
        let z := s.me
        let s := s.setMe { z with m := mapSet z.m 6 { val := e.value, full := true, topx := e.topx } }
        oweScalar s (inbxWord true false y.lost es.length e) false) s

/-! ### Wakes (R202–R204) -/

/-- A slot reinstated where it stands: the faulted word issues again; a failed claim is made again (R102). The wake is an
acquire at .pk (R263). -/
def reinstateAt (s : State) (c k : Nat) : State :=
  let s := scAcquire s c
  let x := s.slot c k
  let s := s.setSlot c k
    { x with st := .running, faultedBy := none, sleepLeft := none, fetcher := { x.fetcher with failed := false } }
  if x.fetcher.claiming then postOnce s (.iterationClaim c k) else s

/-- The slots of a core in ascending order that a woken thread may take: empty, and not held for a migration (R204,
R226). -/
def freeSlotsOf (s : State) (c : Nat) : List Nat :=
  (List.range 16).filter (fun k => (s.slot c k).st == .empty && !(s.core c).reasm.any (fun r => r.slot == k))

/-- Whether a core takes no reinstatement (R257, R341 0x0C). -/
def noReinstate (s : State) (c : Nat) : Bool :=
  (s.core c).isSealed || (s.core c).isHeld || (s.cluster (clusterOf c)).clearing

/-- A saved context made to run again: what was prefetched or requested for it is gone, its fixed-latency results are ready
(R84, R171). -/
def Slot.resumed (x : Slot) : Slot :=
  { x.ripe with
    st := .running, lent := false, faultedBy := none, sleepLeft := none, block := []
    streams := x.streams.map (fun e : Nat × Stream => (e.1, { e.2 with buf := [] }))
    record := { x.record with inflight := [], data := [] }, fetcher := { x.fetcher with failed := false } }

/-- The empty message registers of a slot refilled from the inbox entries for it (R220). -/
def refillMsgs (s : State) (c k : Nat) : State :=
  (List.range 8).foldl (fun s r =>
    if !((s.slot c k).mreg r).full && (s.core c).inbox.any (fun e => e.slot == k && e.reg == r) then takeMessage s c k r
    else s) s

/-- A context on a slot of its core: the deliveries owed to it, its load's requests, its streams and its claim are started
again. -/
def startContext (s : State) (c k : Nat) (x : Slot) : State :=
  let s := startStreams (refillMsgs ((scAcquire s c).setSlot c k x) c k) c k
  let s := if x.fetcher.claiming then postOnce s (.iterationClaim c k) else s
  let s := s.post (x.owed.filterMap (fun o => if o.val = .waiting then none else some (.resultDelivery c k o.tag)))
  if x.record.state == .running then (loadSettled s c k).post [.sectorRequest c k] else s

/-- A woken context placed on a slot of its core. -/
def putContext (s : State) (c k : Nat) (x : Slot) : State := startContext s c k x.resumed

/-- A woken context on its core: on a free slot, or waiting for one (R204). -/
def wakeContext (s : State) (c : Nat) (x : Slot) : State :=
  match freeSlotsOf s c with
  | k :: _ =>
    if noReinstate s c || !(s.core c).waiting.isEmpty then
      s.setCore c { s.core c with waiting := (s.core c).waiting ++ [x] }
    else putContext s c k x
  | [] => s.setCore c { s.core c with waiting := (s.core c).waiting ++ [x] }

/-- The trace record of a wake (R345). -/
def traceWake (s : State) (c k kind : Nat) (tid : W64) : State := traceRec s c k 0x9 kind tid.toNat

/-- The slot of a core whose faulted thread has an id. -/
def faultedSlot (s : State) (c : Nat) (tid : W64) : Option Nat :=
  ((s.core c).slots.find? (fun e => e.2.st == .faulted && BitVec.ofNat 64 (threadId e.2.thread) == tid)).map (·.1)

/-- The slot of a core whose thread has an id and an iteration claim that failed (R102). -/
def failedClaim (s : State) (c : Nat) (tid : W64) : Option Nat :=
  ((s.core c).slots.find? (fun e => e.2.occupied && e.2.fetcher.claiming && e.2.fetcher.failed &&
    BitVec.ofNat 64 (threadId e.2.thread) == tid)).map (·.1)

/-- The spilled context of a core whose thread has an id (R203). -/
def spilledContext (s : State) (c : Nat) (tid : W64) : Option (Nat × Nat × Slot) :=
  (s.core c).spilled.find? (fun e => BitVec.ofNat 64 (threadId e.2.2.thread) == tid)

/-- How many faults of a saved context a wake of a kind may answer: its load for kinds 3 and 4, else its word and its
claim. -/
def faultsFor (kind : Nat) (x : Slot) : Nat :=
  if kind = 3 ∨ kind = 4 then x.record.msgOut.toNat
  else if kind = 5 then (x.st == .faulted && x.faultedBy == some .trap).toNat
  else (x.st == .faulted).toNat + (x.fetcher.claiming && x.fetcher.failed).toNat

/-- Whether two kinds of wake answer faults of one sort. -/
def sameFault (a b : Nat) : Bool := (a == 3 || a == 4) == (b == 3 || b == 4)

/-- A wake held with the saved gang of its thread; one that answers no fault there is discarded (R202). -/
def holdWake (s : State) (kind : Nat) (tid : W64) : State :=
  { s with saved := s.saved.map (fun g =>
      if g.slots.any (fun e => BitVec.ofNat 64 (threadId e.slot.thread) == tid &&
          decide ((g.wakes.filter (fun w => w.2 == tid && sameFault w.1 kind)).length < faultsFor kind e.slot)) then
        { g with wakes := g.wakes ++ [(kind, tid)] }
      else g) }

/-- A wake that reinstates a thread: `f` moves its position, or discards the wake. A core that takes no reinstatement keeps
the wake until it does (R257, R341). -/
def reinstate (s : State) (kind c : Nat) (tid : W64) (f : State → Slot → Option Slot) : State :=
  match faultedSlot s c tid with
  | some k =>
    if noReinstate s c then postOnce s (wakeStep kind c tid)
    else match f s (s.slot c k) with
    | some x => reinstateAt (traceWake (s.setSlot c k x) c k kind tid) c k
    | none => s
  | none => match spilledContext s c tid with
    | some e =>
      if (s.core c).isSealed then s
      else match f s e.2.2 with
      | some x =>
        let s := traceIf x.trace s c e.2.1 0x9 kind tid.toNat
        let y := s.core c
        wakeContext (s.setCore c { y with spilled := y.spilled.filter (fun z => z.1 != e.1) }) c x
      | none => s
    | none => holdWake s kind tid

/-- WAKE_REINSTATE: a faulted thread issues its word again; a failed claim is made again. -/
def wakeReinstate (core : Nat) (tid : W64) (s : State) : State :=
  match faultedSlot s core tid, failedClaim s core tid with
  | none, some k =>
    let s := traceWake (scAcquire s core) core k 1 tid
    let x := s.slot core k
    postOnce (s.setSlot core k { x with fetcher := { x.fetcher with failed := false } }) (.iterationClaim core k)
  | _, _ => reinstate s 1 core tid (fun _ x => some x)

def execWakeReinstate (core : Nat) (tid : W64) (s : State) : Out := .next (wakeReinstate core tid s)

/-- The slot of a sealed core that names a thread of an id. -/
def sealedThread (s : State) (c : Nat) (tid : W64) : Option Nat :=
  ((s.core c).slots.find? (fun e => e.2.st == .sealed && BitVec.ofNat 64 (threadId e.2.thread) == tid)).map (·.1)

/-- A thread of a sealed core that had been woken and waited for a slot (R179, R204). -/
def sealedWaiting (s : State) (c : Nat) (tid : W64) : Option Thread :=
  ((s.core c).waiting.find? (fun x => x.st == .sealed && BitVec.ofNat 64 (threadId x.thread) == tid)).map (·.thread)

/-- WAKE_END_GANG: the gang of a faulted thread ends, or of one whose core has been sealed (R341). -/
def wakeEndGang (core : Nat) (tid : W64) (s : State) : State :=
  match firstOf [faultedSlot s core tid, failedClaim s core tid, sealedThread s core tid] with
  | some k =>
    let t := (s.slot core k).thread
    endGang (traceWake s core k 2 tid) (t.launch, t.gang)
  | none => match spilledContext s core tid, sealedWaiting s core tid with
    | some e, _ =>
      endGang (traceIf e.2.2.trace s core e.2.1 0x9 2 tid.toNat) (e.2.2.thread.launch, e.2.2.thread.gang)
    | none, some t => endGang s (t.launch, t.gang)
    | none, none => holdWake s 2 tid

def execWakeEndGang (core : Nat) (tid : W64) (s : State) : Out := .next (wakeEndGang core tid s)

/-- The position that an ERET would reach past the word of a trap; the trap registers and tin stay (R202). -/
def passOver (s : State) (c : Nat) (x : Slot) : Option Slot :=
  if x.faultedBy != some .trap then none
  else
    let idx := causeIdx x.tcause
    let s := { s.setSlot c 16 x with cur := (c, 16) }
    let hdr := x.tepc - 8 * BitVec.ofNat 64 idx
    let there : Slot := { x with hdr := hdr, idx := idx + 1, block := [], entering := false, stall := 0 }
    if idx = 0 then none
    else match returnTo s (x.tepc + 8) (idx + 1) with
      | .position _ _ => some there
      | .bad _ => none
      | .fail _ => some there
      | .poison => some there

/-- WAKE_PASS_OVER. -/
def wakePassOver (core : Nat) (tid : W64) (s : State) : State := reinstate s 5 core tid (fun s x => passOver s core x)

def execWakePassOver (core : Nat) (tid : W64) (s : State) : Out := .next (wakePassOver core tid s)

/-- The slot of a core whose thread has an id and a load for which a message is out. -/
def waitingLoad (s : State) (c : Nat) (tid : W64) : Option Nat :=
  ((s.core c).slots.find? (fun e => e.2.record.msgOut && BitVec.ofNat 64 (threadId e.2.thread) == tid)).map (·.1)

/-- A reply for a load: applied to a faulted record, held by one that is not faulted yet (R152, R202). -/
def replyLoad (s : State) (c : Nat) (tid : W64) (resume : Bool) : State :=
  match waitingLoad s c tid with
  | none => holdWake s (if resume then 3 else 4) tid
  | some k =>
    let r := (s.slot c k).record
    let s := traceWake s c k (if resume then 3 else 4) tid
    if r.state == .faulted then if resume then resumeLoad s c k else endLoad s c k
    else if r.held.isNone then setRecord s c k { r with held := some resume } else s

/-- WAKE_RESUME_LOAD. -/
def execWakeResumeLoad (core : Nat) (tid : W64) (s : State) : Out := .next (replyLoad s core tid true)

/-- WAKE_END_LOAD. -/
def execWakeEndLoad (core : Nat) (tid : W64) (s : State) : Out := .next (replyLoad s core tid false)

/-- A wake of a kind applied to a core. -/
def applyWake (s : State) (kind c : Nat) (tid : W64) : State :=
  match kind with
  | 1 => wakeReinstate c tid s
  | 2 => wakeEndGang c tid s
  | 3 => replyLoad s c tid true
  | 4 => replyLoad s c tid false
  | _ => wakePassOver c tid s

/-- REINSTATEMENT (R204): the first woken thread that waits takes a free slot. -/
def execReinstatement (core : Nat) (s : State) : Out :=
  .next (match (s.core core).waiting, freeSlotsOf s core with
    | x :: xs, k :: _ =>
      if noReinstate s core then s else putContext (s.setCore core { s.core core with waiting := xs }) core k x
    | _, _ => s)

/-! ### Service messages (R225) -/

/-- SERVICE_MESSAGE: the oldest message under way to a core is delivered there. -/
def execServiceMessage (core : Nat) (s : State) : Out :=
  .next (match s.posted.find? (fun p => p.1 == core) with
    | none => s
    | some p =>
      let s := { s with posted := s.posted.erase p }
      let x := s.core core
      s.setCore core { x with mail := x.mail ++ [p.2] })

end Sys2Proof.Machine
end

