-- ==== Sys2Proof/Machine/Network.lean ====
section
/-!
DEFINITION. The understory network: routing in one clk (R215, R216), congestion (R219), reassembly (R225), migration (R226,
R227) and HOMEC (R228, R229).
-/

namespace Sys2Proof.Machine

/-! ### Routing (R215, R216) -/

/-- Coordinates of a router. -/
def routerX (r : Nat) : Nat := r % 16
def routerY (r : Nat) : Nat := r / 16

/-- The mesh neighbours of a router. -/
def routerPorts (r : Nat) : List Nat :=
  (if 0 < routerX r then [r - 1] else []) ++ (if routerX r < 15 then [r + 1] else []) ++
    (if 0 < routerY r then [r - 16] else []) ++ (if routerY r < 15 then [r + 16] else [])

/-- Length of the shortest path between routers. -/
def routerDist (a b : Nat) : Nat :=
  (routerX a - routerX b) + (routerX b - routerX a) + ((routerY a - routerY b) + (routerY b - routerY a))

/-- The cluster attached at a router, 16 × die + cluster. -/
def routerCluster (r : Nat) : Nat := 16 * routerDie r + 4 * (routerY r % 8 / 2) + routerX r % 8 / 2

/-- Clk of one hop. -/
def hopClk (a b : Nat) : Nat := if routerDie a = routerDie b then 1 else 4

/-- Whether a flit is golden. -/
def Flit.golden (f : Flit) (clk : Nat) : Bool := f.srouter == clk / 1024 % 256

/-- How long ago a flit was stamped, modulo 2^25. -/
def Flit.elapsed (f : Flit) (clk : Nat) : Nat := (clk + 2 ^ 25 - f.stamp % 2 ^ 25) % 2 ^ 25

/-- Whether one flit ranks above another (R216). -/
def Flit.above (clk : Nat) (f g : Flit) : Bool :=
  if f.golden clk != g.golden clk then f.golden clk
  else if f.golden clk && f.elapsed clk != g.elapsed clk then decide (g.elapsed clk < f.elapsed clk)
  else if f.age != g.age then decide (g.age < f.age)
  else if f.elapsed clk != g.elapsed clk then decide (g.elapsed clk < f.elapsed clk)
  else decide (f.srouter < g.srouter)

/-- Flits in order of rank, highest first. -/
def rankInsert (clk : Nat) (f : Flit) : List Flit → List Flit
  | [] => [f]
  | g :: gs => if g.above clk f then g :: rankInsert clk f gs else f :: g :: gs

/-- Flits sorted by rank. -/
def rankSort (clk : Nat) : List Flit → List Flit
  | [] => []
  | f :: fs => rankInsert clk f (rankSort clk fs)

/-- Whether a router may inject at this clk under its cluster's rate (R219): at most `rate` times in 64 clk. -/
def mayInject (s : State) (r : Nat) : Bool :=
  let rate := (s.cluster (routerCluster r)).rate
  decide (s.clk.toNat % 64 * rate % 64 < rate)

/-- The flit that a router may inject next on a plane: the oldest of one of its cores, each in its turn. -/
def waitingFlit (s : State) (r plane : Nat) : Option Flit :=
  let fs := s.cores.filterMap (fun e => if routerOf e.1 = r then e.2.inject.find? (fun f => f.plane == plane) else none)
  fs[s.clk.toNat % fs.length]?

/-- A request for a migration that its source is to make again. -/
def askAgain (s : State) (r : XferReq) : State :=
  let x := s.slot r.srcCore r.srcSlot
  if x.asked && x.st == .parked .grant && x.granted.isNone then s.setSlot r.srcCore r.srcSlot { x with asked := false } else s

/-- Whether the endpoint of a flit is its partition's (R338); service messages go to firmware wherever it stands. -/
def ownedFlit (s : State) (f : Flit) : Bool := f.kind == 0x06 || s.inPart f.part f.dcore

/-- ACCESS for the sender of a message, whose SEND has issued: it is taken at the word that its thread is at, if the thread still
stands on the slot and can take a trap (R338 does not say where; DESIGN CHOICE, log 13). -/
def accessSender (s : State) (m : RegMsg) : State :=
  let x := s.slot m.srcCore m.srcSlot
  let trap (s : State) : State :=
    { trapHere { s with cur := (m.srcCore, m.srcSlot) } (trapTarget (BitVec.ofNat 64 (s.loc m.core m.slot))) with cur := s.cur }
  if BitVec.ofNat 64 (threadId x.thread) != m.tid then s
  else match x.st with
    | .running => trap s
    | .parked _ => trap s
    | _ => s

/-- A part of a migration context at its core: the context is complete when all its flits have arrived. -/
def arriveChunk (s : State) (f : Flit) (k : Nat) (bytes : List Byte) : State :=
  let x := s.core f.dcore
  match x.reasm.find? (fun q => q.slot == k) with
  | none => if x.isSealed && f.seq == 0 then refuseContext s f.scoreId f.sslot f.dcore k bytes 0x01 else s
  | some q =>
    let q' := { q with nfl := f.nfl + 1, chunks := mapSet q.chunks f.seq bytes }
    let s := s.setCore f.dcore { x with reasm := x.reasm.map (fun y => if y.slot = k then q' else y) }
    if q'.chunks.length = q'.nfl then s.post [.migrationContext f.dcore k] else s

/-- A flit refused because its partition does not own the target (R338): nothing is delivered, and its requester receives ACCESS:
the sender of a message, a MIGRATE that still waits, which is issued again and raises it then (R226), and a thread on its way, once
all flits of its context have come so far. -/
def turnAway (s : State) (f : Flit) : State :=
  match f.payload with
  | .reg m => if m.notice then loseNotice s m.core else accessSender s m
  | .svc _ => s
  | .request r => askAgain s r
  | .grant r t k => askAgain (dropReasm s t k) r
  | .chunk k bytes =>
    let x := s.core f.dcore
    arriveChunk (s.setCore f.dcore { x with
      reasm := x.reasm.map (fun q => if q.slot = k then { q with denied := true } else q) }) f k bytes

/-- A service message at its endpoint; one whose receiver has been sealed meanwhile goes on to the next (R177). -/
def arriveSvc (s : State) (c : Nat) (b : SvcBody) : State :=
  sendSvc s (if (s.core c).isSealed then defaultReceiver s (dieOf c) else c) b

/-- A flit ejected at its endpoint: what it carries is delivered. -/
def eject (s : State) (f : Flit) : State :=
  if !ownedFlit s f then turnAway s f
  else match f.payload with
  | .reg m => s.post [.registerMessage m]
  | .svc b => arriveSvc s f.dcore b
  | .request r => s.post [.migrationRequest r]
  | .grant r t k => s.post [.grant r t k]
  | .chunk k bytes => arriveChunk s f k bytes

/-- A message of a source refused because one of its flits was lost: its notice names the target (R222). -/
def refuseLost (s : State) (f : Flit) (k : Nat) (topx : Bool) : State :=
  refuse s { core := f.dcore, slot := k, reg := 0, value := 0, topx := topx, svc := false, srcCore := f.scoreId,
             srcSlot := f.sslot, notice := false } 0x04

/-- A flit whose link code cannot be corrected is discarded, and its message is refused (R222). The other flits of a context go
with it; a request and a grant, which hardware alone sends, are besides made again (DESIGN CHOICE, log 10). -/
def loseFlit (s : State) (f : Flit) : State :=
  match f.payload with
  | .reg m => refuse s m 0x04
  | .svc _ => refuseLost s f 0 false
  | .request r => askAgain (refuseLost s f 0 false) r
  | .grant _ _ _ =>
    let (id, s) := newMsgid (refuseLost s f f.sslot false) f.scoreId
    injectFlit s { f with at_ := f.srouter, age := 0, msgid := id }
  | .chunk k _ =>
    let mine (g : Flit) : Bool := g.kind == f.kind && g.scoreId == f.scoreId && g.msgid == f.msgid
    let x := s.core f.scoreId
    let s := { s.setCore f.scoreId { x with inject := x.inject.filter (fun g => !mine g) } with
      flits := s.flits.filter (fun g => !mine g) }
    if (s.core f.dcore).reasm.any (fun q => q.slot == k) then dropReasm (refuseLost s f k false) f.dcore k else s

/-- Flits that have arrived at a router: those that may go on, and those lost on their last hop, which is a free choice
(DESIGN CHOICE, log 5). -/
def sieve (s : State) : List Flit → List Flit × List Flit × State
  | [] => ([], [], s)
  | f :: fs =>
    let (n, s) := s.choose
    let (ok, lost, s) := sieve s fs
    if n % 2 = 1 then (ok, f :: lost, s) else (f :: ok, lost, s)

/-- The deflection counter of a router's cluster, one higher (R219). -/
def countDeflection (s : State) (r : Nat) : State :=
  let p := routerCluster r
  let x := s.cluster p
  s.setCluster p { x with defl := min 0xFFFF (x.defl + 1) }

/-- Flits of one router sent on in order of rank: free ports left, flits ejected so far. -/
def routeAll (s : State) (r : Nat) : List Nat → Nat → List Flit → State
  | _, _, [] => s
  | free, ejected, f :: fs =>
    if f.drouter = r ∧ ejected < 2 then routeAll (eject s f) r free (ejected + 1) fs
    else match free.find? (fun q => decide (routerDist q f.drouter < routerDist r f.drouter)) with
      | some q =>
        routeAll { s with flits := s.flits ++ [{ f with at_ := q, due := s.clk.toNat + hopClk r q }] } r (free.erase q)
          ejected fs
      | none => match free with
        | q :: free =>
          let f := { f with age := min (f.age + 1) 4095, at_ := q, due := s.clk.toNat + hopClk r q }
          routeAll (countDeflection { s with flits := s.flits ++ [f] } r) r free ejected fs
        | [] => routeAll { s with flits := s.flits ++ [{ f with due := s.clk.toNat + 1 }] } r [] ejected fs

/-- One router's work for one plane and clk (R215). -/
def routeOne (plane : Nat) (s : State) (r : Nat) : State :=
  let clk := s.clk.toNat
  let here (f : Flit) : Bool := f.plane == plane && f.at_ == r && decide (f.due ≤ clk)
  let cands := s.flits.filter here
  let (cands, lost, s) := sieve { s with flits := s.flits.filter (fun f => !here f) } cands
  let s := lost.foldl loseFlit s
  let ports := routerPorts r
  let (cands, s) := match if mayInject s r && decide (cands.length < ports.length) then waitingFlit s r plane else none with
    | none => (cands, s)
    | some f =>
      let x := s.core f.scoreId
      (cands ++ [{ f with age := 0, stamp := clk % 2 ^ 25, at_ := r, due := clk }],
        s.setCore f.scoreId { x with inject := x.inject.erase f })
  routeAll s r ports 0 (rankSort clk cands)

/-- Every router works for one clk on one plane (R215). -/
def routePlane (plane : Nat) (s : State) : State :=
  let rs := (s.flits.map (·.at_) ++ (s.cores.filter (fun e => !e.2.inject.isEmpty)).map (fun e => routerOf e.1)).eraseDups
  rs.foldl (routeOne plane) s

/-- FLIT_ROUTING (R215): the work of the routers on one plane, which each clk does for all four. -/
def execFlitRouting (plane : Nat) (s : State) : Out := .next (routePlane plane s)

/-! ### Grants (R225, R226) -/

/-- The free slots of a core's migration pool; the woken threads that wait on the core take the first free slots before (R204). -/
def freePool (s : State) (c : Nat) : List Nat :=
  ((freeSlotsOf s c).drop (s.core c).waiting.length).filter (fun k => (s.cluster (clusterOf c)).migpool.getLsbD k)

/-- A free pool slot of a cluster on a core with a free reassembly slot. -/
def freePoolSlot (s : State) (p : Nat) : Option (Nat × Nat) :=
  if (s.cluster p).clearing then none
  else (List.range 16).findSome? (fun i =>
    let c := 16 * p + i
    let y := s.core c
    if y.isSealed || 8 ≤ y.reasm.length then none else (freePool s c).head?.map (fun k => (c, k)))

/-- A request granted: a reassembly slot is held and the grant sent. -/
def grantTo (s : State) (r : XferReq) (c k : Nat) : State :=
  let x := s.core c
  let t := (s.slot r.srcCore r.srcSlot).thread
  let s := s.setCore c { x with
    reasm := x.reasm ++ [{ srcCore := r.srcCore, srcSlot := r.srcSlot, slot := k, nfl := 0, chunks := [],
                           gang := (t.launch, t.gang), own := if t.firmware then some t else none }] }
  sendFlit s 0x04 (s.corePart c) c k r.srcCore (planeOf r.srcCore r.srcSlot) (.grant r c k)

/-- MIGRATION_REQUEST (R225): granted, queued behind at most 16 others, or refused and repeated by its source after 256 clk. Core 0 of
the target cluster receives the requests for the cluster's pool, and its FIFO is the cluster's (R225 speaks of the
destination's, R226 lets the grant name any core of the cluster; DESIGN CHOICE, log 38). -/
def execMigrationRequest (r : XferReq) (s : State) : Out :=
  let c := 16 * r.dest
  let x := s.core c
  .next (match if x.requests.isEmpty then freePoolSlot s r.dest else none with
    | some (d, k) => grantTo s r d k
    | none =>
      if x.requests.length < 16 then s.setCore c { x with requests := x.requests ++ [r] }
      else
        let y := s.core r.srcCore
        s.setCore r.srcCore { y with repeats := y.repeats ++ [(r, s.clk.toNat + 256)] })

/-- A request sent from its source. -/
def sendRequest (s : State) (r : XferReq) : State :=
  sendFlit s 0x03 (s.slot r.srcCore r.srcSlot).thread.part r.srcCore r.srcSlot (16 * r.dest) (planeOf (16 * r.dest) 0) (.request r)

/-- REQUEST_REPEAT (R225): the source asks again. -/
def execRequestRepeat (r : XferReq) (s : State) : Out :=
  .next (if (s.slot r.srcCore r.srcSlot).asked then sendRequest s r else s)

/-- The requests of a core whose time to be repeated has come. -/
def dueRepeats (s : State) (c : Nat) : State :=
  let x := s.core c
  if x.repeats.isEmpty then s
  else
    let due (e : XferReq × Nat) : Bool := decide (e.2 ≤ s.clk.toNat)
    (s.setCore c { x with repeats := x.repeats.filter (fun e => !due e) }).post
      ((x.repeats.filter due).map (fun e => Instr.requestRepeat e.1))

/-- The oldest queued requests of a cluster granted while pool slots are free. -/
def serveRequests (p : Nat) : Nat → State → State
  | 0, s => s
  | n + 1, s =>
    match (s.core (16 * p)).requests, freePoolSlot s p with
    | r :: rs, some (c, k) => serveRequests p n (grantTo (s.setCore (16 * p) { s.core (16 * p) with requests := rs }) r c k)
    | _, _ => s

/-- GRANT (R225, R226): the migrating slot is told, or the grant of a slot that migrates no more is given back. One whose
reassembly slot is gone meanwhile is asked for again. -/
def execGrant (r : XferReq) (target slot : Nat) (s : State) : Out :=
  let x := s.slot r.srcCore r.srcSlot
  .next (match (s.core target).reasm.find? (fun q =>
      q.slot == slot && q.srcCore == r.srcCore && q.srcSlot == r.srcSlot) with
    | none => askAgain s r
    | some q =>
      if x.asked && x.st == .parked .grant && x.granted.isNone && q.gang == (x.thread.launch, x.thread.gang) then
        s.setSlot r.srcCore r.srcSlot { x with granted := some (target, slot) }
      else dropReasm s target slot)

/-! ### MIGRATE (R226, R227) -/

/-- Bytes of a migrating context (R226). -/
def contextSize (h : W64) (mask : Nat) : Nat :=
  64 + 8 * (popCount (hdrLive h) 16 + 8) + 8 * hdrLiveq h + 128 * popCount mask 16

/-- MIGRATE's ILLEGAL conditions. -/
def migrateIllegal (s : State) (a : Option W64) : Bool :=
  let h := s.me.block.headD 0
  !hdrMsafe h || s.me.tin ||
    (match a with
     | none => false
     | some a =>
       let v := a.toNat
       v / 2 ^ 32 != 0 || v / 2 ^ 6 % 2 ^ 10 != 0 || decide (4 < popCount (v / 2 ^ 16 % 2 ^ 16) 16) ||
         decide (768 < contextSize h (v / 2 ^ 16 % 2 ^ 16)))

/-- MIGRATE's checks. -/
def migrateCheck : Checks :=
  { pre := fun s x => if migrateIllegal s x.a.val? then some trapIllegal else none
    mid := fun s x => match x.a.val? with
      | some a => if s.ownsCluster s.me.thread.part (a.toNat % 2 ^ 6) then none else some (trapTarget a)
      | none => none }

/-- The bits set in a mask, rising. -/
def bitList (mask : Nat) : List Nat := (List.range 16).filter mask.testBit

/-- The bytes of a migrating context (R227). -/
def contextBytes (x : Slot) (l : W64) (mask : Nat) : List Byte :=
  let h := x.block.headD 0
  let t := x.thread
  toBytes 8 l.toNat ++ toBytes 8 x.tvec.toNat ++ toBytes 6 (gangWord t) ++ toBytes 1 (hdrLiveq h) ++
    toBytes 1 x.status.toNat ++ toBytes 3 (thrWord t) ++ toBytes 1 (t.prio % 8 * 16 + t.stage % 16) ++ toBytes 2 mask ++
    toBytes 2 (hdrLive h) ++ (List.range 8).flatMap (fun i => toBytes 4 (x.fmtReg i).toNat) ++
    (bitList (hdrLive h) ++ (List.range 8).map (· + 16)).flatMap (fun i => toBytes 8 (cellFinal (x.nCell i)).toNat) ++
    ((List.range (hdrLiveq h)).reverse).flatMap (fun i => toBytes 8 (cellFinal (x.qCell i)).toNat) ++
    (bitList mask).flatMap (fun i => toBytes 128 (cellFinal (x.vCell i)).toNat)

/-- A byte string in flits of 64 bytes, the last padded with zeros. -/
def flitChunks (bs : List Byte) : List (List Byte) :=
  (List.range ((bs.length + 63) / 64)).map (fun i =>
    let c := (bs.drop (64 * i)).take 64
    c ++ zeroBytes (64 - c.length))

/-- The flits of a context put into the injection queue of its core. -/
def sendChunks (s : State) (part src srcSlot dst k nfl msgid : Nat) : List (List Byte) → Nat → State
  | [], _ => s
  | b :: bs, seq =>
    sendChunks (injectFlit s (mkFlit 0x05 part src srcSlot dst (planeOf dst k) seq nfl msgid (.chunk k b))) part src srcSlot
      dst k nfl msgid bs (seq + 1)

/-- The context of the current slot sent to a granted slot, and the slot emptied. -/
def migrateOut (s : State) (l a : W64) (core slot : Nat) : State :=
  let c := s.cur.1
  let k := s.cur.2
  let s := settleClaim s
  let s := traceUnpark s c k
  let s := traceExit s c k s.me.idx
  let s := traceRec s c k 0x6 (a.toNat % 2 ^ 6) l.toNat
  let chunks := flitChunks (contextBytes s.me l (a.toNat / 2 ^ 16 % 2 ^ 16))
  let (id, s) := newMsgid s c
  let s := sendChunks s s.me.thread.part c k core slot (chunks.length - 1) id chunks 0
  let t := s.me.thread
  let s := leaveReds { s with fences := s.fences ++ s.me.fence.toList.map (fun o => (s.myTid, o)) }
    (fun u => threadId u == threadId t)
  freeSlot s c k

/-- MIGRATE: it waits for pending results, not for a FENCE, which goes on to wait with the thread (R267, R274). -/
def execMigrate (x : MigC) (s : State) : Out :=
  issue x.stall (formSrc x.a) migrateCheck (fun s v =>
    let s := settle s
    if s.me.loadActive then .park .cld id
    else if s.me.anyPending then .park .result id
    else match s.me.granted with
      | some (c, k) => .done (migrateOut s (dispTarget s x.disp) v.a c k) .none .gone false
      | none =>
        if s.me.asked then .park .grant id
        else
          let r : XferReq := { srcCore := s.cur.1, srcSlot := s.cur.2, dest := v.a.toNat % 2 ^ 6 }
          .park .grant (fun s => sendRequest (s.setMe { s.me with asked := true }) r)) s

/-- Values of eight bytes each of a byte string from an offset. -/
def dwordsAt (bs : List Byte) (o n : Nat) : List Nat := (List.range n).map (fun i => fieldAt bs (o + 8 * i) 8)

/-- A ready register. -/
def readyCell (v : Nat) : Cell W64 := { val := BitVec.ofNat 64 v, st := .now }

/-- The thread of a context: what its bytes name, and what its launch gives it. -/
def contextThread (s : State) (bs : List Byte) : Thread :=
  let serial := fieldAt bs 20 2
  let l := (s.launches.find? (fun e => e.1 % 2 ^ 16 == serial))
  let thr := fieldAt bs 24 3
  { launch := (l.map (·.1)).getD serial, gang := fieldAt bs 16 4, j := thr / 2 ^ 20, x := thr / 2 ^ 16 % 4,
    y := thr / 2 ^ 18 % 4, index := thr % 2 ^ 8, prio := fieldAt bs 27 1 / 16 % 8, stage := fieldAt bs 27 1 % 16,
    part := (l.map (·.2.part)).getD 0, asid := (l.map (·.2.asid)).getD 0, debug := (l.map (·.2.debug)).getD false,
    spill := (l.map (·.2.spill)).getD false, rect := false }

/-- The slot of a thread that has migrated (R226, R227). A thread of firmware's own stays what it is, though the bytes do not tell
its partition and its address space. -/
def contextSlot (s : State) (own : Option Thread) (bs : List Byte) : Slot :=
  let liveq := fieldAt bs 22 1
  let regs := bitList (fieldAt bs 30 2) ++ (List.range 8).map (· + 16)
  let vecs := bitList (fieldAt bs 28 2)
  let qAt := 64 + 8 * regs.length
  let vAt := qAt + 8 * liveq
  { Slot.reset with
    st := .running, thread := (own.map (fun t => { t with rect := false })).getD (contextThread s bs), hdr := BitVec.ofNat 64 (fieldAt bs 0 8), idx := 1, entering := true
    tvec := BitVec.ofNat 64 (fieldAt bs 8 8), status := BitVec.ofNat 64 (fieldAt bs 23 1) &&& statusMask
    fmt := (List.range 8).map (fun i => (i, BitVec.ofNat 32 (fieldAt bs (32 + 4 * i) 4)))
    n := (regs.zip (dwordsAt bs 64 regs.length)).map (fun e => (e.1, readyCell e.2))
    q := (dwordsAt bs qAt liveq).reverse.map readyCell
    v := (vecs.zip (List.range vecs.length)).map (fun e =>
      (e.1, { val := BitVec.ofNat 1024 (fieldAt bs (vAt + 128 * e.2) 128), st := .now })) }

/-- A thread whose context has been turned away (R338): it stands again on a free slot of the core that it left, or waits for one
there, and takes ACCESS at L, where it is by now (R338 does not say where; DESIGN CHOICE, log 13). On a sealed core its message is
refused like another (R178). -/
def returnContext (s : State) (q : Reasm) (c k : Nat) (y : Slot) : State :=
  let d := q.srcCore
  if (s.core d).isSealed then refuseContext s d q.srcSlot c k (q.chunks.flatMap (·.2)) 0x01
  else match freeSlotsOf s d with
  | j :: _ =>
    if noReinstate s d || !(s.core d).waiting.isEmpty then wakeContext s d y
    else
      { deliverTrap { putContext s d j y with cur := (d, j) } y.hdr 0 (trapTarget (BitVec.ofNat 64 (s.loc c k))) with cur := s.cur }
  | [] => wakeContext s d y

/-- MIGRATION_CONTEXT (R226): the thread takes its slot and resumes at L; its own earlier stores to SC pages, written back when
it left, are what it sees there (R264). -/
def execMigrationContext (core slot : Nat) (s : State) : Out :=
  let x := s.core core
  .next (match x.reasm.find? (fun q => q.slot == slot && q.nfl != 0 && q.chunks.length == q.nfl) with
    | none => s
    | some q =>
      let bs := q.chunks.flatMap (·.2)
      let y := contextSlot s q.own bs
      let mine (e : W64 × Ord) : Bool := e.1 == BitVec.ofNat 64 (threadId y.thread)
      let y := { y with fence := (s.fences.find? mine).map (·.2) }
      let s := { s with fences := s.fences.filter (fun e => !mine e) }
      if q.denied then returnContext (dropReasm s core slot) q core slot y
      else
        let s := (scAcquire (dropReasm s core slot) core).setSlot core slot y
        traceRec s core slot 0x7 (s.loc q.srcCore q.srcSlot % 2 ^ 16) y.hdr.toNat)

/-! ### Epochs (R216, R219) -/

/-- The throttle table's value for a congestion level: a value below 4 is used as 4 (R219), and one above 64, which the register does
not hold and R341 does not refuse, as 64 (DESIGN CHOICE, log 38). -/
def throttleRate (d : Die) (level : Nat) : Nat :=
  let i := level / 16
  let w := if i < 8 then d.thrLow.toNat / 2 ^ (8 * i) else d.thrHigh.toNat / 2 ^ (8 * (i - 8))
  min 64 (max 4 (w % 256))

/-- The counters of a cluster at an epoch boundary. Memory traffic is not routed flit by flit; the deflections it has
suffered are a free number (R213, R219; DESIGN CHOICE, log 10). -/
def epochCluster (s : State) (p : Nat) : State :=
  let (n, s) := s.choose
  let x := s.cluster p
  let defl := min 0xFFFF (x.defl + n)
  let y := { x with lastDefl := defl, defl := 0, rate := throttleRate (s.die (p / 16)) (min 255 (defl / 16)) }
  if x = y then s else s.setCluster p y

/-- An epoch begins: the counters and rates of every cluster; queued migration requests are looked at again, and the dirty
lines of CP pages go home, so that each store there is seen by every party in finite time (R272; DESIGN CHOICE, log 7). -/
def beginEpoch (s : State) : State :=
  let ps := List.range 64
  let s := ps.foldl (fun s p => serveRequests p 16 s) (ps.foldl epochCluster s)
  cpRelease s

/-- EPOCH_BOUNDARY. -/
def execEpochBoundary (s : State) : Out := .next (beginEpoch s)

/-! ### HOMEC (R228, R229) -/

/-- The home of a line of HBM4E (R229). -/
def homeOf (pa : Nat) (leaf : W64) : Nat :=
  if leafHl leaf then 2 ^ 6 + pa / 2 ^ 20 % 4 * 2 ^ 4 + pa / 2 ^ 16 % 16
  else
    let n := pa / 2 ^ 8 % 64 ^^^ pa / 2 ^ 14 % 64 ^^^ pa / 2 ^ 20 % 64
    pa / 2 ^ 36 % 16 / 3 * 2 ^ 4 + (4 * (n / 8 / 2) + n % 8 / 2)

/-- HOMEC: the home of a line outside HBM4E on a page that is not home-local is a free value (DESIGN CHOICE, log 14). -/
def execHomec (x : HomeC) (s : State) : Out :=
  issue x.stall (formA x.a x.d) (accessCheck .glb needLoad false 1 id) (fun s v =>
    match translate s s.cur.1 s.me.thread needLoad v.a with
    | .error f => .fail 1 f
    | .ok (pa, leaf) => behindWalk s [(v.a, 1)] <|
      let s := tlbFill s s.cur.1 s.me.thread.part s.me.thread.asid v.a.toNat
      let hbm := match regionOf pa with | .hbm _ => true | _ => false
      if hbm || leafHl leaf then oweScalar s (homeOf pa leaf) false
      else
        let (n, s) := s.choose
        oweScalar s (n % 64) false) s

end Sys2Proof.Machine
end

