-- ==== Sys2Proof/Machine/Engines.lean ====
section
/-!
DEFINITION. The copy engines (R193–R199), queue joins (R275), and near-memory reduction (R307–R310).
-/

namespace Sys2Proof.Machine

/-! ### Queues -/

/-- A copy queue of a cluster. -/
def Cluster.queue (x : Cluster) (q : Nat) : CopyQueue := mapGet CopyQueue.reset x.queues q

/-- The state with a copy queue replaced. -/
def setQueue (s : State) (p q : Nat) (y : CopyQueue) : State :=
  s.setCluster p { s.cluster p with queues := mapSet (s.cluster p).queues q y }

/-- Whether an item of a queue is a marker of a join. -/
def copyIs (id : Nat) : CopyItem → Bool
  | .marker i _ => i == id
  | _ => false

def rootIs (id : Nat) : RootItem → Bool
  | .marker i => i == id
  | _ => false

/-- Whether a queue, where it holds the marker of a join, has it at its head. -/
def joinReady {α : Type} (p : α → Bool) (l : List α) : Bool :=
  !l.any p || (match l with
    | a :: _ => p a
    | [] => true)

/-- What a saved gang has withdrawn from a queue, in order. -/
def savedItems (q : Nat) (cs : List (Nat × CopyItem)) : List CopyItem := (cs.filter (fun e => e.1 == q)).map (·.2)

/-- Whether no operation withdrawn with a saved gang stands ahead of the marker of a join (R254): what is behind the join waits until
they are enqueued again and have arrived (R275). -/
def savedReady (id : Nat) (cs : List (Nat × CopyItem)) : Bool :=
  (List.range 4).all (fun q => joinReady (copyIs id) (savedItems q cs))

/-- Withdrawn items put back on a queue in their order (R275): an operation stands ahead of a marker that it stood ahead of and that
has stayed there, and a marker stands there once. -/
def putBack : List CopyItem → List CopyItem → List CopyItem
  | [], items => items
  | i :: is, items =>
    putBack is (match i with
      | .marker _ _ => if items.contains i then items else items ++ [i]
      | .op .. =>
        let ahead (k : CopyItem) : Bool := !(match k with
          | .marker _ _ => is.contains k
          | .op .. => false)
        items.takeWhile ahead ++ i :: items.dropWhile ahead)

/-- Whether every queue has the marker of a join at its head: all operations ahead of it have arrived. -/
def joined (s : State) (id : Nat) : Bool :=
  s.clusters.all (fun e => e.2.queues.all (fun q => joinReady (copyIs id) q.2.items)) &&
    s.saved.all (fun g => savedReady id g.copies) &&
    s.cores.all (fun e => joinReady (rootIs id) e.2.rdq && joinReady (rootIs id) e.2.rqq)

/-- A queue without the marker of a join. -/
def unmarkQueue (id : Nat) (q : CopyQueue) : CopyQueue := { q with items := q.items.filter (fun i => !copyIs id i) }

/-- The marker of a join taken out of every queue. -/
def unmark (s : State) (id : Nat) : State :=
  { s with
    clusters := s.clusters.map (fun e => (e.1, { e.2 with queues := e.2.queues.map (fun q => (q.1, unmarkQueue id q.2)) }))
    saved := s.saved.map (fun g => { g with copies := g.copies.filter (fun e => !copyIs id e.2) })
    cores := s.cores.map (fun e => (e.1, { e.2 with
      rdq := e.2.rdq.filter (fun i => !rootIs id i), rqq := e.2.rqq.filter (fun i => !rootIs id i) })) }

/-- The steps of the queues that have something to do. -/
def queueSteps (s : State) : List Instr :=
  s.clusters.flatMap (fun e => e.2.queues.flatMap (fun q => if q.2.items.isEmpty then [] else [.copyOperation e.1 q.1])) ++
    s.cores.flatMap (fun e =>
      (if e.2.rdq.isEmpty then [] else [.rdxOperation e.1]) ++ (if e.2.rqq.isEmpty then [] else [.rqzOperation e.1]))

/-- Steps put on the agenda unless they stand there. -/
def postAll (s : State) : List Instr → State
  | [] => s
  | i :: is => postAll (postOnce s i) is

/-- The scheduler set going where a saved gang waits: its restore may have waited for room in a copy queue (R193). -/
def placeAgain (s : State) : State := if s.saved.isEmpty then s else postOnce s .gangPlacement

/-- The queues set going, the join of an id resolved where every queue has reached it. -/
def joinStep (s : State) (id : Nat) : State :=
  if joined s id then let s := unmark s id; postAll (placeAgain s) (queueSteps s) else s

/-! ### Engine accesses -/

/-- The pieces of a range of n bytes, split at multiples of a granule. -/
def splitRange (g : Nat) : Nat → W64 → Nat → List (W64 × Nat)
  | 0, _, _ => []
  | fuel + 1, a, n =>
    if n = 0 then []
    else
      let m := min n (g - a.toNat % g)
      (a, m) :: splitRange g fuel (a + BitVec.ofNat 64 m) (n - m)

/-- The pieces of a range in a space: by page in .GLB, in 4 KiB in .CLS, so that each lies in one of the reservations of one core,
which are whole multiples of 4 KiB and may adjoin (R160, R249), and whole elsewhere. -/
def rangePieces (sp : Space) (a : W64) (n : Nat) : List (W64 × Nat) :=
  match sp with
  | .glb => splitRange (2 ^ 16) (n / 2 ^ 16 + 2) a n
  | .cls => splitRange (2 ^ 12) (n / 2 ^ 12 + 2) a n
  | _ => if n = 0 then [] else [(a, n)]

/-- The locations of the pieces of a range, or the failure of the first that has none. -/
def resolveAll (s : State) (c : Nat) (t : Thread) (sp : Space) (need : Need) :
    List (W64 × Nat) → Except Fail (List (Loc × Nat))
  | [] => .ok []
  | (a, n) :: ps =>
    match resolve s c t sp need false a n with
    | .error f => .error f
    | .ok loc => match resolveAll s c t sp need ps with
      | .error f => .error f
      | .ok ls => .ok ((loc, n) :: ls)

/-- A location a number of bytes on. -/
def Loc.plus (l : Loc) (d : Nat) : Loc :=
  match l with
  | .spd c o => .spd c (o + d)
  | .chip c o => .chip c (o + d)
  | .hit v o => .hit v (o + d)
  | .mem pa leaf => .mem (pa + d) leaf

/-- The location of byte d of a resolved range. -/
def locAt : List (Loc × Nat) → Nat → Option Loc
  | [], _ => none
  | (l, n) :: ls, d => if d < n then some (l.plus d) else locAt ls (d - n)

/-- An engine's read of n bytes: it goes to the home and allocates in no L1. -/
def engineGet (s : State) (l : Loc) (n : Nat) : Nat × Bool :=
  match l with
  | .spd c o => (readLe (s.core c).spd o n, (s.core c).flawIn .spd o n)
  | .chip d o => (readLe (s.die d).chip o n, false)
  | .hit _ _ => (0, false)
  | .mem pa _ => homeRead s pa n

/-- An engine's write of n bytes for a thread of a core: on a CP page the owner's copy of the line leaves (R196). -/
def enginePut (s : State) (c : Nat) (l : Loc) (n v : Nat) : State :=
  match l with
  | .spd k o => s.setCore k ((s.core k).putSpd o n v)
  | .chip d o => let x := s.die d; s.setDie d { x with chip := writeLe x.chip o n v }
  | .hit _ _ => s
  | .mem pa leaf =>
    let s := if leafClass leaf = 2 then flushFrom s (fun l => l.pline == pa / 32) [c] else s
    homeWrite s none (leafClass leaf == 0) pa (toBytes n v)

/-- Bytes of an aligned record read by an engine, and whether one is uncorrectable. -/
def engineRecord (s : State) (c : Nat) (t : Thread) (a : W64) (n : Nat) : Except Fail (List Byte × Bool) :=
  match resolve s c t .glb needLoad false a n with
  | .error f => .error f
  | .ok loc =>
    let (v, bad) := engineGet s loc n
    .ok (toBytes n v, bad)

/-! ### CPY and CPYL (R194) -/

/-- The checks of the barrier operand of an engine word. -/
def engineBarTrap (s : State) (b : W64) : Option Trap := accessTrap s .glb needEngineBar false b 64

/-- The checks of a copy word. -/
def cpyCheck (list : Bool) : Checks :=
  { pre := fun _ x => match x.c.val? with
      | some c => if list && decide (2 ^ 32 - 1 < c.toNat) then some trapIllegal else none
      | none => none
    mid := fun s x =>
      firstOf [(x.a.val?).bind (fun a => if a.toNat % (if list then 32 else 64) != 0 then some (trapAlign a) else none),
        (x.b.val?).bind (engineBarTrap s)] }

/-- What a core writes back before an engine operation is enqueued: dirty SC lines, and those of the CP pages it owns, so that
every earlier access is performed at .pk (R194, R308). -/
def engineRelease (s : State) (c : Nat) : State := cleanLines s c (fun l => l.cls == 1 || l.cls == 2)

/-- Whether a copy queue is full. A marker of a QFENCE takes one of its 64 places, as QFENCE itself waits for room (R193 counts
operations and R275 says nothing of its markers; DESIGN CHOICE, log 38); EQRY does not count it. -/
def CopyQueue.full (y : CopyQueue) : Bool := decide (64 ≤ y.items.length)

/-- A copy word after its checks: the operation joins its queue. -/
def cpyAct (s : State) (list : Bool) (q : Nat) (v : Vals) : Act :=
  let s := settle s
  behindFence s <| match translate s s.cur.1 s.me.thread needEngineBar v.b with
  | .error f => .fail 2 f
  | .ok (pa, _) => behindWalk s [(v.b, 64)] <|
    let p := clusterOf s.cur.1
    if ((s.cluster p).queue q).full then .park .buffer id
    else afterReds s true
      (let s := engineRelease s s.cur.1
       let y := (s.cluster p).queue q
       let t := s.me.thread
       let op : CopyItem := .op list v.a pa v.c.toNat s.cur.1 s.cur.2 t 0 none (s.gangOf t)
       .done (postOnce (setQueue s p q { y with items := y.items ++ [op] }) (.copyOperation p q)) .none .seq false)

/-- CPY. -/
def execCpy (x : CpyR) (s : State) : Out :=
  issue x.stall { noOperands with a := .s x.a, b := .s x.b } (cpyCheck false) (fun s v => cpyAct s false x.eq.val v) s

/-- CPYL. -/
def execCpyl (x : CpylR) (s : State) : Out :=
  issue x.stall { noOperands with a := .s x.a, b := .s x.b, c := .s x.c } (cpyCheck true)
    (fun s v => cpyAct s true x.eq.val v) s

/-- Operations of a queue, the one being performed among them; a join's marker is none. -/
def CopyQueue.length (q : CopyQueue) : Nat :=
  (q.items.filter (fun i => match i with
    | .marker _ _ => false
    | _ => true)).length

/-- EQRY (R199). -/
def execEqry (x : EqryR) (s : State) : Out :=
  issue x.stall { noOperands with d := .s x.d } noChecks (fun s _ =>
    let y := (s.cluster (clusterOf s.cur.1)).queue x.eq.val
    oweScalar s (y.done.toNat * 2 ^ 32 + y.length * 2 ^ 8 + y.faulted.toNat * 2 + y.bufwait.toNat) false) s

/-! ### The copy engine (R195, R196) -/

/-- One row of a CPY, or one entry of a CPYL: addresses, length, spaces, and the buffer that is its destination. -/
structure CopyRow where
  src : W64
  dst : W64
  len : Nat
  ssp : Space
  dsp : Space
  cb : Option Nat
  deriving DecidableEq, Repr

/-- A space by its code (R43). -/
def spaceOf (v : Nat) : Space :=
  match v % 4 with
  | 0 => .glb
  | 1 => .spd
  | 2 => .cls
  | _ => .chp

/-- Row i of a descriptor (R195). -/
def cpyRow (d : List Byte) (i : Nat) : CopyRow :=
  let flags := fieldAt d 40 4
  let at_ (o so : Nat) : W64 := BitVec.ofNat 64 (fieldAt d o 8) + BitVec.ofNat 64 i * BitVec.ofNat 64 (fieldAt d so 8)
  { src := at_ 0 24, dst := at_ 8 32, len := fieldAt d 16 4, ssp := spaceOf flags, dsp := spaceOf (flags / 4),
    cb := if flags / 16 % 2 = 1 then some (flags / 32 % 8) else none }

/-- Whether the reserved fields of a descriptor are zero. -/
def cpyReserved (d : List Byte) : Bool := fieldAt d 40 4 / 2 ^ 8 == 0 && fieldAt d 44 20 == 0

/-- A list entry (R195). -/
def cpylEntry (d : List Byte) : CopyRow :=
  let flags := fieldAt d 20 4
  { src := BitVec.ofNat 64 (fieldAt d 0 8), dst := BitVec.ofNat 64 (fieldAt d 8 8), len := fieldAt d 16 4,
    ssp := spaceOf flags, dsp := spaceOf (flags / 4), cb := if flags / 16 % 2 = 1 then some (flags / 32 % 8) else none }

/-- Whether the reserved fields of a list entry are zero. Bytes 24–31, which the table of R195 does not describe, are taken as
reserved too (DESIGN CHOICE, log 38). -/
def cpylReserved (d : List Byte) : Bool := fieldAt d 20 4 / 2 ^ 8 == 0 && fieldAt d 24 8 == 0

/-- The outcome of a row's checks, or of part of an operation. -/
inductive CopyCheck where
  | ok (src dst : List (Loc × Nat))
  | err
  | fault (va : W64) (flags : Nat)
  | full
  deriving DecidableEq, Repr

/-- A failing access of the engine: a check failure, or a fault (R196, R198). -/
def copyFail : Fail → CopyCheck
  | .trap _ => .err
  | .page va flags => .fault va flags

/-- The destination of a row, where its checks pass: its space and address, and whether it has to wait for a slot of its
buffer. -/
def rowDest (s : State) (c : Nat) (t : Thread) (r : CopyRow) : Option (Space × W64 × Bool) :=
  match r.cb with
  | none => some (r.dsp, r.dst, false)
  | some k =>
    let b := (s.core c).cbuf k
    if b.owner != some (t.launch, t.gang) || decide (b.size < r.len) then none
    else some (cbSpace b.sp, BitVec.ofNat 64 (cbReserve b).1, b.free == 0)

/-- The state in which the addresses of an operation are checked: the reservations of its thread's gang count even after the
gang has ended (R193). -/
def withGang (s : State) (g : Option Gang) : State :=
  match g with
  | some g => if s.gangs.any (fun h => h.id == g.id) then s else { s with gangs := s.gangs ++ [g] }
  | none => s

/-- The checks of a row, in the order of R196; only a row that passes them waits for its buffer. Its source is translated before its
destination, so that a fault of the source is sent before a check of the destination fails (R196 does not say which comes
first; DESIGN CHOICE, log 38). -/
def rowCheck (s : State) (c : Nat) (t : Thread) (g : Option Gang) (r : CopyRow) : CopyCheck :=
  let s := withGang s g
  if r.src.toNat % 4 != 0 || r.len % 4 != 0 || (r.cb.isNone && r.dst.toNat % 4 != 0) then .err
  else match rowDest s c t r with
    | none => .err
    | some (dsp, dst, wait) =>
      match resolveAll s c t r.ssp needLoad (rangePieces r.ssp r.src r.len) with
      | .error f => copyFail f
      | .ok ss =>
        if wait then .full
        else match resolveAll s c t dsp needStore (rangePieces dsp dst r.len) with
        | .error f => copyFail f
        | .ok ds => .ok ss ds

/-- n words copied in order from a word on; an uncorrectable one ends the copy (R298). -/
def copyWords (c : Nat) (src dst : List (Loc × Nat)) : Nat → Nat → State → Bool × State
  | 0, _, s => (false, s)
  | n + 1, i, s =>
    match locAt src (4 * i), locAt dst (4 * i) with
    | some a, some b =>
      (match engineGet s a 4 with
       | (_, true) => (true, noteLoc s a)
       | (v, false) => copyWords c src dst n (i + 1) (enginePut s c b 4 v))
    | _, _ => (false, s)

/-- A row copied, and its buffer slot published, a release at .cl (R196). A slot reserved for a row that an uncorrectable word
ends is published all the same (the manual leaves it open; DESIGN CHOICE, log 38). -/
def copyRow (s : State) (c : Nat) (r : CopyRow) (src dst : List (Loc × Nat)) : Bool × State :=
  let s := match r.cb with
    | none => s
    | some k => setCbuf s c k (cbReserve ((s.core c).cbuf k)).2
  let (bad, s) := copyWords c src dst (r.len / 4) 0 s
  match r.cb with
  | none => (bad, s)
  | some k =>
    let s := scRelease s c
    (bad, setCbuf s c k (cbPublish ((s.core c).cbuf k)))

/-- How far an operation came: done with its err bit, waiting for a buffer at a row, or faulted at a row. -/
inductive CopyEnd where
  | done (err : Bool)
  | waits (row : Nat)
  | faulted (row : Nat) (va : W64) (flags : Nat)
  deriving DecidableEq, Repr

/-- The checks of every row of a CPY before any is written; a buffer is looked at when its row is copied. -/
def checkRows (s : State) (c : Nat) (t : Thread) (g : Option Gang) (d : List Byte) : Nat → Nat → CopyEnd
  | 0, _ => .done false
  | n + 1, i =>
    match rowCheck s c t g (cpyRow d i) with
    | .err => .done true
    | .fault va flags => .faulted 0 va flags
    | .ok _ _ => checkRows s c t g d n (i + 1)
    | .full => checkRows s c t g d n (i + 1)

/-- The rows of a CPY copied in turn. -/
def copyRows (c : Nat) (t : Thread) (g : Option Gang) (d : List Byte) : Nat → Nat → State → CopyEnd × State
  | 0, _, s => (.done false, s)
  | n + 1, i, s =>
    let r := cpyRow d i
    match rowCheck s c t g r with
    | .err => (.done true, s)
    | .fault va flags => (.faulted i va flags, s)
    | .full => (.waits i, s)
    | .ok src dst => match copyRow s c r src dst with
      | (true, s) => (.done true, s)
      | (false, s) => copyRows c t g d n (i + 1) s

/-- A record read by an engine, or how its operation ends or waits without it, at a row. -/
def engineFetch (s : State) (c : Nat) (t : Thread) (a : W64) (n row : Nat) : Except (CopyEnd × State) (List Byte) :=
  match engineRecord s c t a n with
  | .error (.trap _) => .error (.done true, s)
  | .error (.page va flags) => .error (.faulted row va flags, s)
  | .ok (_, true) => .error (.done true, match resolve s c t .glb needLoad false a n with
    | .ok loc => noteLoc s loc
    | .error _ => s)
  | .ok (d, false) => .ok d

/-- A CPY from a row on, its descriptor read when the operation began: all rows are checked before the first is written. -/
def copyDesc (s : State) (c : Nat) (t : Thread) (g : Option Gang) (d : List Byte) (row : Nat) : CopyEnd × State :=
  let rows := fieldAt d 20 4
  if rows != 0 && !cpyReserved d then (.done true, s)
  else match if row = 0 then checkRows s c t g d rows 0 else .done false with
    | .done false => copyRows c t g d (rows - row) row s
    | e => (e, s)

/-- The bytes of n entries of a list from an index on, up to the first that cannot be read. -/
def listBytes (s : State) (c : Nat) (t : Thread) (list : W64) : Nat → Nat → List Byte
  | 0, _ => []
  | n + 1, i =>
    match engineRecord s c t (list + 32 * BitVec.ofNat 64 i) 32 with
    | .ok (d, false) => d ++ listBytes s c t list n (i + 1)
    | _ => []

/-- An entry of a list: as it was read when the operation began, or read now, or how the operation ends or waits without it. -/
def listEntry (s : State) (c : Nat) (t : Thread) (list : W64) (got : List Byte) (i : Nat) :
    Except (CopyEnd × State) (List Byte) :=
  if 32 * (i + 1) ≤ got.length then .ok ((got.drop (32 * i)).take 32)
  else engineFetch s c t (list + 32 * BitVec.ofNat 64 i) 32 i

/-- The entries of a CPYL from an index on: each is checked and copied in turn. -/
def copyList (c : Nat) (t : Thread) (g : Option Gang) (list : W64) (got : List Byte) : Nat → Nat → State → CopyEnd × State
  | 0, _, s => (.done false, s)
  | n + 1, i, s =>
    match listEntry s c t list got i with
    | .error e => e
    | .ok d =>
      let r := cpylEntry d
      if !cpylReserved d then (.done true, s)
      else match rowCheck s c t g r with
        | .err => (.done true, s)
        | .fault va flags => (.faulted i va flags, s)
        | .full => (.waits i, s)
        | .ok src dst => match copyRow s c r src dst with
          | (true, s) => (.done true, s)
          | (false, s) => copyList c t g list got n (i + 1) s

/-- An operation from a row on. The descriptor of a CPY, and the list of a CPYL, are read when the operation begins (R194); what of
a list could not be read then is read when the operation is resumed. -/
def copyRun (s : State) (list : Bool) (c : Nat) (t : Thread) (g : Option Gang) (desc : W64) (entries row : Nat)
    (got : Option (List Byte)) : Option (List Byte) × CopyEnd × State :=
  if list then
    let old := got.getD []
    let n := old.length / 32
    let all := if n ≤ row then old ++ listBytes s c t desc (entries - n) n else old
    (some all, copyList c t g desc all (entries - row) row s)
  else match got with
    | some d => (some d, copyDesc s c t g d row)
    | none => match engineFetch s c t desc 64 row with
      | .error e => (none, e)
      | .ok d => (some d, copyDesc s c t g d row)

/-- An engine's operation arrives on its barrier: a release at .pk for its issuing core (R196, R236); one that ends with an
error marks its launch (R241). -/
def engineArrives (s : State) (c bar : Nat) (err : Bool) (t : Thread) : State :=
  let s := (arrive (scRelease s c) bar err).2
  if err then markErr s t.launch else s

/-- The head of a copy queue that has arrived: what stands behind it begins, or joins. -/
def copyDone (s : State) (p q c : Nat) (bar : Nat) (err : Bool) (t : Thread) : State :=
  let s := engineArrives s c bar err t
  let y := (s.cluster p).queue q
  let y := { y with items := y.items.drop 1, done := y.done + 1, faulted := false, bufwait := false }
  let s := placeAgain (postOnce (setQueue s p q y) (.launchRetirement t.launch))
  if y.items.isEmpty then s else postOnce s (.copyOperation p q)

/-- A fault of a copy engine (R198, R201): index 0xFF, core 0 and slot 0 of the cluster. A gateway core stands in no cluster, so that
the locator for its own engine is that of its slot 0 (DESIGN CHOICE, log 10). -/
def copyFault (s : State) (p q c : Nat) (t : Thread) (va : W64) (flags : Nat) : State :=
  let dest := faultReceiver s c
  sendFlit s 0x06 t.part (if isGateway c then c else 16 * p) 0 dest (planeOf dest 0)
    (.svc (.fault va (BitVec.ofNat 64 (threadId { t with index := 0xFF }))
      (if isGateway c then s.loc c 0 else p * 1024) 0x07 flags q 0))

/-! ### What pre-emption withdraws (R254) -/

/-- Whether a thread belongs to a gang. -/
def Thread.ofGang (t : Thread) (id : GangId) : Bool := (t.launch, t.gang) == id

/-- Whether a row or entry touches a scratchpad, cluster memory or a buffer. -/
def CopyRow.touches (r : CopyRow) : Bool :=
  let inner (sp : Space) : Bool := sp == .spd || sp == .cls
  inner r.ssp || inner r.dsp || r.cb.isSome

/-- The rows of an operation whose class of target R254 asks for: a CPY's first row, which names the spaces of each, and the
entries of a CPYL, as far as they have been or can be read. -/
def itemRows (s : State) : CopyItem → List CopyRow
  | .marker _ _ => []
  | .op list desc _ entries c _ t _ got _ =>
    if list then
      let all := got.getD (listBytes s c t desc entries 0)
      (List.range (all.length / 32)).map (fun i => cpylEntry ((all.drop (32 * i)).take 32))
    else match got, engineRecord s c t desc 64 with
      | some d, _ => [cpyRow d 0]
      | none, .ok (d, false) => [cpyRow d 0]
      | none, _ => []

/-- Whether two address ranges overlap. -/
def rangesMeet (a n b m : Nat) : Bool := decide (a < b + m) && decide (b < a + n)

/-- Whether a range of a thread's addresses has a byte among n bytes of physical memory. -/
def reachesPage (s : State) (c : Nat) (t : Thread) (pa n : Nat) (sp : Space) (a : W64) (len : Nat) : Bool :=
  sp == .glb && (rangePieces .glb a len).any (fun p => match translate s c t needLoad p.1 with
    | .ok (q, _) => rangesMeet q p.2 pa n
    | .error _ => false)

/-- Whether an operation of a copy queue has its barrier, or a byte that it reads or writes, among n bytes of physical memory. -/
def CopyItem.uses (s : State) (pa n : Nat) : CopyItem → Bool
  | .marker _ _ => false
  | .op list desc bar entries c k t row got g =>
    let rows := if list then itemRows s (.op list desc bar entries c k t row got g)
      else match got, engineRecord s c t desc 64 with
        | some d, _ => (List.range (fieldAt d 20 4)).map (cpyRow d)
        | none, .ok (d, _) => (List.range (fieldAt d 20 4)).map (cpyRow d)
        | none, .error _ => []
    rangesMeet bar 64 pa n || rows.any (fun r =>
      reachesPage s c t pa n r.ssp r.src r.len || (r.cb.isNone && reachesPage s c t pa n r.dsp r.dst r.len))

/-- The gang whose thread issued an item. -/
def CopyItem.gangId : CopyItem → GangId
  | .marker _ g => g
  | .op _ _ _ _ _ _ t _ _ _ => (t.launch, t.gang)

/-- Whether an operation of a gang touches what the gang holds on its cluster (R254). -/
def itemTouches (s : State) (id : GangId) (i : CopyItem) : Bool := i.gangId == id && (itemRows s i).any CopyRow.touches

/-- Whether an operation of a gang fills one of its buffers. -/
def itemFills (s : State) (id : GangId) (i : CopyItem) : Bool := i.gangId == id && (itemRows s i).any (fun r => r.cb.isSome)

/-- Whether the head of a queue has begun. -/
def CopyQueue.begun (q : CopyQueue) : Bool :=
  q.faulted || q.bufwait || (match q.items with
    | .op _ _ _ _ _ _ _ row got _ :: _ => row != 0 || got.isSome
    | _ => false)

/-- Whether the head of a queue is an operation that the save of its gang will withdraw: it does not begin (R254). -/
def CopyQueue.withheld (s : State) (q : CopyQueue) : Bool :=
  !q.begun && (match q.items with
    | .op l d b e c k t r g o :: _ => s.stopped t && itemTouches s (t.launch, t.gang) (.op l d b e c k t r g o)
    | _ => false)

/-- COPY_OPERATION (R196). -/
def execCopyOperation (cluster queue : Nat) (s : State) : Out :=
  let y := (s.cluster cluster).queue queue
  .next (if y.faulted then s
    else if y.withheld s then postOnce s (.copyOperation cluster queue)
    else match y.items with
      | [] => s
      | .marker id _ :: _ => joinStep s id
      | .op list desc bar entries c k t row got g :: rest =>
        let (got, e, s) := copyRun s list c t g desc entries row got
        let at_ (i : Nat) : List CopyItem := .op list desc bar entries c k t i got g :: rest
        match e with
        | .done err => copyDone s cluster queue c bar err t
        | .waits i => postOnce (setQueue s cluster queue { y with items := at_ i, bufwait := true }) (.copyOperation cluster queue)
        | .faulted i va flags =>
          copyFault (setQueue s cluster queue { y with items := at_ i, faulted := true, bufwait := false }) cluster queue c t
            va flags)

/-! ### QFENCE (R275) -/

/-- A marker at the tail of each named queue. -/
def placeMarkers (s : State) (mask : BitVec 6) (id : Nat) : State :=
  let p := clusterOf s.cur.1
  let s := (List.range 4).foldl (fun s q =>
    if mask.getLsbD q then
      let y := (s.cluster p).queue q
      setQueue s p q { y with items := y.items ++ [.marker id (s.me.thread.launch, s.me.thread.gang)] }
    else s) s
  let x := s.myCore
  s.setCore s.cur.1 { x with
    rdq := if mask.getLsbD 4 then x.rdq ++ [.marker id] else x.rdq
    rqq := if mask.getLsbD 5 then x.rqq ++ [.marker id] else x.rqq }

/-- Whether every named queue has room. -/
def markersFit (s : State) (mask : BitVec 6) : Bool :=
  (List.range 4).all (fun q => !mask.getLsbD q || !((s.cluster (clusterOf s.cur.1)).queue q).full) &&
    (!mask.getLsbD 4 || decide (s.myCore.rdq.length < 16)) && (!mask.getLsbD 5 || decide (s.myCore.rqq.length < 16))

/-- QFENCE. -/
def execQfence (x : QfI) (s : State) : Out :=
  issue x.stall noOperands noChecks (fun s _ =>
    behindFence s <| if !markersFit s x.mask then .park .buffer id
    else
      let (id, s) := s.newName
      .done (joinStep (placeMarkers s x.mask id) id) .none .seq false) s

/-! ### Root-logic queues (R307, R308) -/

/-- The needs of the ranges that RDX and RQZ name: every condition but a failed walk raises ACCESS (R308). -/
def needEngineSrc : Need :=
  { rd := true, w := false, x := false, permTrap := true, aliased := false, host := false, hc := false }
def needEngineDst : Need := { needEngineSrc with rd := false, w := true }
def needEngineEntry : Need := { needEngineSrc with w := true }

/-- A range with what is asked of it. -/
abbrev EngineRange := Need × W64 × Nat

/-- ACCESS over every page of every range, before any failed walk counts (R308). -/
def rangesTrap (s : State) (c : Nat) (t : Thread) (rs : List EngineRange) : Option Trap :=
  rs.findSome? (fun r => (rangePieces .glb r.2.1 r.2.2).findSome? (fun p =>
    match translate s c t r.1 p.1 with
    | .error (.trap x) => some x
    | _ => none))

/-- The first failed walk over the ranges, with the kind of its message. -/
def rangesFault (s : State) (c : Nat) (t : Thread) (rs : List EngineRange) : Option (Nat × Fail) :=
  rs.findSome? (fun r => (rangePieces .glb r.2.1 r.2.2).findSome? (fun p =>
    match translate s c t r.1 p.1 with
    | .error f => some (if r.1.w then 2 else 1, f)
    | .ok _ => none))

/-- The physical pieces of a range. -/
def physPieces (s : State) (c : Nat) (t : Thread) (r : EngineRange) : List Piece :=
  (rangePieces .glb r.2.1 r.2.2).filterMap (fun p =>
    match translate s c t r.1 p.1 with
    | .ok (pa, e) => some (pa, p.2, leafClass e == 0)
    | .error _ => none)

/-- Where byte d of a captured range lies, and whether its page is HC. -/
def pieceAt : List Piece → Nat → Option (Nat × Bool)
  | [], _ => none
  | (pa, n, hc) :: ps, d => if d < n then some (pa + d, hc) else pieceAt ps (d - n)

/-! ### RDX (R309, R310) -/

/-- Bytes of an element. -/
def rdxBytes : RdxTy → Nat
  | .f32 => 4
  | .bf16 => 2

/-- Layout of an element. -/
def rdxFmt : RdxTy → Fmt
  | .f32 => fmt32
  | .bf16 => fmtBf

/-- The used buffers of a descriptor. -/
def rdxUsed (d : List Byte) : List Nat := (List.range 8).filter (fieldAt d 76 1).testBit

/-- Whether a descriptor passes the checks of R309. -/
def rdxOk (d : List Byte) : Bool :=
  let n := fieldAt d 72 4
  fieldAt d 76 1 != 0 && n != 0 && decide (n ≤ 1048576) && fieldAt d 77 51 == 0 && fieldAt d 64 8 % 64 == 0 &&
    (rdxUsed d).all (fun i => fieldAt d (8 * i) 8 % 64 == 0)

/-- The source ranges of a descriptor. -/
def rdxSources (ty : RdxTy) (d : List Byte) : List (Nat × EngineRange) :=
  (rdxUsed d).map (fun i => (i, (needEngineSrc, BitVec.ofNat 64 (fieldAt d (8 * i) 8), fieldAt d 72 4 * rdxBytes ty)))

/-- The destination range. -/
def rdxDest (ty : RdxTy) (d : List Byte) : EngineRange :=
  (needEngineDst, BitVec.ofNat 64 (fieldAt d 64 8), fieldAt d 72 4 * rdxBytes ty)

/-- What a descriptor makes an RDX translate: nothing where it fails the checks. -/
def rdxNamed (ty : RdxTy) (d : List Byte) : List EngineRange :=
  if rdxOk d then (rdxSources ty d).map (·.2) ++ [rdxDest ty d] else []

/-- A barrier as a range that an engine word translates. -/
def barRange (b : W64) : EngineRange := (needEngineBar, b, 64)

/-- All that an RDX translates. -/
def rdxRanges (ty : RdxTy) (d : List Byte) (b : W64) : List EngineRange := rdxNamed ty d ++ [barRange b]

/-- ACCESS over what an RDX's descriptor names, as far as it can be read (R308). -/
def rdxAccess (ty : RdxTy) (s : State) (a : W64) : Option Trap :=
  let s := settle s
  match readGlobal s s.cur.1 s.me.thread needLoad a 128 with
  | .error (.trap t) => some t
  | .error _ => none
  | .ok (d, _) => rangesTrap s s.cur.1 s.me.thread (rdxNamed ty d)

/-- RDX's checks, each as soon as its operand can be read (R89). -/
def rdxCheck (ty : RdxTy) : Checks :=
  { noChecks with
    mid := fun s x =>
      firstOf [(x.a.val?).bind (fun a => if a.toNat % 64 != 0 then some (trapAlign a) else none),
        (x.b.val?).bind (fun b => if b.toNat % 64 != 0 then some (trapAlign b) else none),
        (x.a.val?).bind (rdxAccess ty s), (x.b.val?).bind (fun b => rangesTrap s s.cur.1 s.me.thread [barRange b])] }

/-- The addresses at which a word looks up the pages of ranges. -/
def rangeStarts (rs : List EngineRange) : List (W64 × Nat) := rs.flatMap (fun r => rangePieces .glb r.2.1 r.2.2)

/-- RDX. -/
def execRdx (x : RdxR) (s : State) : Out :=
  issue x.stall { noOperands with a := .s x.a, b := .s x.b } (rdxCheck x.ty) (fun s v =>
    let s := settle s
    let c := s.cur.1
    let t := s.me.thread
    match readGlobal s c t needLoad v.a 128 with
    | .error f => .fail 1 f
    | .ok (_, true) => .poison (noteGlobal s c t v.a 128)
    | .ok (d, false) => match rangesFault s c t (rdxRanges x.ty d v.b), translate s c t needEngineBar v.b with
      | some (kind, f), _ => .fail kind f
      | _, .error f => .fail 2 f
      | none, .ok (bar, _) => behindReds s .glb [(v.a, 128)] <| behindWalk s (rangeStarts (rdxRanges x.ty d v.b)) <|
        if 16 ≤ s.myCore.rdq.length then .park .buffer id
        else afterReds s true
          (let ok := rdxOk d
           let srcs := if ok then (rdxSources x.ty d).map (fun r => (r.1, physPieces s c t r.2)) else []
           let op : RootItem := .rdx x.ty srcs (physPieces s c t (rdxDest x.ty d)) (fieldAt d 72 4) (!ok) bar t
           let s := engineRelease s c
           let y := s.core c
           .done (postOnce (s.setCore c { y with rdq := y.rdq ++ [op] }) (.rdxOperation c)) .none .seq false)) s

/-- A node of the pairwise tree of R72: an absent side passes the other on. -/
def treeAdd (f : Fmt) : Option Nat → Option Nat → Option Nat
  | some a, some b => some (fp2 .add f .rne false a b)
  | some a, none => some a
  | none, b => b

/-- The tree over b0–b7 (R310). -/
def rdxTree (f : Fmt) (x : Nat → Option Nat) : Option Nat :=
  treeAdd f (treeAdd f (treeAdd f (x 0) (x 1)) (treeAdd f (x 2) (x 3)))
    (treeAdd f (treeAdd f (x 4) (x 5)) (treeAdd f (x 6) (x 7)))

/-- Element j of a captured buffer: its code, and whether its line is poisoned. -/
def rdxElem (s : State) (ps : List Piece) (w j : Nat) : Nat × Bool :=
  match pieceAt ps (w * j) with
  | some (pa, _) => homeRead s pa w
  | none => (0, false)

/-- The events of the poisoned source lines of an element enter the fault-address queue (R298). -/
def noteElems (s : State) (srcs : Map (List Piece)) (d : Nat) : State :=
  srcs.foldl (fun s e => match pieceAt e.2 d with
    | some (pa, _) => noteBad s pa (s.poisoned pa)
    | none => s) s

/-- n elements reduced from index j on: whether a source was poisoned, and the state after them. -/
def rdxLoop (c : Nat) (ty : RdxTy) (srcs : Map (List Piece)) (dst : List Piece) : Nat → Nat → State → Bool × State
  | 0, _, s => (false, s)
  | n + 1, j, s =>
    let w := rdxBytes ty
    let xs := srcs.map (fun e => (e.1, rdxElem s e.2 w j))
    let (bad, s) :=
      if xs.any (fun e => e.2.2) then (true, noteElems s srcs (w * j))
      else match rdxTree (rdxFmt ty) (fun i => (mapFind xs i).map (·.1)), pieceAt dst (w * j) with
        | some r, some (pa, hc) =>
          (false, homeWrite (flushFrom s (fun l => l.cls == 2 && l.pline == pa / 32) [c]) none hc pa (toBytes w r))
        | _, _ => (false, s)
    let (bad', s) := rdxLoop c ty srcs dst n (j + 1) s
    (bad || bad', s)

/-- The head of a root-logic queue that has arrived. -/
def rootDone (s : State) (c : Nat) (isRdq : Bool) (bar : Nat) (err : Bool) (t : Thread) : State :=
  let s := engineArrives s c bar err t
  let x := s.core c
  let s := if isRdq then s.setCore c { x with rdq := x.rdq.drop 1 } else s.setCore c { x with rqq := x.rqq.drop 1 }
  let s := postOnce s (.launchRetirement t.launch)
  let x := s.core c
  if isRdq then (if x.rdq.isEmpty then s else postOnce s (.rdxOperation c))
  else if x.rqq.isEmpty then s else postOnce s (.rqzOperation c)

/-- RDX_OPERATION (R310). -/
def execRdxOperation (core : Nat) (s : State) : Out :=
  .next (match (s.core core).rdq with
    | .rdx ty srcs dst count failed bar t :: _ =>
      if failed then rootDone s core true bar true t
      else
        let (bad, s) := rdxLoop core ty srcs dst count 0 s
        rootDone s core true bar bad t
    | .marker id :: _ => joinStep s id
    | _ => s)

end Sys2Proof.Machine
end

