-- ==== Sys2Proof/Machine/Record.lean ====
section
/-!
DEFINITION. The slot save record and the gang save area (R255) with the image of a progress record (R159), as bytes and read
back.
-/

namespace Sys2Proof.Machine

/-! ### Codes -/

/-- The load state of a code (R151). -/
def loadState (v : Nat) : LoadSt :=
  match v with
  | 1 => .running
  | 2 => .faulted
  | 3 => .done
  | 4 => .aborted
  | _ => .none

/-- The code of a streamed kind (R45), and the kind of a code. -/
def cldCode : CldKind → Nat
  | .f32 => 0
  | .f16 => 2
  | .bf16 => 3
  | .nf => 4
  | .i8 => 5

def cldOf (v : Nat) : CldKind :=
  match v with
  | 2 => .f16
  | 3 => .bf16
  | 4 => .nf
  | 5 => .i8
  | _ => .f32

/-- The code of a layout (R137). -/
def layoutCode : Layout → Nat
  | .km => 0
  | .mk => 1

/-- The park reason of a code (R87). -/
def reasonOf (v : Nat) : Option Reason :=
  match v with
  | 0 => some .result
  | 1 => some .link
  | 2 => some .stream
  | 3 => some .message
  | 4 => some .fullempty
  | 5 => some .reservation
  | 6 => some .buffer
  | 7 => some .barrier
  | 8 => some .monitor
  | 9 => some .cld
  | 10 => some .sleep
  | 11 => some .grant
  | _ => none

/-- The code of a space (R43). -/
def spaceCode : Space → Nat
  | .glb => 0
  | .spd => 1
  | .cls => 2
  | .chp => 3

/-! ### The progress record (R159) -/

/-- The 128 bytes of a progress record. -/
def recordBytes (r : Record) : List Byte :=
  toBytes 4 r.base ++ toBytes 4 r.sectors ++ toBytes 32 r.bitmap ++
    toBytes 1 (loadCode r.state + 8 * r.sat.toNat + 16 * r.err.toNat + 32 * r.msgOut.toNat) ++
    toBytes 1 (r.tile + 16 * r.oslot + 128 * r.topx.toNat) ++ toBytes 1 (cldCode r.kind + 16 * layoutCode r.layout) ++
    toBytes 1 0 ++ toBytes 4 r.sImage.toNat ++ toBytes 4 r.rImage.toNat ++ toBytes 4 r.rows ++ toBytes 8 r.faddr.toNat ++
    toBytes 8 r.a.toNat ++ toBytes 8 r.geo.toNat ++ toBytes 8 r.c.toNat ++ toBytes 8 r.rbase ++ toBytes 4 r.rK ++
    toBytes 4 r.gen ++ toBytes 8 r.cldser.toNat ++ zeroBytes 16

/-- A progress record from its 128 bytes. -/
def recordOf (d : List Byte) : Record :=
  let b40 := fieldAt d 40 1
  let b41 := fieldAt d 41 1
  let b42 := fieldAt d 42 1
  { Record.reset with
    base := fieldAt d 0 4, sectors := fieldAt d 4 4, bitmap := fieldAt d 8 32, state := loadState (b40 % 8)
    sat := b40.testBit 3, err := b40.testBit 4, msgOut := b40.testBit 5, tile := b41 % 16, oslot := b41 / 16 % 8
    topx := b41.testBit 7, kind := cldOf (b42 % 16), layout := if b42 / 16 % 4 = 0 then .km else .mk
    sImage := BitVec.ofNat 32 (fieldAt d 44 4), rImage := BitVec.ofNat 32 (fieldAt d 48 4), rows := fieldAt d 52 4
    faddr := BitVec.ofNat 64 (fieldAt d 56 8), a := BitVec.ofNat 64 (fieldAt d 64 8)
    geo := BitVec.ofNat 64 (fieldAt d 72 8), c := BitVec.ofNat 64 (fieldAt d 80 8), rbase := fieldAt d 88 8
    rK := fieldAt d 96 4, gen := fieldAt d 100 4, cldser := BitVec.ofNat 64 (fieldAt d 104 8) }

/-! ### Streams and the fetcher -/

/-- The 48 bytes of a stream register. -/
def streamBytes (b : Stream) : List Byte :=
  toBytes 8 b.base.toNat ++ toBytes 8 b.stride.toNat ++ toBytes 8 b.count ++ toBytes 8 b.pos ++
    toBytes 1 (b.bound.toNat + 2 * b.wr.toNat + 4 * b.size + 16 * spaceCode b.sp) ++ zeroBytes 15

/-- A stream register from its bytes; nothing is prefetched. -/
def streamOf (d : List Byte) : Stream :=
  let f := fieldAt d 32 1
  { bound := f.testBit 0, wr := f.testBit 1, size := f / 4 % 4, sp := spaceOf (f / 16), base := BitVec.ofNat 64 (fieldAt d 0 8),
    stride := BitVec.ofNat 64 (fieldAt d 8 8), count := fieldAt d 16 8, pos := fieldAt d 24 8, buf := [] }

/-- The 128 bytes of a fetcher. -/
def fetcherBytes (f : Fetcher) : List Byte :=
  let cur := f.cur.getD (0, 0)
  let nxt := f.next.getD (0, 0)
  toBytes 8 f.desc.toNat ++ toBytes 8 f.total ++ toBytes 4 f.e0 ++ toBytes 4 f.e1 ++ toBytes 2 f.parties ++
    toBytes 2 f.guided ++ zeroBytes 4 ++ toBytes 8 f.minc ++ toBytes 8 cur.1 ++ toBytes 8 cur.2 ++ toBytes 8 nxt.1 ++
    toBytes 8 nxt.2 ++ toBytes 1 (f.bound.toNat + 2 * f.next.isSome.toNat + 4 * f.exhausted.toNat) ++ zeroBytes 55

/-- A fetcher from its bytes: one that holds no next chunk and is not exhausted has its claim made again. -/
def fetcherOf (d : List Byte) : Fetcher :=
  let b := fieldAt d 72 1
  let cur := (fieldAt d 40 8, fieldAt d 48 8)
  { bound := b.testBit 0, desc := BitVec.ofNat 64 (fieldAt d 0 8), total := fieldAt d 8 8, e0 := fieldAt d 16 4,
    e1 := fieldAt d 20 4, parties := fieldAt d 24 2, guided := fieldAt d 26 2, minc := fieldAt d 32 8,
    cur := if cur.1 < cur.2 then some cur else none,
    next := if b.testBit 1 then some (fieldAt d 56 8, fieldAt d 64 8) else none,
    claiming := b.testBit 0 && !b.testBit 1 && !b.testBit 2, failed := false, exhausted := b.testBit 2, word := 0 }

/-! ### The slot save record (R255) -/

/-- Bits of a mask over n positions. -/
def maskBits (n : Nat) (p : Nat → Bool) : Nat := ((List.range n).map (fun i => if p i then 2 ^ i else 0)).foldl (· + ·) 0

/-- The pending bits of a context. -/
def pendingBits (x : Slot) : Nat :=
  maskBits 16 (fun i => cellPending (x.qCell i)) + maskBits 24 (fun i => cellPending (x.nCell i)) * 2 ^ 16 +
    maskBits 16 (fun i => cellPending (x.vCell i)) * 2 ^ 40

/-- The park reason, stall counter and faulted bit of a context. -/
def stateByte (x : Slot) : Nat :=
  (match x.st with
   | .parked r => r.code
   | _ => 15) + 16 * (x.stall % 8) + 128 * (x.st == .faulted).toNat

/-- The turns that a STALLN or PARK still waits; a refused LRW's wait for its next request is none of these. -/
def Slot.turnsLeft (x : Slot) : Nat := if x.st = .parked .reservation then 0 else x.sleepLeft.getD 0

/-- The 4 KiB of a context. -/
def slotBytes (x : Slot) : List Byte :=
  (List.range 24).flatMap (fun i => toBytes 8 (cellFinal (x.nCell i)).toNat) ++
    (List.range 16).flatMap (fun i => toBytes 8 (cellFinal (x.qCell i)).toNat) ++ toBytes 8 (pendingBits x) ++
    toBytes 8 x.status.toNat ++ toBytes 8 x.tvec.toNat ++ toBytes 8 x.tcause.toNat ++ toBytes 8 x.tepc.toNat ++
    (List.range 8).flatMap (fun i => toBytes 4 (x.fmtReg i).toNat) ++
    (List.range 8).flatMap (fun i => toBytes 8 (x.mreg i).val.toNat) ++ toBytes 1 (maskBits 8 (fun i => (x.mreg i).full)) ++
    toBytes 1 (stateByte x) ++ zeroBytes 6 ++ toBytes 8 (gangWord x.thread) ++ toBytes 8 (thrWord x.thread) ++
    toBytes 8 (stageWord x.thread) ++ toBytes 8 x.hdr.toNat ++ toBytes 1 x.idx ++ zeroBytes 3 ++
    toBytes 4 x.turnsLeft ++ toBytes 8 (x.monitor.line * 32 + x.monitor.armed.toNat) ++
    (List.range 8).flatMap (fun i => streamBytes (x.stream i)) ++ fetcherBytes x.fetcher ++ recordBytes x.record ++
    (List.range 16).flatMap (fun i => toBytes 128 (cellFinal (x.vCell i)).toNat) ++ zeroBytes 896

/-- Registers from the bytes of a record. -/
def cellsOf (d : List Byte) (o n w : Nat) : List (Nat × Nat) := (List.range n).map (fun i => (i, fieldAt d (o + w * i) w))

/-- The thread of a record that belongs to launch n. -/
def recordThread (d : List Byte) (n : Nat) (l : Launch) : Thread :=
  let thr := fieldAt d 472 8
  let st := fieldAt d 480 8
  { launch := n, gang := fieldAt d 464 4, j := thr / 2 ^ 20 % 16, x := thr / 2 ^ 16 % 4, y := thr / 2 ^ 18 % 4,
    index := thr % 256, prio := st / 2 ^ 8 % 8, stage := st % 16, part := l.part, asid := l.asid, debug := l.debug,
    spill := l.spill, rect := false }

/-- A register of a record: pending where its bit is set, as it was in the context that the record was made of, or under a tag
of its own. -/
def recordCell {α : Type} (pending : Bool) (val : α) (was : Option (Cell α)) (tag : Nat) : Cell α :=
  if !pending then { val := val, st := .now }
  else match was with
    | some c => if cellPending c then { val := val, st := c.st } else { val := val, st := .pending tag 0 }
    | none => { val := val, st := .pending tag 0 }

/-- The monitor of a record: what it was armed for at the home of its line has been lost since (R244). -/
def monitorOf (v : Nat) : Monitor := { armed := v.testBit 0, woken := v.testBit 0, line := v / 32 }

/-- The context of a record, of a thread that runs on a lent slot (R203). Results that are still owed to it, or have come since, a
FENCE of it that still waits, and a header that it has reached and whose block it has not entered are those of the spilled context
that the record was made of, where there is one. -/
def contextOf (d : List Byte) (t : Thread) (was : Option Slot) (tag : Nat) : Slot :=
  let full := fieldAt d 456 1
  let b := fieldAt d 457 1
  let sleep := fieldAt d 500 4
  let pend := fieldAt d 320 8
  { Slot.reset with
    st := match reasonOf (b % 16) with
      | some r => .parked r
      | none => .running
    lent := true, thread := t, stall := b / 16 % 8
    n := (cellsOf d 0 24 8).map (fun e =>
      (e.1, recordCell (pend.testBit (16 + e.1)) (BitVec.ofNat 64 e.2) (was.map (fun y => y.nCell e.1)) tag))
    q := (cellsOf d 192 16 8).map (fun e =>
      recordCell (pend.testBit e.1) (BitVec.ofNat 64 e.2) (was.map (fun y => y.qCell e.1)) tag)
    status := BitVec.ofNat 64 (fieldAt d 328 8) &&& statusMask, tvec := BitVec.ofNat 64 (fieldAt d 336 8) &&& tvecMask
    tcause := BitVec.ofNat 64 (fieldAt d 344 8), tepc := BitVec.ofNat 64 (fieldAt d 352 8)
    fmt := (cellsOf d 360 8 4).map (fun e => (e.1, BitVec.ofNat 32 e.2 &&& fmtMask))
    m := (cellsOf d 392 8 8).map (fun e =>
      (e.1, { val := BitVec.ofNat 64 e.2, full := full.testBit e.1, topx := fieldAt d 328 8 % 2 == 1 }))
    hdr := BitVec.ofNat 64 (fieldAt d 488 8), idx := fieldAt d 496 1
    entering := fieldAt d 496 1 == 1 && (was.map (fun y => y.entering)).getD false
    sleepLeft := if sleep = 0 then none else some sleep
    monitor := monitorOf (fieldAt d 504 8), fence := was.bind (fun y => y.fence)
    streams := (List.range 8).map (fun i => (i, streamOf ((d.drop (512 + 48 * i)).take 48)))
    fetcher := fetcherOf ((d.drop 896).take 128), record := recordOf ((d.drop 1024).take 128)
    v := (cellsOf d 1152 16 128).map (fun e =>
      (e.1, recordCell (pend.testBit (40 + e.1)) (BitVec.ofNat 1024 e.2) (was.map (fun y => y.vCell e.1)) tag))
    owed := (was.map (fun y => y.owed)).getD [] }

/-! ### Results owed to a context -/

/-- A slot with a result that it was owed; a result that has not come, or is uncorrectable, changes nothing. -/
def Slot.receive (x : Slot) (o : Owed) : Slot :=
  match o.val with
  | .waiting => x
  | .poison => x
  | .scalar st v => x.deliver o.tag (fun p => if p = 0 then st else v) 0
  | .vector v => x.deliver o.tag (fun _ => 0) v

/-- A context whose results have been delivered into it, as a save or a spill delivers them (R83, R200, R254). -/
def Slot.receiveAll (x : Slot) : Slot := x.owed.foldl Slot.receive x

/-! ### The gang save area (R255; the layout inside its parts is open, DESIGN CHOICE, log 26) -/

/-- Whether one saved context stands before another: by `sys.thr` index. -/
def savedInsert (y : SavedSlot) : List SavedSlot → List SavedSlot
  | [] => [y]
  | z :: zs => if z.slot.thread.index < y.slot.thread.index then z :: savedInsert y zs else y :: z :: zs

/-- Whether a gang holds a tile. -/
def Gang.holds (g : Gang) (i : Nat) : Bool := g.tiles.getLsbD i

/-- The 64-byte header: serial, gang index, shape, and the tile mask with its lane bit as a launch record has it. -/
def saveHeader (g : Gang) : List Byte :=
  toBytes 4 (g.id.1 % 2 ^ 16) ++ toBytes 4 g.id.2 ++ toBytes 1 g.w ++ toBytes 1 g.h ++ toBytes 2 g.t ++
    toBytes 4 (g.tiles.toNat + 2 ^ 16 * g.lanes.toNat) ++ zeroBytes 48

/-- The record of the thread of an index; a thread that has ended leaves zeros. -/
def savedRecord (g : SavedGang) (i : Nat) : List Byte :=
  match g.slots.find? (fun y => y.slot.thread.index == i) with
  | some y => slotBytes y.slot
  | none => zeroBytes 4096

/-- The 16 KiB of a tile. -/
def tileBytes (m : Words) (i : Nat) : List Byte := (List.range 4096).flatMap (fun j => toBytes 4 (cellGet m (4096 * i + j)).toNat)

/-- The 32 bytes of an operand-slot binding. -/
def opslotBytes (y : OpSlot) : List Byte :=
  toBytes 8 y.base ++ toBytes 4 y.rows ++ toBytes 4 y.cols ++ toBytes 4 y.image.toNat ++ toBytes 4 y.gen ++
    toBytes 1 (layoutCode y.layout) ++ toBytes 1 y.owner.isSome.toNat ++ zeroBytes 6

/-- The code of a buffer's space. -/
def cbSpaceCode : CbSpace → Nat
  | .spd => 1
  | .cls => 2

/-- The 32 bytes of a circular buffer. -/
def cbufBytes (b : CBuf) : List Byte :=
  toBytes 4 b.base ++ toBytes 4 b.size ++ toBytes 2 b.count ++
    [b.free, b.reserved, b.filled, b.taken, b.rsv, b.pub, b.take, b.rel].flatMap (toBytes 2) ++
    toBytes 1 (cbSpaceCode b.sp) ++ toBytes 1 b.owner.isSome.toNat ++ zeroBytes 4

/-- The words of a core's FIFOs with their count, by direction and j. -/
def linkBytes (g : Gang) (ls : List LinkFifo) : List Byte :=
  [Dir.dn, Dir.de, Dir.ds, Dir.dw].flatMap (fun d => (List.range g.t).flatMap (fun j =>
    let ws := (ls.filter (fun f => f.dir == d && f.j == j)).flatMap (fun f => f.fifo ++ f.wire)
    toBytes 8 ws.length ++ ws.flatMap (fun w => toBytes 8 w.toNat)))

/-- Inbox entries with their count. -/
def inboxBytes (es : List InboxEntry) : List Byte :=
  toBytes 8 es.length ++ es.flatMap (fun e =>
    toBytes 1 e.slot ++ toBytes 1 e.reg ++ toBytes 1 e.topx.toNat ++ zeroBytes 5 ++ toBytes 8 e.value.toNat)

/-- What a gang holds on one core of its rectangle, at row y and column x. -/
def coreBytes (g : SavedGang) (y x : Nat) (c : SavedCore) : List Byte :=
  let here (e : InboxEntry) : Bool :=
    g.slots.any (fun z => z.slot.thread.index == e.slot && z.place == some (y, x))
  ((List.range 16).filter g.gang.holds).flatMap (tileBytes c.tiles) ++ bytesAt c.spd g.gang.spdBase g.gang.spdSize ++
    (if g.gang.lanes then bytesAt c.lanes 0 131072 else []) ++
    (List.range 8).flatMap (fun i => opslotBytes (mapGet OpSlot.reset c.opslots i)) ++
    (List.range 8).flatMap (fun i => cbufBytes (mapGet CBuf.reset c.cbufs i)) ++ linkBytes g.gang c.links ++
    inboxBytes (g.inbox.filter here)

/-- The 64 bytes of a withdrawn operation or marker with its queue. -/
def copyBytes : Nat × CopyItem → List Byte
  | (q, .op list desc bar entries core slot t row _ _) =>
    toBytes 1 q ++ toBytes 1 list.toNat ++ zeroBytes 2 ++ toBytes 4 entries ++ toBytes 8 desc.toNat ++ toBytes 8 bar ++
      toBytes 8 (threadId t) ++ toBytes 4 core ++ toBytes 4 slot ++ toBytes 8 row ++ zeroBytes 16
  | (q, .marker id _) => toBytes 1 q ++ toBytes 1 2 ++ zeroBytes 6 ++ toBytes 8 id ++ zeroBytes 48

/-- The gang save area (R255). The inbox entries of threads that stand outside the rectangle follow at its end. -/
def gangBytes (g : SavedGang) : List Byte :=
  let outside (e : InboxEntry) : Bool := g.slots.any (fun z => z.slot.thread.index == e.slot && z.place.isNone)
  saveHeader g.gang ++ (List.range (g.gang.w * g.gang.h * g.gang.t)).flatMap (savedRecord g) ++
    ((List.range (g.gang.w * g.gang.h)).zip g.cores).flatMap (fun e => coreBytes g (e.1 / g.gang.w) (e.1 % g.gang.w) e.2) ++
    g.cls.flatMap (fun m => bytesAt m g.gang.clsBase g.gang.clsSize) ++ g.copies.flatMap copyBytes ++
    inboxBytes (g.inbox.filter outside)

/-- The stacks of a mask, ascending. -/
def stackList (mask : Nat) : List Nat := (List.range 12).filter mask.testBit

/-- The save area of a gang in the memory of its partition (R254): firmware names it. -/
def saveAddr (s : State) (g : Gang) : Option Nat :=
  ((stackList (s.part g.part).stackSet).head?).map (fun k => k * 2 ^ 36 + Config.saveArea g.id.1 g.id.2 % 2 ^ 24 * 4096)

/-- The save area of a gang written. -/
def writeSave (s : State) (g : SavedGang) : State :=
  match saveAddr s g.gang with
  | some a => homeWrite s none true a (gangBytes g)
  | none => s

end Sys2Proof.Machine
end

