-- ==== Sys2Proof/Machine/Handles.lean ====
section
/-!
DEFINITION. Handles and the object table (R316–R322), reclamation (R323, R324), and RQZ (R311–R314).
-/

namespace Sys2Proof.Machine

/-! ### The object table (R316–R319) -/

/-- Entry i of a partition's table. -/
def entryAt (s : State) (p : Partition) (i : Nat) : Entry :=
  let a := p.table + 32 * i
  let ctl := readLe s.mem (a + 20) 1
  { off := readLe s.mem a 8, size := readLe s.mem (a + 8) 8, strong := readLe s.mem (a + 16) 4, prio := ctl % 16,
    state := ctl / 16 % 4, gen := readLe s.mem (a + 24) 4 % 2 ^ 27, own := readLe s.mem (a + 28) 4 }

/-- The bytes of an entry. -/
def entryBytes (e : Entry) : List Byte :=
  toBytes 8 e.off ++ toBytes 8 e.size ++ toBytes 4 e.strong ++ toBytes 1 (e.prio + 16 * e.state) ++ zeroBytes 3 ++
    toBytes 4 e.gen ++ toBytes 4 e.own

/-- An entry written. -/
def putEntry (s : State) (p : Partition) (i : Nat) (e : Entry) : State :=
  homeWrite s none false (p.table + 32 * i) (entryBytes e)

/-- Whether an entry is live. -/
def Entry.live (e : Entry) : Bool := e.state == 1

/-- Fields of a handle (R316). -/
def hStrong (h : W64) : Bool := h.getLsbD 63
def hPart (h : W64) : Nat := h.toNat / 2 ^ 59 % 16
def hGen (h : W64) : Nat := h.toNat / 2 ^ 32 % 2 ^ 27
def hIndex (h : W64) : Nat := h.toNat % 2 ^ 32

/-- The null handle. -/
def hNull : W64 := 0xFFFFFFFFFFFFFFFF

/-- The entry of the live object that a handle names (R319). -/
def liveObject (s : State) (part : Nat) (h : W64) : Option (Nat × Entry) :=
  let p := s.part part
  let e := entryAt s p (hIndex h)
  if hPart h = part ∧ hIndex h < p.capacity ∧ e.live = true ∧ e.gen = hGen h then some (hIndex h, e) else none

/-- The address of the entry that a handle names, where it names one of a partition's table. -/
def entryAddr (s : State) (part : Nat) (h : W64) : Option Nat :=
  let p := s.part part
  if hPart h = part ∧ hIndex h < p.capacity then some (p.table + 32 * hIndex h) else none

/-- Whether the line of the entry that a handle names is poisoned (R298). -/
def entryBad (s : State) (part : Nat) (h : W64) : Bool :=
  match entryAddr s part h with
  | some a => s.poisoned a
  | none => false

/-- The event of an access to such an entry enters the fault-address queue (R305). -/
def noteEntry (s : State) (part : Nat) (h : W64) : State :=
  match entryAddr s part h with
  | some a => noteBad s a (s.poisoned a)
  | none => s

/-- A word whose operation on an object is not performed where the entry that its handle names is poisoned: one that owes a reply
has it marked, any other seals its core (R298). -/
def onEntry (s : State) (h : W64) (reply : Option (State → Act)) (a : Act) : Act :=
  let part := s.me.thread.part
  if entryBad s part h then (match reply with
    | some r => r (noteEntry s part h)
    | none => .poison (noteEntry s part h))
  else a

/-- Replies marked uncorrectable: a scalar, and a status with its datum. -/
def badScalar : Option (State → Act) := some (fun s => oweScalar s 0 true)
def badPair : Option (State → Act) := some (fun s => owePair s 0 0 true)

/-- Granules of an object in bytes. -/
def granuleBytes (size : Nat) : Nat := (size + 63) / 64 * 64

/-- The live objects of a partition as offsets and granule bytes. -/
def liveRuns (s : State) (p : Partition) : List (Nat × Nat) :=
  ((List.range p.capacity).map (entryAt s p)).filterMap (fun e =>
    if e.live then some (e.off, granuleBytes e.size) else none)

/-- Free memory (R317). -/
def freeMemory (s : State) (p : Partition) : Nat := p.hsize - ((liveRuns s p).map (·.2)).foldl (· + ·) 0

/-- The lowest offset of a run of free granules for a size. -/
def freeRun (s : State) (p : Partition) (size : Nat) : Option Nat :=
  let runs := liveRuns s p
  let n := granuleBytes size
  let fits (o : Nat) : Bool := decide (o + n ≤ p.hsize) && runs.all (fun r => decide (o + n ≤ r.1) || decide (r.1 + r.2 ≤ o))
  minOf ((0 :: runs.map (fun r => r.1 + r.2)).filter fits)

/-- The lowest free entry. -/
def freeEntry (s : State) (p : Partition) : Option Nat :=
  (List.range p.capacity).find? (fun i => (entryAt s p i).state == 0)

/-! ### HNEW and reclamation (R321, R323, R324) -/

/-- A reclaim pass started unless one runs. -/
def startPass (s : State) (part : Nat) : State :=
  let p := s.part part
  if p.pass then s else (s.setPart part { p with pass := true }).post [.reclaimPass part]

/-- The allocation of R321: the handle, or null. An entry on a poisoned line is not written, and the reply is marked (R298). -/
def allocate (s : State) (part size prio : Nat) : OwedVal × State :=
  let p := s.part part
  match freeEntry s p, freeRun s p size with
  | some i, some o =>
    let e := entryAt s p i
    if s.poisoned (p.table + 32 * i) then (.poison, noteBad s (p.table + 32 * i) true)
    else
    let s := putEntry s p i { e with off := o, size := size, strong := 1, prio := prio, state := 1 }
    let h := BitVec.ofNat 64 (2 ^ 63 + part * 2 ^ 59 + e.gen * 2 ^ 32 + i)
    (.scalar 0 h, if freeMemory s p < p.low then startPass s part else s)
  | _, _ => (.scalar 0 hNull, s)

/-- Whether an HNEW must wait for a pass. -/
def mustWait (s : State) (p : Partition) (size : Nat) : Bool :=
  (freeEntry s p).isNone || (freeRun s p size).isNone || decide (freeMemory s p < p.low)

/-- HNEW: it issues at once; its result may be owed until a pass has ended, and its acquire is performed with the allocation
(R320): until then the slot's later accesses wait. -/
def execHnew (x : HnewR) (s : State) : Out :=
  issue x.stall (formAB x.a x.b x.d) noChecks (fun s v =>
    let s := settle s
    let part := s.me.thread.part
    let p := s.part part
    let size := v.a.toNat
    let prio := v.b.toNat % 16
    behindFence s <| if size = 0 ∨ p.hsize < size then oweScalar (scAcquire s s.cur.1) hNull.toNat false
    else if mustWait s p size then
      let s := startPass s part
      let (tag, s) := owe s .waiting
      let p := s.part part
      let s := s.setPart part { p with hnews := p.hnews ++ [(s.cur.1, s.cur.2, tag, size, prio)] }
      .done s (.owed tag false) .seq false
    else
      let (r, s) := allocate s part size prio
      let (tag, s) := owe (scAcquire s s.cur.1) r
      .done s (.owed tag false) .seq false) s

/-- A slot whose owed result of a tag has come. -/
def Slot.answer (x : Slot) (tag : Nat) (v : OwedVal) : Slot :=
  { x with owed := x.owed.map (fun o => if o.tag = tag then { o with val := v } else o) }

/-- A core with an owed result answered in every context it holds. -/
def Core.answer (c : Core) (tag : Nat) (v : OwedVal) : Core :=
  { c with
    slots := c.slots.map (fun k : Nat × Slot => (k.1, k.2.answer tag v))
    waiting := c.waiting.map (fun x : Slot => x.answer tag v)
    spilled := c.spilled.map (fun x : Nat × Nat × Slot => (x.1, x.2.1, x.2.2.answer tag v)) }

/-- The deliveries that a core's slots need for a tag. -/
def Core.deliveries (n : Nat) (c : Core) (tag : Nat) : List Instr :=
  c.slots.filterMap (fun k : Nat × Slot =>
    if k.2.owed.any (fun o => o.tag == tag) then some (Instr.resultDelivery n k.1 tag) else none)

/-- Whether a context still waits for a result under a tag. -/
def Slot.waitsFor (x : Slot) (tag : Nat) : Bool := x.owed.any (fun o => o.tag == tag)

/-- Whether a core holds a thread that waits for a result under a tag. -/
def Core.waitsFor (x : Core) (tag : Nat) : Bool :=
  x.slots.any (fun k : Nat × Slot => k.2.waitsFor tag) || x.waiting.any (fun y : Slot => y.waitsFor tag) ||
    x.spilled.any (fun y : Nat × Nat × Slot => y.2.2.waitsFor tag)

/-- The acquire at .pk of an operation that answers under a tag, on the core whose thread waits for it (R263, R320, R353). -/
def acquireFor (s : State) (tag : Nat) : State :=
  s.coreKeys.foldl (fun s c => if (s.core c).waitsFor tag then scAcquire s c else s) s

/-- A saved gang with an owed result answered: it is written into the saved context (R254). -/
def SavedGang.answer (g : SavedGang) (tag : Nat) (v : OwedVal) : SavedGang :=
  { g with slots := g.slots.map (fun x : SavedSlot => { x with slot := (x.slot.answer tag v).receiveAll }) }

/-- Whether a saved gang has a thread that waits for a result under a tag. -/
def SavedGang.waitsFor (g : SavedGang) (tag : Nat) : Bool := g.slots.any (fun x : SavedSlot => x.slot.waitsFor tag)

/-- A result owed under a tag has come: wherever its thread stands now, it is delivered there, into the saved record in its gang's save
area too (R83, R254, R353). -/
def answerOwed (s : State) (tag : Nat) (v : OwedVal) : State :=
  let s := acquireFor s tag
  let late := (s.saved.filter (fun g : SavedGang => g.waitsFor tag)).map (fun g => g.answer tag v)
  let steps := s.cores.flatMap (fun e : Nat × Core => e.2.deliveries e.1 tag)
  let s := { s with
    cores := s.cores.map (fun e : Nat × Core => (e.1, e.2.answer tag v))
    saved := s.saved.map (fun g : SavedGang => if g.waitsFor tag then g.answer tag v else g) }
  (late.foldl writeSave s).post steps

/-- HNEWs that waited, tried once more in order: each has been sent, and is performed whatever has become of its thread
(R326). -/
def serveHnews (part : Nat) : List (Nat × Nat × Nat × Nat × Nat) → State → State
  | [], s => s
  | (_, _, tag, size, prio) :: hs, s =>
    let (r, s) := allocate s part size prio
    serveHnews part hs (answerOwed s tag r)

/-- Destruction (R324). -/
def destroy (e : Entry) : Entry :=
  { e with strong := 0, gen := (e.gen + 1) % 2 ^ 27, state := if e.gen + 1 = 2 ^ 27 then 2 else 0 }

/-- The scan of one priority from entry i on, over n entries; true: free memory has reached the high watermark. The RMW of an entry on
a poisoned line is not performed (R298). -/
def scanEntries (part prio : Nat) : Nat → Nat → State → Bool × State
  | 0, _, s => (false, s)
  | n + 1, i, s =>
    let p := s.part part
    if p.high ≤ freeMemory s p then (true, s)
    else
      let e := entryAt s p i
      scanEntries part prio n (i + 1)
        (if s.poisoned (p.table + 32 * i) then noteBad s (p.table + 32 * i) true
        else if e.live && e.prio == prio && e.strong == 0 then putEntry s p i (destroy e) else s)

/-- The scans of rising priorities. -/
def scanPrios (part : Nat) : List Nat → State → State
  | [], s => s
  | q :: qs, s =>
    match scanEntries part q (s.part part).capacity 0 s with
    | (true, s) => s
    | (false, s) => scanPrios part qs s

/-- RECLAIM_PASS (R323). -/
def execReclaimPass (part : Nat) (s : State) : Out :=
  .next (if !(s.part part).pass then s
    else
      let s := scanPrios part (List.range 16) s
      let p := s.part part
      serveHnews part p.hnews (s.setPart part { p with pass := false, hnews := [] }))

/-! ### HFREE, HDOWN, HUP, HPRIO, HADDR (R321) -/

/-- One reference given up by a strong handle. -/
def dropStrong (s : State) (h : W64) : State :=
  match hStrong h, liveObject s s.me.thread.part h with
  | true, some (i, e) =>
    if e.strong = 0 then s else putEntry s (s.part s.me.thread.part) i { e with strong := e.strong - 1 }
  | _, _ => s

/-- HFREE. -/
def execHfree (x : UnR) (s : State) : Out :=
  issue x.stall (formSrc x.a) noChecks (fun s v =>
    let s := settle s
    afterReds s true (onEntry s v.a none (.done (dropStrong (scRelease s s.cur.1) v.a) .none .seq false))) s

/-- HDOWN. -/
def execHdown (x : DlA) (s : State) : Out :=
  issue x.stall (formA x.a x.d) noChecks (fun s v =>
    let s := settle s
    afterReds s true (onEntry s v.a badScalar
      (oweScalar (dropStrong (scRelease s s.cur.1) v.a) (v.a.toNat % 2 ^ 63) false))) s

/-- HUP. -/
def execHup (x : DlA) (s : State) : Out :=
  issue x.stall (formA x.a x.d) noChecks (fun s v =>
    let s := settle s
    let part := s.me.thread.part
    behindFence s <| onEntry s v.a badPair <|
    let (st, h, s) := match liveObject s part v.a with
      | none => (1, hNull.toNat, s)
      | some (i, e) =>
        if e.strong = 2 ^ 32 - 1 then (2, hNull.toNat, s)
        else (0, v.a.toNat % 2 ^ 63 + 2 ^ 63, putEntry s (s.part part) i { e with strong := e.strong + 1 })
    owePair (scAcquire s s.cur.1) st h false) s

/-- HPRIO. -/
def execHprio (x : AB) (s : State) : Out :=
  issue x.stall { noOperands with a := .s x.a, b := .s x.b } noChecks (fun s v =>
    let part := s.me.thread.part
    behindFence s <| onEntry s v.a none <| .done (match liveObject s part v.a with
      | some (i, e) => putEntry s (s.part part) i { e with prio := v.b.toNat % 16 }
      | none => s) .none .seq false) s

/-- HADDR. -/
def execHaddr (x : DlA) (s : State) : Out :=
  issue x.stall (formA x.a x.d) noChecks (fun s v =>
    let part := s.me.thread.part
    behindFence s <| onEntry s v.a badScalar <| oweScalar s (match hStrong v.a, liveObject s part v.a with
      | true, some (_, e) => (s.part part).hbase + e.off
      | _, _ => 0) false) s

/-! ### HLD, HST, HLDW (R322) -/

/-- Whether an access of n bytes at a signed offset lies within an object. -/
def within (e : Entry) (off : BitVec 24) (n : Nat) : Bool := 0 ≤ off.toInt && decide (off.toNat + n ≤ e.size)

/-- ALIGN of an offset. -/
def offsetTrap (off : BitVec 24) (n : Nat) : Option Trap :=
  let o : W64 := off.signExtend 64
  if o.toNat % n != 0 then some (trapAlign o) else none

/-- The address of an access through a handle. -/
def handleAddr (s : State) (e : Entry) (off : BitVec 24) : W64 :=
  BitVec.ofNat 64 ((s.part s.me.thread.part).hbase + e.off + off.toNat)

/-- What a read of the entry that a handle names finds. -/
def entryFound (s : State) (part : Nat) (h : W64) : EntryRead :=
  if entryBad s part h then .marked
  else match liveObject s part h with
    | none => .gone
    | some (_, e) => .live e

/-- The current slot's unissued word with the read of its entry noted. -/
def entryNoted (s : State) (h : W64) (r : EntryRead) : State := s.setMe { s.me with entryRead := some (h, r) }

/-- The entry read of an HLD or HST (R322): an event of its own, before the access. -/
def readEntry (h : W64) (s : State) : State :=
  entryNoted (noteEntry s s.me.thread.part h) h (entryFound s s.me.thread.part h)

/-- What a slot's unissued word has read of the entry of a handle. -/
def Slot.found (x : Slot) (h : W64) : Option EntryRead :=
  match x.entryRead with
  | some (k, r) => if k = h then some r else none
  | none => none

/-- The checks of HLD and HST (R322): HANDLE_KIND and ALIGN as the word comes up, ACCESS once the entry has been read. -/
def handleCheck (need : Need) (off : BitVec 24) (n : Nat) : Checks :=
  { noChecks with
    mid := fun s x =>
      firstOf [(x.a.val?).bind (fun h => if hStrong h then none else some (trapHandleKind h)), offsetTrap off n,
        (x.a.val?).bind (fun h => match s.me.found h with
          | some .gone => some (trapHandleAccess h)
          | some (.live e) =>
            if within e off n then accessTrap s .glb need true (handleAddr s e off) n else some (trapHandleAccess h)
          | _ => none)] }

/-- The access of an HLD or HST once its entry has been read (R322): the slot parks with reason result for the read, and an entry
that comes marked uncorrectable is met as R298 says. An object destroyed between the two leaves the access as it was. -/
def throughEntry (s : State) (h : W64) (kind : Nat) (marked : Act) (access : Entry → Act) : Act :=
  match s.me.found h with
  | some (.live e) => access e
  | some .marked => marked
  | some .gone => .fail kind (.trap (trapHandleAccess h))
  | _ => .park .result (readEntry h)

/-- HLD. -/
def execHld (x : HldM) (s : State) : Out :=
  let n := tyBytes x.w
  issue x.stall (formA x.a x.d) (handleCheck needLoad x.off n) (fun s v =>
    let s := settle s
    behindFence s <| throughEntry s v.a 1 (oweScalar s 0 true) (fun e =>
      let ea := handleAddr s e x.off
      match resolve s s.cur.1 s.me.thread .glb needLoad true ea n with
      | .error f => .fail 1 f
      | .ok loc => behindReds s .glb [(ea, n)]
        (let (d, bad, s) := loadLoc s s.cur.1 s.me.thread .nrm ea loc n
         oweScalar s (extend n x.sx d) bad))) s

/-- HST. -/
def execHst (x : HstM) (s : State) : Out :=
  let n := tyBytes x.w
  issue x.stall { noOperands with a := .s x.a, b := .s x.b } (handleCheck needStore x.off n) (fun s v =>
    let s := settle s
    behindFence s <| throughEntry s v.a 2 (.poison s) (fun e =>
      storeAct s .glb .nrm .rlx (handleAddr s e x.off) n (v.b.toNat % 2 ^ (8 * n)))) s

/-- The handle prefetch (R322): the line comes into its home slice where the object is live and holds the bytes; an entry or a line
that is poisoned is noted alone (R298). -/
def handlePrefetch (s : State) (h : W64) (off : BitVec 24) (n : Nat) : State :=
  let part := s.me.thread.part
  match entryFound s part h with
  | .live e =>
    let pa := (s.part part).hphys + e.off + off.toNat
    if within e off n then noteBad s pa (s.poisoned pa) else s
  | .marked => noteEntry s part h
  | _ => s

/-- HLDW: the slot parks with reason result for the entry read (R326), which with that of the data at its home, without a translation,
is one step: a status and the data. With D = z, the handle prefetch. -/
def execHldw (x : HldM) (s : State) : Out :=
  let n := tyBytes x.w
  issue x.stall (formA x.a x.d) { noChecks with mid := fun _ _ => offsetTrap x.off n } (fun s v =>
    let s := settle s
    if x.d = .z then behindFence s (.done (handlePrefetch s v.a x.off n) .none .seq false)
    else if (s.me.found v.a).isNone then behindFence s (.park .result (fun s => entryNoted s v.a .sent))
    else
      let part := s.me.thread.part
      behindFence s <| onEntry s v.a badPair <| match liveObject s part v.a with
      | none => owePair (scAcquire s s.cur.1) 1 0 false
      | some (_, e) =>
        if !within e x.off n then owePair (scAcquire s s.cur.1) 2 0 false
        else behindOwn s [(handleAddr s e x.off, n)]
          (let pa := (s.part part).hphys + e.off + x.off.toNat
           let (d, bad) := homeRead s pa n
           owePair (scAcquire (noteBad s pa bad) s.cur.1) 0 (extend n x.sx d) bad)) s

/-! ### RQZ (R311–R314) -/

/-- The entry of a page as a range that RQZ translates, and all its ranges. -/
def entryRange (a : W64) : EngineRange := (needEngineEntry, a, 16)
def rqzRanges (a c : W64) : List EngineRange := [entryRange a, barRange c]

/-- RQZ's checks, each as soon as its operand can be read (R89). -/
def rqzCheck : Checks :=
  { noChecks with
    mid := fun s x =>
      firstOf [(x.a.val?).bind (fun a => if a.toNat % 16 != 0 then some (trapAlign a) else none),
        (x.c.val?).bind (fun c => if c.toNat % 64 != 0 then some (trapAlign c) else none),
        (x.a.val?).bind (fun a => rangesTrap s s.cur.1 s.me.thread [entryRange a]),
        (x.c.val?).bind (fun c => rangesTrap s s.cur.1 s.me.thread [barRange c])] }

/-- RQZ. -/
def execRqz (x : ABC) (s : State) : Out :=
  issue x.stall { noOperands with a := .s x.a, b := .s x.b, c := .s x.c } rqzCheck (fun s v =>
    let s := settle s
    let c := s.cur.1
    let t := s.me.thread
    match rangesFault s c t (rqzRanges v.a v.c), translate s c t needEngineBar v.c,
      physPieces s c t (needEngineEntry, v.a, 16) with
    | some (kind, f), _, _ => .fail kind f
    | _, .error f, _ => .fail 2 f
    | none, .ok (bar, _), pieces => behindFence s <| behindWalk s (rangeStarts (rqzRanges v.a v.c)) <|
      if 16 ≤ s.myCore.rqq.length then .park .buffer id
      else afterReds s true
        (let op : RootItem := .rqz (pieces.headD (0, 0, false)) v.b bar t
         let s := engineRelease s c
         let y := s.core c
         .done (postOnce (s.setCore c { y with rqq := y.rqq ++ [op] }) (.rqzOperation c)) .none .seq false)) s

/-- The MXFP4 format of R71 with sat = 1. -/
def mxfp4 : Narrow := { width := 4, mb := 1, eb := 2, sign := true, sub := true, sat := true, scale := 1, bias := 1 }

/-- Offset of the scales of an MXFP4 page of n·d elements (R312). -/
def scaleStart (nd : Nat) : Nat := 64 * ((nd + 127) / 128)

/-- A block of 32 BF16 values requantised: 16 bytes of codes, and the scale. A signalling NaN among them is read as quiet and sets no
status bit: R63 names the issuing slot, which may hold another thread by then, R310 exempts RDX alone, and R314 says nothing
(DESIGN CHOICE, log 38). -/
def rqzBlock (vals : List Nat) : List Byte × Nat :=
  let src (i : Nat) : Num := unpack fmtBf false (vals.getD i 0)
  let sc := scaleChoose mxfp4 false (blockMax (2 ^ 32 - 1) src 0 32)
  (toBytes 16 (joinCells 4 ((List.range 32).map (fun i => scaledWrite mxfp4 false .rne sc (src i)))), sc)

/-- n blocks of a page requantised from block k on, from the old object to the new. -/
def rqzBlocks (old new s0 : Nat) : Nat → Nat → State → State
  | 0, _, s => s
  | n + 1, k, s =>
    let (codes, sc) := rqzBlock ((List.range 32).map (fun i => readLe s.mem (old + 2 * (32 * k + i)) 2))
    let s := homeWrite s none true (new + 16 * k) codes
    rqzBlocks old new s0 n (k + 1) (homeWrite s none true (new + s0 + k) [BitVec.ofNat 8 sc])

/-- The condition of step 3 (R314): both objects live, distinct and large enough. -/
def rqzObjects (s : State) (part : Nat) (old new : W64) (n dblk : Nat) : Option ((Nat × Entry) × Entry) :=
  let nd := n * (32 * dblk)
  match liveObject s part old, liveObject s part new with
  | some (i, e), some (j, f) =>
    if hStrong old && i != j && n != 0 && 1 ≤ dblk && dblk ≤ 16 && decide (2 * nd ≤ e.size) &&
        decide (scaleStart nd + nd / 32 ≤ f.size) then some ((i, e), f)
    else none
  | _, _ => none

/-- RQZ's steps 1 to 8 for a core: the state and the err bit of its arrival. The entry is read and written at its home; on a
CP page of the core its own copy leaves first (R236). -/
def rqzPerform (s : State) (c : Nat) (entry : Piece) (handle : W64) (t : Thread) : Bool × State :=
  let pa := entry.1
  let s := flushFrom s (fun l => l.cls == 2 && l.pline / 2 == pa / 64) [c]
  let hc := entry.2.2
  let put (s : State) (o : Nat) (bs : List Byte) : State := homeWrite s none hc (pa + o) bs
  if s.poisoned pa then (true, noteBad s pa true)
  else if readLe s.mem (pa + 8) 1 != 0 then (true, s)
  else
    let s := put s 8 [3]
    let old := BitVec.ofNat 64 (readLe s.mem pa 8)
    let n := readLe s.mem (pa + 9) 1
    let dblk := readLe s.mem (pa + 10) 1
    let p := s.part t.part
    if entryBad s t.part old || entryBad s t.part handle then
      (true, put (noteEntry (noteEntry s t.part old) t.part handle) 8 [0])
    else match rqzObjects s t.part old handle n dblk with
    | none => (true, put s 8 [0])
    | some ((i, e), f) =>
      let nd := n * (32 * dblk)
      let bad := poisonedLines s (p.hphys + e.off) (2 * nd)
      if !bad.isEmpty then (true, put (noteLines s bad) 8 [0])
      else
        let s := rqzBlocks (p.hphys + e.off) (p.hphys + f.off) (scaleStart nd) (nd / 32) 0 s
        let s := put s 0 (toBytes 8 handle.toNat)
        let s := put s 8 [1]
        let e := entryAt s p i
        (false, if e.live && e.gen == hGen old then putEntry s p i { e with strong := e.strong - 1, prio := 0 } else s)

/-- RQZ_OPERATION (R314). -/
def execRqzOperation (core : Nat) (s : State) : Out :=
  .next (match (s.core core).rqq with
    | .rqz entry handle bar t :: _ =>
      let (err, s) := rqzPerform s core entry handle t
      rootDone s core false bar err t
    | .marker id :: _ => joinStep s id
    | _ => s)

end Sys2Proof.Machine
end

