-- ==== Sys2Proof/Machine/Deliver.lean ====
section
/-!
DEFINITION. What arrives at a slot on its own: owed results (R82), iteration claims (R102), link words (R182), translations
(R189), shoot-downs (R190); and root logic's own work on lines: the patrol (R297), class transitions (R237) and page
retirement (R306).
-/

namespace Sys2Proof.Machine

/-! ### Results (R82, R83) -/

/-- RESULT_DELIVERY: an uncorrectable result seals the core that would commit it (R177, R298), and so does one that comes
after an uncorrectable line was written back (R163). -/
def execResultDelivery (core slot tag : Nat) (s : State) : Out :=
  let x := s.slot core slot
  .next (match x.owed.find? (fun o => o.tag == tag) with
    | none => s
    | some o =>
      if o.val = .poison || (s.core core).sealDue then sealAt s core slot 1 0
      else if o.val = .waiting then s
      else s.setSlot core slot (x.receive o))

/-! ### Links (R182) -/

/-- LINK_WORD_ARRIVAL: the oldest word under way can be popped from now on. -/
def execLinkWordArrival (core : Nat) (dir : Dir) (serial gang j : Nat) (s : State) : Out :=
  let t := { Thread.none with launch := serial, gang := gang, j := j }
  let f := linkFifo s core dir t
  .next (match f.wire with
    | [] => s
    | v :: vs => setLinkFifo s core dir t { f with wire := vs, fifo := f.fifo ++ [v] })

/-! ### Translation (R189, R190) -/

/-- TRANSLATION_WALK: a walk for a slot that succeeds is cached; a failure is met by the access itself (DESIGN CHOICE, log
7). -/
def execTranslationWalk (core slot : Nat) (va : W64) (_acc : Access) (s : State) : Out :=
  let t := (s.slot core slot).thread
  .next (tlbFill s core t.part t.asid va.toNat)

/-- Whether a page holds an address: a base page, or a large one. -/
def samePage (large : Bool) (a b : Nat) : Bool :=
  let n := if large then 2 ^ 29 else 2 ^ 16
  a % 2 ^ 55 / n == b % 2 ^ 55 / n

/-- Whether a cached translation is of the page of an address. -/
def TlbEntry.isOf (e : TlbEntry) (part asid : Nat) (va : W64) : Bool :=
  e.part == part && e.asid == asid && samePage e.large (e.vpage * if e.large then 2 ^ 29 else 2 ^ 16) va.toNat

/-- The physical pages, each as its start and size, that a virtual page stands for: cached, or in its table. -/
def pagesOf (s : State) (cluster part asid : Nat) (va : W64) : List (Nat × Nat) :=
  let page (large : Bool) (e : W64) : Nat × Nat := (leafFrame e, if large then 2 ^ 29 else 2 ^ 16)
  (((s.cluster cluster).tlb.filter (fun e => e.isOf part asid va)).map (fun e => page e.large e.leaf)) ++
    (match walk s part asid (va.toNat % 2 ^ 55) with
      | .leaf l e => [page l e]
      | _ => [])

/-- SHOOT_DOWN: the translations of a page leave the cluster's TLB, its lines leave every L1 of the cluster, and the monitors on
it are lost (R190, R237 step 2). Where neither the TLB nor the table tells the page's size any more, it is taken as a large one.
Only lines held under the named page and address space go: the manual does not say whether it takes those of the same
physical page under another one too (DESIGN CHOICE, log 38). -/
def execShootDown (cluster part asid : Nat) (va : W64) (s : State) : Out :=
  let pages := pagesOf s cluster part asid va
  let x := s.cluster cluster
  let large := pages.isEmpty || pages.any (fun p => p.2 == 2 ^ 29)
  let here (l : L1Line) : Bool := l.part == part && l.asid == asid && samePage large (l.vline * 32) va.toNat
  let lines := (s.coresOf cluster).flatMap (fun c => ((s.core c).l1.filter here).map (fun l => l.pline))
  let s := s.setCluster cluster { x with tlb := x.tlb.filter (fun e => !e.isOf part asid va) }
  let s := flushFrom s here (s.coresOf cluster)
  let s := lines.foldl (fun s l => wakeMonitors s (l * 32) 32) s
  .next (pages.foldl (fun s p => wakeMonitors s p.1 p.2) s)

/-! ### Side bits and the code of a line (R294, R297) -/

/-- Bytes of an element, lowest protected bit and number of protected bits of a tolerant format (R297). -/
def tolerantBits (tfmt : BitVec 3) : Nat × Nat × Nat :=
  match tfmt.toNat with
  | 0 => (4, 23, 9)
  | 1 => (2, 7, 9)
  | 2 => (2, 10, 6)
  | 3 => (1, 3, 5)
  | 4 => (1, 2, 6)
  | _ => (1, 0, 8)

/-- Side bits [63:32] of a line (R294). -/
def sideHigh (s : State) (pa : Nat) : BitVec 32 :=
  let x := s.sideOf pa
  let fe := (List.range 16).foldl (fun v i => v + (s.full.contains (pa / 64 * 16 + i)).toNat * 2 ^ i) 0
  BitVec.ofNat 32 (fe + (if x.lay then 2 ^ 31 + x.tfmt.toNat * 2 ^ 28 else x.dstate.toNat * 2 ^ 29 + x.dinfo.toNat * 2 ^ 16))

/-- The string that the code of a line protects (R297); the order of the bits of a tolerant element is open (DESIGN CHOICE,
log 9). -/
def protectedString (s : State) (pa : Nat) : List Byte :=
  let line := bytesAt s.mem (pa / 64 * 64) 64
  let x := s.sideOf pa
  (if x.lay then
    let (n, lo, w) := tolerantBits x.tfmt
    toBytes ((64 / n * w + 7) / 8) (joinCells w ((List.range (64 / n)).map (fun i => fieldAt line (n * i) n / 2 ^ lo % 2 ^ w)))
  else line) ++ toBytes 4 (sideHigh s pa).toNat

/-- The 64 side bits of a line, its check bits among them: they are the code of its contents, but for a line whose state holds
others (R294, R298). -/
def sideWord (s : State) (pa : Nat) : W64 :=
  sideHigh s pa ++ (mapFind s.chk (pa / 64)).getD (Config.checkSymbols (protectedString s pa))

/-- Symbols in error that the code of a line corrects (R297). -/
def SideBits.corrects (x : SideBits) : Nat := if x.lay then 2 else 1

/-! ### Root logic (R237, R297, R306) -/

/-- Bit 0 of an info byte: the layout of a line (R305). -/
def lineInfo (s : State) (pa symbols : Nat) : Nat := (s.sideOf pa).lay.toNat + 2 * min symbols 2

/-- What the patrol finds in a line enters the fault-address queue. More symbols in error than the code of the line's layout
corrects are uncorrectable; a directory symbol that was corrected leaves the directory of an HC line unknown (R295, R297). -/
def patrol (s : State) (line : Nat) (found : EccEvent) : State :=
  let pa := line * 64
  let lost (s : State) : State := (s.setPoison pa true).logFault pa 4 (lineInfo s pa 0)
  match found with
  | .clean => s
  | .corrected n => if n ≤ (s.sideOf pa).corrects then s.logFault pa 3 (lineInfo s pa n) else lost s
  | .uncorrectable => lost s
  | .directory =>
    let x := s.sideOf pa
    (if x.lay || lineClass s pa != 0 then s else s.setSide pa { x with dstate := 3, dinfo := 0 }).logFault pa 5
      (lineInfo s pa 1)

/-- SCRUB_PATROL. -/
def execScrubPatrol (line : Nat) (found : EccEvent) (s : State) : Out := .next (patrol s line found)

/-- The side bits of a line after step 3 of R237, for a page that is to have a class: uncached, or unknown where a line of an
HC page was rewritten into the full layout. On an HC page the tol bit is ignored (R176, R297). -/
def transitionSide (x : SideBits) (cls : BitVec 2) (tol : Bool) (tfmt : BitVec 3) : SideBits :=
  if tol && cls != 0 then { lay := true, tfmt := tfmt, dstate := 0, dinfo := 0 }
  else { SideBits.reset with dstate := if x.lay && cls == 0 then 3 else 0 }

/-- Lines rewritten from a line on. -/
def transitionLines (cls : BitVec 2) (tol : Bool) (tfmt : BitVec 3) : Nat → Nat → State → State
  | 0, _, s => s
  | n + 1, line, s =>
    transitionLines cls tol tfmt n (line + 1) (s.setSide (line * 64) (transitionSide (s.sideOf (line * 64)) cls tol tfmt))

/-- The reservation queues without the entries that wait for a line of n bytes: their LRWs issue again (R303). -/
def withdrawWaits (s : State) (pa n : Nat) : State :=
  { s with res := s.res.filter (fun e => !(e.held.isNone && decide (pa ≤ e.line * 64) && decide (e.line * 64 < pa + n))) }

/-- Whether a reservation on a line of n bytes is held. -/
def heldIn (s : State) (pa n : Nat) : Bool :=
  s.res.any (fun e => e.held.isSome && decide (pa ≤ e.line * 64) && decide (e.line * 64 < pa + n))

/-- Whether a captured range has a byte among n bytes. -/
def pieceIn (pa n : Nat) (p : Piece) : Bool := rangesMeet p.1 p.2.1 pa n

/-- Whether an operation of a root-logic queue has its barrier, or a byte of the ranges that it captured, among n bytes; for an RQZ the
heap of its partition counts. -/
def RootItem.uses (s : State) (pa n : Nat) : RootItem → Bool
  | .marker _ => false
  | .rdx _ srcs dst _ _ bar _ => srcs.any (fun e => e.2.any (pieceIn pa n)) || dst.any (pieceIn pa n) || rangesMeet bar 64 pa n
  | .rqz entry _ bar t =>
    let p := s.part t.part
    pieceIn pa n entry || rangesMeet bar 64 pa n || rangesMeet p.hphys p.hsize pa n

/-- Whether a reservation on n bytes is held, or an engine operation on them is still to arrive: a class transition and a retirement
wait (R237 step 1, R303, R307, R308). -/
def pageBusy (s : State) (pa n : Nat) : Bool :=
  heldIn s pa n || s.cores.any (fun e => e.2.rdq.any (RootItem.uses s pa n) || e.2.rqq.any (RootItem.uses s pa n)) ||
    s.clusters.any (fun e => e.2.queues.any (fun q => q.2.items.any (CopyItem.uses s pa n)))

/-- CLASS_TRANSITION_CLEAR: step 3 of R237 for the page at a frame that is to have a class; format codes 6 and 7 are refused
(R297). While something has to be waited for nothing is cleared, and firmware makes the step again. -/
def execClassTransitionClear (frame : Nat) (large : Bool) (kind : PageKind) (tfmt : BitVec 3) (s : State) : Out :=
  let pa := frame * 2 ^ 16
  let lines := if large then 2 ^ 23 else 2 ^ 10
  .next (if kind.tol && kind.cls != 0 && decide (6 ≤ tfmt.toNat) then s
    else
      let s := withdrawWaits s pa (lines * 64)
      if pageBusy s pa (lines * 64) then s
      else transitionLines kind.cls kind.tol tfmt lines (pa / 64) (wakeMonitors s pa (lines * 64)))

/-- Keys of a table moved from a range to another of the same length; what the new range held is replaced. -/
def moveKeys {α : Type} (old new n : Nat) (m : Map α) : Map α :=
  let kept := m.filter (fun e => decide (e.1 < new) || decide (new + n ≤ e.1))
  (m.filter (fun e => decide (old ≤ e.1) && decide (e.1 < old + n))).foldl
    (fun k e => mapSet k (e.1 - old + new) e.2) kept

/-- Members of a rising list moved likewise. -/
def moveMembers (old new n : Nat) (l : List Nat) : List Nat :=
  let kept := l.filter (fun e => decide (e < new) || decide (new + n ≤ e))
  (l.filter (fun e => decide (old ≤ e) && decide (e < old + n))).foldl (fun k e => setIns k (e - old + new)) kept

/-- PAGE_RETIREMENT_MOVE: the 1,024 lines of a frame with data, side bits, full/empty bits and poison marks stand in the
replacement frame, which wakes the monitors there (R244), and the retired frame joins the bad-page list, which is signed again,
while the list has room (R306 steps 3 and 5). It is left out of the partitions' memory from the next boot on. As at a class
transition, waiting reservations on the frame are withdrawn first, and while one is held nothing moves and firmware makes the
step again (R237 step 1, R303). -/
def execPageRetirementMove (old new : Nat) (s : State) : Out :=
  let from_ := old * 2 ^ 16
  let to_ := new * 2 ^ 16
  let cells := (cellsIn s.mem from_ (2 ^ 16)).map (fun c : Nat × Byte => (c.1 - from_ + to_, c.2))
  let b := s.boot
  let b := if b.badList.length < 16384 then { b with badList := b.badList ++ [old], badListSigned := true }
    else { b with badListFull := true }
  let s := withdrawWaits s from_ (2 ^ 16)
  .next (if old = new || pageBusy s from_ (2 ^ 16) then s
    else
      let s := wakeMonitors (wakeMonitors s from_ (2 ^ 16)) to_ (2 ^ 16)
      { s with
        mem := putCells (clearRange s.mem to_ (2 ^ 16)) cells
        side := moveKeys (old * 2 ^ 10) (new * 2 ^ 10) (2 ^ 10) s.side
        poison := moveMembers (old * 2 ^ 10) (new * 2 ^ 10) (2 ^ 10) s.poison
        chk := moveKeys (old * 2 ^ 10) (new * 2 ^ 10) (2 ^ 10) s.chk
        full := moveMembers (old * 2 ^ 14) (new * 2 ^ 14) (2 ^ 14) s.full
        boot := b })

end Sys2Proof.Machine
end

