-- ==== Sys2Proof/Machine/Fabric.lean ====
section
/-!
DEFINITION. The gateway cores' words GQCLM and BADDQ (R353, R354), the steps of a collective (R351, R352), and what a fabric
port receives (R348–R350).
-/

namespace Sys2Proof.Machine

/-! ### GQCLM (R353) -/

/-- The word that a claim yields. -/
def claimWord (b : Nat) (mask : BitVec 16) (inc : Bool) : Nat := inc.toNat * 2 ^ 62 + mask.toNat * 2 ^ 32 + b

/-- The word of a claim that finds nothing left. -/
def claimNone : Nat := 2 ^ 63

/-- One entry popped: its word; after the last claim the port arrives on the barrier and the collective ends. -/
def popEntry (s : State) : Option (Nat × State) :=
  match s.coll with
  | none => none
  | some k => match k.queue with
    | [] => none
    | (b, m, inc) :: q =>
      let w := claimWord b m inc
      if k.claims + 1 = k.nblk then some (w, { (arrive s k.bar k.anyInc).2 with coll := none })
      else some (w, { s with coll := some { k with queue := q, claims := k.claims + 1 } })

/-- Whether any thread still waits for a result under a tag. -/
def isOwed (s : State) (tag : Nat) : Bool :=
  s.cores.any (fun e : Nat × Core => e.2.waitsFor tag) ||
    s.saved.any (fun g : SavedGang => g.slots.any (fun x : SavedSlot => x.slot.waitsFor tag))

/-- GQCLMs that wait, answered in order while entries are queued, or when no collective is bound any more. -/
def serveClaims : List (Nat × Nat × Nat) → State → State
  | [], s => { s with gqclms := [] }
  | (c, k, tag) :: gs, s =>
    if !isOwed s tag then serveClaims gs s
    else match popEntry s with
      | some (w, s) => serveClaims gs (answerOwed s tag (.scalar 0 (BitVec.ofNat 64 w)))
      | none =>
        if s.coll.isNone then serveClaims gs (answerOwed s tag (.scalar 0 (BitVec.ofNat 64 claimNone)))
        else { s with gqclms := (c, k, tag) :: gs }

/-- ACCESS outside a gateway core. -/
def gqclmCheck : Checks :=
  { noChecks with mid := fun s _ => if isGateway s.cur.1 then none else some (trapResource 0x500) }

/-- GQCLM: it issues at once, whatever the slot still waits for. -/
def execGqclm (x : DlR) (s : State) : Out :=
  issue x.stall { noOperands with d := .s x.d } gqclmCheck (fun s _ =>
    match popEntry s with
    | some (w, s') =>
      oweScalar (scAcquire (if s'.coll.isNone then serveClaims s'.gqclms s' else s') s.cur.1) w false
    | none =>
      if s.coll.isNone then oweScalar s claimNone false
      else
        let (tag, s) := owe s .waiting
        .done { s with gqclms := s.gqclms ++ [(s.cur.1, s.cur.2, tag)] } (.owed tag false) .seq false) s

/-! ### BADDQ (R354) -/

/-- The bytes of a block at an address, as lanes numbered from a base. -/
def blockLanes (base n : Nat) (a : W64) : List (Nat × W64) :=
  (List.range n).map (fun i => (base + i, a + BitVec.ofNat 64 i))

/-- BADDQ's checks. -/
def baddqCheck (fmt : Nat) : Checks :=
  { pre := fun s _ =>
      let n := narrowOf (s.me.fmtReg fmt)
      if n.scale != 1 || !(n.width == 2 || n.width == 4 || n.width == 8) then some trapIllegal else formatTrap s fmt
    mid := fun s x =>
      let n := blockSize (narrowOf (s.me.fmtReg fmt)).width
      let go (need : Need) (v : Got W64) : Option Trap := v.val?.bind (fun a =>
        if a.toNat % 4 != 0 then some (trapAlign a) else none) |>.or
          (v.val?.bind (fun a => lanesTrap s .glb need 1 (blockLanes 0 n a)))
      let align (v : Got W64) : Option Trap := v.val?.bind (fun a => if a.toNat % 4 != 0 then some (trapAlign a) else none)
      firstOf [align x.a, align x.b, align x.c, go needLoad x.b, go needLoad x.c, go needStore x.a] }

/-- Element i of a block, its scale applied. -/
def blockElem (n : Narrow) (topx : Bool) (bytes : Nat → Nat) (i : Nat) : Num :=
  let code := (bytes (n.width * i / 8) / 2 ^ (n.width * i % 8)) % 2 ^ n.width
  scaledRead n topx (bytes (4 * n.width)) code

/-- The block that holds the sum of two: 32 elements, the scale, three zero bytes. -/
def blockSum (n : Narrow) (topx : Bool) (bs cs : Nat → Nat) : List Byte :=
  let n := { n with sat := true }
  let sum (i : Nat) : Num := Num.add .rne (blockElem n topx bs i) (blockElem n topx cs i)
  let sc := scaleChoose n topx (blockMax (2 ^ 32 - 1) sum 0 32)
  toBytes (4 * n.width) (joinCells n.width ((List.range 32).map (fun i => scaledWrite n topx .rne sc (sum i)))) ++
    [BitVec.ofNat 8 sc, 0, 0, 0]

/-- BADDQ: B and C are read completely before A is written. -/
def execBaddq (x : BaddqR) (s : State) : Out :=
  issue x.stall { noOperands with a := .s x.a, b := .s x.b, c := .s x.c } (baddqCheck x.fmt.val) (fun s v =>
    let s := settle s
    let n := narrowOf (s.me.fmtReg x.fmt.val)
    let bb := blockSize n.width
    let rd := blockLanes 0 bb v.b ++ blockLanes 64 bb v.c
    let wr := blockLanes 0 bb v.a
    match lanesFault s .glb needLoad 1 rd, lanesFault s .glb needStore 1 wr with
    | some f, _ => .fail 1 f
    | none, some f => .fail 2 f
    | none, none => behindReds s .glb ((rd ++ wr).map (fun l => (l.2, 1))) <|
      let locs := lanesAt s .glb needStore 1 wr
      let (vals, bad, s) := lanesRead s .nrm 1 (lanesAt s .glb needLoad 1 rd)
      if bad then .poison s
      else
        let out := blockSum n s.me.topx (fun i => mapGet 0 vals i) (fun i => mapGet 0 vals (64 + i))
        .done (lanesWrite s .nrm 1 (fun i => (out.getD i 0).toNat) locs) .none .seq false) s

/-! ### The steps of a collective (R351, R352) -/

/-- COLLECTIVE_BIND: the ports of the collective that has been bound start to send. -/
def execCollectiveBind (s : State) : Out := .next ((List.range 16).foldl (fun s p => pumpPort p 64 s) s)

/-- A block that has come in on a port (R352). -/
def stageBlock (s : State) (port id block : Nat) (data : List Byte) : State :=
  match s.coll with
  | none => s
  | some k =>
    let m := k.mask block
    if id != k.id || !k.inPorts.getLsbD port || decide (k.nblk ≤ block) || m.getLsbD port || k.enq.contains block then s
    else
      let s := homeWrite s none true (k.stage + (16 * block + port) * k.bb) (fitBytes k.bb data)
      let k := { k with masks := mapSet k.masks block (m ||| 1#16 <<< port) }
      let s := { s with coll := some k }
      if k.mask block = k.inPorts then
        let s := enqueueBlock s k block false
        serveClaims s.gqclms s
      else s

/-- COLLECTIVE_BLOCK_ARRIVAL: nothing arrives on a port that is down (R349). -/
def execCollectiveBlockArrival (port id block : Nat) (data : List Byte) (s : State) : Out :=
  .next (if (s.port port).down then s else stageBlock s port id block data)

/-- COLLECTIVE_TIMEOUT: once the contributor timeout has elapsed since the binding, every block not yet enqueued is enqueued as
incomplete, in ascending index. -/
def execCollectiveTimeout (s : State) : Out :=
  .next (match s.coll with
    | none => s
    | some k =>
      if s.policy.collective = 0 ∨ s.clk.toNat < k.since + s.policy.collective then s
      else
      let s := enqueueAll true (List.range k.nblk) s
      serveClaims s.gqclms s)

/-! ### What a port receives (R348, R349) -/

/-- The blocks that the understory flits of a data flit carry, staged in turn. -/
def deliverSlots (port : Nat) : List (List Byte) → State → State
  | [], s => s
  | f :: fs, s => deliverSlots port fs (match Config.flitBlock f with
    | some (id, b, data) => stageBlock s port id b data
    | none => s)

/-- A port's flits sent as far as its buffer has room now. -/
def pump (s : State) (port : Nat) : State := pumpPort port 64 s

/-- DATA_FLIT: delivered and acknowledged, discarded, or answered by a replay request that names the expected number. -/
def execDataFlit (port : Nat) (bytes : List Byte) (s : State) : Out :=
  let x := s.port port
  .next (if x.down || !flitCrcOk bytes || flitKind bytes != .data then s
    else if flitSeq bytes != x.rxSeq then s.setPort port (x.sends (linkFlit x.rxSeq .replay x.ack []))
    else
      let x := { x.acked (flitAck bytes) with rxSeq := (x.rxSeq + 1) % 4096 }
      let s := s.setPort port (x.sends (linkFlit x.txSeq .idle x.ack []))
      pump (deliverSlots port (flitSlots bytes) s) port)

/-- IDLE_FLIT: acknowledged flits leave the replay buffer. -/
def execIdleFlit (port : Nat) (bytes : List Byte) (s : State) : Out :=
  let x := s.port port
  .next (if x.down || !flitCrcOk bytes || flitKind bytes != .idle then s
    else pump (s.setPort port (x.acked (flitAck bytes))) port)

/-- REPLAY_REQUEST: every unacknowledged flit from the named number on is sent again. -/
def execReplayRequest (port : Nat) (bytes : List Byte) (s : State) : Out :=
  let x := s.port port
  .next (if x.down || !flitCrcOk bytes || flitKind bytes != .replay then s
    else
      let x := { x.acked (flitAck bytes) with replays := min (x.replays + 1) 0xFFFF }
      pump (s.setPort port (x.replay (flitSeq bytes))) port)

/-- A port that goes down: what it had not got acknowledged, and what it had still to send, is lost. A port carries the blocks
of collectives alone, whose contributions then never arrive; no word sends a message through one (R349). -/
def Port.goDown (x : Port) : Port := { x with down := true, retrain := false, unacked := [], todo := [] }

/-- LANE_REPAIR: a retrain to seven lanes; a port that has only seven goes down. -/
def execLaneRepair (port : Nat) (s : State) : Out :=
  let x := s.port port
  .next (if x.down then s
    else if x.lanes = 8 then
      s.setPort port { x with lanes := 7, retrain := true, repairs := min (x.repairs + 1) 0xFFFF }
    else s.setPort port x.goDown)

/-- RETRAIN_COMPLETE: every unacknowledged flit is sent again in order, or the port goes down. -/
def execRetrainComplete (port : Nat) (ok : Bool) (s : State) : Out :=
  let x := s.port port
  .next (if !x.retrain then s
    else if ok then
      let x := { x with retrain := false }
      pump (s.setPort port (x.unacked.foldl (fun y e => y.sends e.2) x)) port
    else s.setPort port x.goDown)

end Sys2Proof.Machine
end

