-- ==== Sys2Proof/Machine/Placement.lean ====
section
/-!
DEFINITION. Launches (R246–R248), eligibility (R250), where a gang fits and its placement (R249, R251), the placement timeout
(R252), and retirement (R241).
-/

namespace Sys2Proof.Machine

/-! ### The launch record (R246–R248) -/

/-- A size rounded up to 4 KiB. -/
def roundPage (n : Nat) : Nat := (n + 4095) / 4096 * 4096

/-- The launch that a record describes, without what acceptance adds. -/
def launchOf (d : List Byte) (clk : Nat) : Launch :=
  let flags := fieldAt d 53 1
  let tiles := fieldAt d 40 4
  { entry := BitVec.ofNat 64 (fieldAt d 0 8), params := BitVec.ofNat 64 (fieldAt d 8 8),
    waiton := BitVec.ofNat 64 (fieldAt d 16 8), done := BitVec.ofNat 64 (fieldAt d 24 8), gangs := fieldAt d 32 4,
    w := fieldAt d 36 1, h := fieldAt d 37 1, t := fieldAt d 38 1, stage := fieldAt d 39 1 % 16,
    prio := fieldAt d 39 1 / 16 % 8, tiles := BitVec.ofNat 16 tiles, lanes := tiles.testBit 16, spd := fieldAt d 44 4,
    cls := fieldAt d 48 4, part := fieldAt d 52 1, layer := flags.testBit 0, resident := flags.testBit 1,
    debug := flags.testBit 2, spill := flags.testBit 3, asid := fieldAt d 54 2, wph := fieldAt d 56 4 % 2 ^ 31,
    spcore := fieldAt d 60 2, next := 0, err := false, since := clk }

/-- The limits of a record's fields (R246), the rules of a spill launch (R247), and that one core could hold the
reservation (R248). -/
def recordOk (s : State) (d : List Byte) : Bool :=
  let l := launchOf d 0
  l.waiton.toNat % 64 == 0 && l.done.toNat % 64 == 0 && decide (1 ≤ l.gangs) && decide (1 ≤ l.w) && decide (l.w ≤ 4) &&
    decide (1 ≤ l.h) && decide (l.h ≤ 4) && decide (1 ≤ l.t) && decide (l.t ≤ 16) && fieldAt d 39 1 / 128 == 0 &&
    fieldAt d 40 4 / 2 ^ 17 == 0 && decide (l.spd ≤ 262144) && decide (l.cls ≤ 262144) && decide (l.part ≤ 11) &&
    fieldAt d 53 1 / 16 == 0 && decide (l.asid ≤ 4095) && (mapFind s.asrec (l.part * 4096 + l.asid)).isSome &&
    fieldAt d 62 2 == 0 && l.spcore % 64 == 0 && (l.spill || l.spcore == 0) &&
    (!l.spill || (l.w == 1 && l.h == 1 && l.t == 1 && l.gangs == 1)) &&
    decide (roundPage l.spd + roundPage l.cls ≤ 262144)

/-- Launches with gangs still to place. -/
def queueLength (s : State) : Nat := (s.launches.filter (fun e => decide (e.2.next < e.2.gangs))).length

/-- LAUNCH's checks: only a service core may issue it. -/
def launchCheck : Checks :=
  { noChecks with
    mid := fun s x =>
      firstOf [(x.a.val?).bind (fun a => if a.toNat % 64 != 0 then some (trapAlign a) else none),
        if s.isSvc s.cur.1 then none else some (trapResource 0x400),
        (x.a.val?).bind (fun a => match readGlobal s s.cur.1 s.me.thread needLoad a 64 with
          | .error (.trap t) => some t
          | _ => none)] }

/-- A record accepted or refused: the result of LAUNCH and the state after it. -/
def acceptLaunch (s : State) (d : List Byte) : Nat × State :=
  if !recordOk s d then (2 ^ 63 + 2 ^ 56, s)
  else if 4096 ≤ queueLength s then (2 ^ 63 + 3 * 2 ^ 56, s)
  else
    (s.accepted % 2 ^ 16,
      postOnce { s with launches := mapSet s.launches s.accepted (launchOf d s.clk.toNat), accepted := s.accepted + 1 }
        .gangPlacement)

/-- LAUNCH. -/
def execLaunch (x : DlA) (s : State) : Out :=
  issue x.stall (formA x.a x.d) launchCheck (fun s v =>
    let s := settle s
    match readGlobal s s.cur.1 s.me.thread needLoad v.a 64 with
    | .error f => .fail 1 f
    | .ok (_, true) => .poison (noteGlobal s s.cur.1 s.me.thread v.a 64)
    | .ok (d, false) => behindReds s .glb [(v.a, 64)] <| afterReds s true
      (let (r, s) := acceptLaunch (scRelease s s.cur.1) d
       oweScalar s r false)) s

/-! ### Barriers of a launch (R241, R250) -/

/-- The physical address of a barrier that a launch names; none where its page is unmapped, lies outside the partition, or
is not an HC page of memory. -/
def launchBarrier (s : State) (l : Launch) (va : W64) : Option Nat :=
  if !canonical va then none
  else match walk s l.part l.asid (va.toNat % 2 ^ 55) with
    | .leaf large e =>
      let pa := leafAddr large e (va.toNat % 2 ^ 55)
      (match regionOf pa with
       | .hbm _ => if leafClass e = 0 then some pa else none
       | _ => none)
    | _ => none

/-- Whether the next gang of a launch may be placed. -/
inductive Eligible where
  | yes
  | wait
  /-- its unplaced gangs are dropped; the cause of a service message -/
  | drop (cause : Option String)
  deriving DecidableEq, Repr

/-- Whether every launch that a layer launch waits for has retired. -/
def layerReady (s : State) (n : Nat) (l : Launch) : Bool :=
  !l.layer || l.stage == 0 ||
    s.launches.all (fun e => decide (n ≤ e.1) || e.2.part != l.part || e.2.stage + 1 != l.stage)

/-- Eligibility of launch n (R250). -/
def eligible (s : State) (n : Nat) (l : Launch) : Eligible :=
  let bar : Eligible :=
    if l.waiton = 0 then .yes
    else match launchBarrier s l l.waiton with
      | none => .drop (some "BADWAIT")
      | some pa =>
        let st := readLe s.mem (pa + 8) 4
        if 2 ^ 31 ≤ st then .drop none else if st % 2 ^ 31 = l.wph then .wait else .yes
  match bar with
  | .yes => if layerReady s n l then .yes else .wait
  | e => e

/-! ### Where a gang fits (R249, R251) -/

/-- What a gang asks for. -/
structure Want where
  gang : GangId
  part : Nat
  w : Nat
  h : Nat
  t : Nat
  tiles : BitVec 16
  lanes : Bool
  spd : Nat
  cls : Nat
  /-- a spill launch's core (R247) -/
  spill : Option Nat
  deriving DecidableEq, Repr

/-- What the next gang of launch n asks for. -/
def Launch.want (n : Nat) (l : Launch) : Want :=
  { gang := (n, l.next), part := l.part, w := l.w, h := l.h, t := l.t, tiles := l.tiles, lanes := l.lanes, spd := roundPage l.spd,
    cls := roundPage l.cls, spill := if l.spill then some (l.spcore / 64) else none }

/-- Whether a slot belongs to one of a list of gangs. -/
def Slot.ofGangs (x : Slot) (gs : List GangId) : Bool := gs.contains (x.thread.launch, x.thread.gang)

/-- The slots of a core that are free, as if a list of gangs had left, in ascending order and without the first of them, which the
woken threads that wait on the core take (R204, R226). -/
def slotsLeft (s : State) (ign : List GangId) (c : Nat) : List Nat :=
  let x := s.core c
  ((List.range 16).filter (fun k =>
    ((s.slot c k).st == .empty || ((s.slot c k).occupied && (s.slot c k).ofGangs ign)) &&
      !x.reasm.any (fun r => r.slot == k && !ign.contains r.gang))).drop
    (x.waiting.filter (fun y => !y.ofGangs ign)).length

/-- The slots of a core that a placement may take, in ascending order, as if a list of gangs had left (R204, R224, R226,
R251). -/
def offeredSlots (s : State) (ign : List GangId) (spill : Bool) (c : Nat) : List Nat :=
  let x := s.core c
  let spilled := spillMode s c && !(s.slot c 15).ofGangs ign
  if x.isSealed || x.isHeld then []
  else (slotsLeft s ign c).filter (fun k =>
    (!spill || k == 15) && !(s.cluster (clusterOf c)).migpool.getLsbD k && !(k == 15 && spilled))

/-- The placed gangs that stay. -/
def stayingGangs (s : State) (ign : List GangId) : List Gang := s.gangs.filter (fun g => !ign.contains g.id)

/-- Scratchpad ranges taken on a core, as base and size. -/
def takenRanges (gs : List Gang) (c : Nat) : List (Nat × Nat) :=
  gs.flatMap (fun g =>
    (if g.covers c && g.spdSize != 0 then [(g.spdBase, g.spdSize)] else []) ++
      (if clusterOf c == g.cluster && g.clsSize != 0 then [(g.clsBase, g.clsSize)] else []))

/-- Whether a range is free among taken ones. -/
def rangeFree (rs : List (Nat × Nat)) (a n : Nat) : Bool :=
  n == 0 || (decide (a + n ≤ 262144) && rs.all (fun r => decide (a + n ≤ r.1) || decide (r.1 + r.2 ≤ a)))

/-- The lowest offset at which a range fits. -/
def lowestRange (rs : List (Nat × Nat)) (n : Nat) : Option Nat :=
  minOf ((0 :: rs.map (fun r => r.1 + r.2)).filter (fun a => rangeFree rs a n))

/-- The cores of a rectangle, row by row. -/
def rectCores (p row col w h : Nat) : List Nat :=
  (List.range h).flatMap (fun y => (List.range w).map (fun x => 16 * p + 4 * (row + y) + (col + x)))

/-- Whether a core offers the tiles and lane slices a gang asks for. -/
def tilesFree (gs : List Gang) (c : Nat) (q : Want) : Bool :=
  gs.all (fun g => !g.covers c || ((g.tiles &&& q.tiles) == 0 && !(g.lanes && q.lanes)))

/-- A place for a gang: cluster, row, column, scratchpad and cluster-memory bases. -/
structure Place where
  cluster : Nat
  row : Nat
  col : Nat
  spd : Nat
  cls : Nat
  deriving DecidableEq, Repr

/-- Whether every core of a rectangle offers slots, tiles and lane slices. -/
def rectOffers (s : State) (q : Want) (ign : List GangId) (cs : List Nat) : Bool :=
  let gs := stayingGangs s ign
  cs.all (fun c => decide (q.t ≤ (offeredSlots s ign q.spill.isSome c).length) && tilesFree gs c q)

/-- The bases at which a gang fits a rectangle. -/
def fitAt (s : State) (q : Want) (ign : List GangId) (p row col : Nat) : Option Place :=
  let cs := rectCores p row col q.w q.h
  let gs := stayingGangs s ign
  let target := match q.spill with
    | some c => cs == [c]
    | none => true
  if !target || !rectOffers s q ign cs then none
  else match lowestRange (cs.flatMap (takenRanges gs)) q.spd with
    | none => none
    | some a =>
      let all := ((List.range 16).flatMap (fun i => takenRanges gs (16 * p + i))) ++ (if q.spd = 0 then [] else [(a, q.spd)])
      match lowestRange all q.cls with
      | some b => some { cluster := p, row := row, col := col, spd := a, cls := b }
      | none => none

/-- North-west corners of a rectangle, by row and column. -/
def corners (w h : Nat) : List (Nat × Nat) :=
  (List.range (5 - h)).flatMap (fun r => (List.range (5 - w)).map (fun c => (r, c)))

/-- The first fit of a gang on a cluster. -/
def fitOn (s : State) (q : Want) (ign : List GangId) (p : Nat) : Option Place :=
  (corners q.w q.h).findSome? (fun e => fitAt s q ign p e.1 e.2)

/-- Whether a cluster takes placements of a gang (R252, R257). -/
def clusterOpen (s : State) (q : Want) (p : Nat) : Bool :=
  s.ownsCluster q.part p && !(s.cluster p).clearing &&
    (match (s.cluster p).reserving with
     | some g => g == q.gang
     | none => true)

/-- Insertion of a cluster by its congestion level. -/
def levelInsert (s : State) (p : Nat) : List Nat → List Nat
  | [] => [p]
  | q :: qs => if netload s (16 * q) % 256 < netload s (16 * p) % 256 then q :: levelInsert s p qs else p :: q :: qs

/-- The clusters in the order in which the scheduler looks at them: by `sys.netload` level, then by number. -/
def clusterOrder (s : State) (q : Want) : List Nat :=
  ((List.range 64).filter (clusterOpen s q)).foldr (levelInsert s) []

/-- The place of a gang (R251). -/
def findPlace (s : State) (q : Want) (ign : List GangId) : Option Place :=
  (clusterOrder s q).findSome? (fitOn s q ign)

/-! ### Placement (R249, R251) -/

/-- The thread at slot j of column x and row y of a gang. -/
def threadAt (n : Nat) (l : Launch) (gang x y j : Nat) : Thread :=
  { launch := n, gang := gang, j := j, x := x, y := y, index := (y * l.w + x) * l.t + j, prio := l.prio, stage := l.stage,
    part := l.part, asid := l.asid, debug := l.debug, spill := l.spill, rect := true }

/-- A thread's slot at its start (R249). -/
def startSlot (l : Launch) (t : Thread) (spd cls : Nat) : Slot :=
  let regs : List (Nat × W64) := [(0, l.params), (1, if l.spd = 0 then 0 else BitVec.ofNat 64 spd),
    (2, if l.cls = 0 then 0 else BitVec.ofNat 64 cls)]
  { Slot.reset with
    st := .running, thread := t, hdr := l.entry, idx := 1, entering := true
    n := regs.map (fun r => (r.1, { val := r.2, st := .now })) }

/-- The threads of one core started on its first free slots. -/
def startThreads (n : Nat) (l : Launch) (gang x y c : Nat) (pl : Place) : List (Nat × Nat) → State → State
  | [], s => s
  | (j, k) :: js, s =>
    startThreads n l gang x y c pl js (s.setSlot c k (startSlot l (threadAt n l gang x y j) pl.spd pl.cls))

/-- The tiles of a mask in a tile file, zeroed. -/
def clearTiles (m : Words) (mask : BitVec 16) : Words := m.filter (fun e => !mask.getLsbD (e.1 / 4096))

/-- The errors of a core outside a scratchpad range, a set of tiles and, where named, the lane slices (R163). -/
def Core.freshFlaws (x : Core) (spd spdSize : Nat) (tiles : BitVec 16) (lanes : Bool) : List (CoreArray × Nat) :=
  (x.mended .spd spd spdSize).filter (fun f => match f.1 with
    | .spd => true
    | .tile => !tiles.getLsbD (f.2 / 2048)
    | .slice => !lanes)

/-- What a gang reserves on a core, written to zero. -/
def zeroCore (s : State) (c spd spdSize : Nat) (tiles : BitVec 16) (lanes : Bool) : State :=
  let x := s.core c
  s.setCore c { x with
    spd := clearRange x.spd spd spdSize, tiles := clearTiles x.tiles tiles, lanes := if lanes then [] else x.lanes
    flaws := x.freshFlaws spd spdSize tiles lanes }

/-- The cluster-memory reservation of the cores of a cluster, written to zero. -/
def zeroCluster (p a n : Nat) : List Nat → State → State
  | [], s => s
  | i :: is, s =>
    let c := 16 * p + i
    let x := s.core c
    zeroCluster p a n is (if n = 0 then s else s.setCore c { x with
      spd := clearRange x.spd a n, flaws := x.mended .spd a n })

/-- The cores of a rectangle with their column and row. -/
def rectPlaces (pl : Place) (w h : Nat) : List (Nat × Nat × Nat) :=
  (List.range h).flatMap (fun y => (List.range w).map (fun x => (16 * pl.cluster + 4 * (pl.row + y) + (pl.col + x), x, y)))

/-- The cores of a gang's rectangle set up and its threads started. -/
def startCores (n : Nat) (l : Launch) (gang : Nat) (pl : Place) : List (Nat × Nat × Nat) → State → State
  | [], s => s
  | (c, x, y) :: cs, s =>
    let s := zeroCore s c pl.spd (roundPage l.spd) l.tiles l.lanes
    let ks := (offeredSlots s [] l.spill c).take l.t
    let s := startThreads n l gang x y c pl ((List.range l.t).zip ks) (scAcquire s c)
    startCores n l gang pl cs s

/-- The next gang of launch n placed (R249): its placement is an acquire at .pk. -/
def placeGang (s : State) (n : Nat) (l : Launch) (pl : Place) : State :=
  let g : Gang :=
    { id := (n, l.next), cluster := pl.cluster, row := pl.row, col := pl.col, w := l.w, h := l.h, t := l.t, tiles := l.tiles,
      lanes := l.lanes, spdBase := pl.spd, spdSize := roundPage l.spd, clsBase := pl.cls, clsSize := roundPage l.cls,
      part := l.part, prio := l.prio, resident := l.resident, order := s.placed, live := l.w * l.h * l.t,
      since := s.clk.toNat }
  let s := zeroCluster pl.cluster pl.cls (roundPage l.cls) (List.range 16) s
  let s := startCores n l l.next pl (rectPlaces pl l.w l.h) s
  let s := { s with
    gangs := s.gangs ++ [g], placed := s.placed + 1
    launches := mapSet s.launches n { l with next := l.next + 1, since := s.clk.toNat }
    clusters := s.clusters.map (fun e : Nat × Cluster =>
      (e.1, if e.2.reserving = some g.id then { e.2 with reserving := none } else e.2)) }
  s.post [.gangPlacement]

/-- The unplaced gangs of launch n dropped: it retires with err once its placed gangs have ended (R250, R252). -/
def dropLaunch (s : State) (n : Nat) (l : Launch) (cause : Option String) : State :=
  let s := { s with
    launches := mapSet s.launches n { l with next := l.gangs, err := true }
    clusters := s.clusters.map (fun e : Nat × Cluster =>
      (e.1, if e.2.reserving = some (n, l.next) then { e.2 with reserving := none } else e.2)) }
  let s := match cause with
    | some c => sendSvc s (defaultReceiver s 0) (.launch (n % 2 ^ 16) c)
    | none => s
  postOnce (postOnce s (.launchRetirement n)) .gangPlacement

/-! ### Pre-emption for a placement (R251) -/

/-- Whether a gang is pre-empted before another: the lower priority, then the one placed later. -/
def Gang.before (a b : Gang) : Bool := decide (a.prio < b.prio) || (a.prio == b.prio && decide (b.order < a.order))

/-- Insertion in that order. -/
def victimInsert (g : Gang) : List Gang → List Gang
  | [] => [g]
  | b :: bs => if b.before g then b :: victimInsert g bs else g :: b :: bs

/-- The gangs that a gang of a priority may cause to be pre-empted, in order. -/
def victims (s : State) (part prio : Nat) : List Gang :=
  (s.gangs.filter (fun g => !g.resident && decide (g.prio < prio) && g.part == part)).foldr victimInsert []

/-- The shortest list of victims without which a gang fits, by a test. -/
def victimsFor (fits : List GangId → Bool) : List GangId → List Gang → Option (List GangId)
  | _, [] => none
  | ign, g :: gs =>
    let ign := ign ++ [g.id]
    if fits ign then some ign else victimsFor fits ign gs

/-- Pre-emption begun of the victims that a gang needs; none where there are none, or where all are being pre-empted
already: such a gang holds back nothing (R250). -/
def claimVictims (s : State) (fits : List GangId → Bool) (part prio : Nat) : Option State :=
  match victimsFor fits [] (victims s part prio) with
  | none => none
  | some ids =>
    if ids.all (fun i => s.agenda.contains (.preemption i.1 i.2)) then none
    else some (postOnce (ids.foldl (fun s i => postOnce s (.preemption i.1 i.2)) s) .gangPlacement)

/-! ### The scheduler's next action (R250, R251) -/

/-- What a saved gang asks for (R256). -/
def SavedGang.want (g : SavedGang) : Want :=
  { gang := g.gang.id, part := g.gang.part, w := g.gang.w, h := g.gang.h, t := g.gang.t, tiles := g.gang.tiles,
    lanes := g.gang.lanes, spd := g.gang.spdSize, cls := g.gang.clsSize, spill := none }

/-- Whether the operand slots and buffers that a saved core held are free on a core, as if a list of gangs had left
(R256). -/
def bindingsFree (ign : List GangId) (x : Core) (y : SavedCore) : Bool :=
  let free (o : Option GangId) : Bool := match o with
    | none => true
    | some g => ign.contains g
  y.opslots.all (fun e => free (mapGet OpSlot.reset x.opslots e.1).owner) &&
    y.cbufs.all (fun e => free (mapGet CBuf.reset x.cbufs e.1).owner)

/-- Free pool slots of a cluster that a restored migrated thread may take, as if a list of gangs had left. -/
def poolSlots (s : State) (ign : List GangId) (p : Nat) : List (Nat × Nat) :=
  (List.range 16).flatMap (fun i =>
    let c := 16 * p + i
    let x := s.core c
    if x.isSealed || x.isHeld then []
    else ((slotsLeft s ign c).filter (fun k => (s.cluster p).migpool.getLsbD k)).map (fun k => (c, k)))

/-- Threads of a saved gang that stood outside its rectangle on a cluster. -/
def SavedGang.outside (g : SavedGang) (p : Nat) : Nat := (g.slots.filter (fun x => x.place.isNone && x.cluster == p)).length

/-- Whether those threads find pool slots on their clusters, as if a list of gangs had left. -/
def poolFits (s : State) (ign : List GangId) (g : SavedGang) : Bool :=
  (List.range 64).all (fun p => decide (g.outside p ≤ (poolSlots s ign p).length))

/-- Whether one of those clusters is clearing: it takes no threads (R257). -/
def poolClears (s : State) (g : SavedGang) : Bool :=
  (List.range 64).any (fun p => g.outside p != 0 && (s.cluster p).clearing)

/-- The core to which the saved gang of a spill launch returns (R247). -/
def spillCore (s : State) (g : SavedGang) : Option Nat :=
  match mapFind s.launches g.gang.id.1 with
  | some l => if l.spill then some (l.spcore / 64) else none
  | none => none

/-- Whether the copy queues of a cluster have room for the operations and markers withdrawn with a gang (R193): they are enqueued
again before any of its threads issues (R256). -/
def copyRoom (s : State) (g : SavedGang) (p : Nat) : Bool :=
  (List.range 4).all (fun q => decide ((putBack (savedItems q g.copies) ((s.cluster p).queue q).items).length ≤ 64))

/-- The rectangle at which a saved gang can be restored (R256), as if a list of gangs had left: its offsets are fixed. -/
def restoreAt (s : State) (g : SavedGang) (ign : List GangId) (p row col : Nat) : Option Place :=
  let q := { g.want with spill := spillCore s g }
  let cs := rectCores p row col q.w q.h
  let gs := stayingGangs s ign
  if rectOffers s q ign cs && (q.spill.isNone || q.spill == cs.head?) &&
      cs.all (fun c => rangeFree (takenRanges gs c) g.gang.spdBase g.gang.spdSize) &&
      (List.range 16).all (fun i => rangeFree (takenRanges gs (16 * p + i)) g.gang.clsBase g.gang.clsSize) &&
      (cs.zip g.cores).all (fun e => bindingsFree ign (s.core e.1) e.2) then
    some { cluster := p, row := row, col := col, spd := g.gang.spdBase, cls := g.gang.clsBase }
  else none

/-- The place of a saved gang on a cluster. -/
def restoreOn (s : State) (g : SavedGang) (ign : List GangId) (p : Nat) : Option Place :=
  (corners g.gang.w g.gang.h).findSome? (fun e => restoreAt s g ign p e.1 e.2)

/-- The place of a saved gang, on a cluster whose copy queues have room for what was withdrawn with it. -/
def findRestore (s : State) (g : SavedGang) (ign : List GangId) : Option Place :=
  if !poolFits s ign g || poolClears s g then none
  else (clusterOrder s g.want).findSome? (fun p => if copyRoom s g p then restoreOn s g ign p else none)

/-- The scheduler's action for a launch: placed, dropped, pre-emption begun, or none. -/
def tryLaunch (s : State) (n : Nat) (l : Launch) : Option State :=
  if l.gangs ≤ l.next then none
  else match eligible s n l with
    | .wait => none
    | .drop cause => some (dropLaunch s n l cause)
    | .yes => match findPlace s (l.want n) [] with
      | some pl => some (placeGang s n l pl)
      | none => claimVictims s (fun ign => (findPlace s (l.want n) ign).isSome) l.part l.prio

/-- The scheduler's action for a saved gang: its restore, pre-emption begun, or none. -/
def trySaved (s : State) (g : SavedGang) : Option State :=
  if (findRestore s g []).isSome then
    some (postOnce (s.post [.gangRestore g.gang.id.1 g.gang.id.2]) .gangPlacement)
  else claimVictims s (fun ign => (findRestore s g ign).isSome) g.gang.part g.gang.prio

/-- The action for the gangs and launches of one priority: saved gangs stand at the head of its queue. -/
def tryPriority (s : State) (prio : Nat) : Option State :=
  match (s.saved.filter (fun g => g.gang.prio == prio)).findSome? (trySaved s) with
  | some s' => some s'
  | none => (s.launches.filter (fun e => e.2.prio == prio)).findSome? (fun e => tryLaunch s e.1 e.2)

/-- Whether a saved gang's restore has been decided and is still to be made. -/
def restorePends (s : State) : Bool := s.saved.any (fun g => s.agenda.contains (.gangRestore g.gang.id.1 g.gang.id.2))

/-- GANG_PLACEMENT: the first action that the queues allow, priority 7 first. While a restore is still to be made, which stands
before what comes after it in the order of priorities, nothing else is placed (R250, R256). -/
def execGangPlacement (s : State) : Out :=
  .next (if restorePends s then postOnce s .gangPlacement else ([7, 6, 5, 4, 3, 2, 1, 0].findSome? (tryPriority s)).getD s)

/-! ### The placement timeout (R252) -/

/-- The gangs of a cluster that are not resident. -/
def looseGangs (s : State) (p : Nat) : List GangId :=
  (s.gangs.filter (fun g => g.cluster == p && !g.resident)).map (fun g => g.id)

/-- The gangs of the package that are not resident. -/
def allLoose (s : State) : List GangId := (s.gangs.filter (fun g => !g.resident)).map (fun g => g.id)

/-- Whether a cluster is kept for a gang. -/
def keptFor (s : State) (g : GangId) : Bool := s.clusters.any (fun e : Nat × Cluster => e.2.reserving == some g)

/-- A gang that has waited longer than the timeout (R252): the lowest cluster of its partition that passes a test, and is not
kept for another gang, is marked; where only clusters kept for others pass, it waits on (DESIGN CHOICE, log 26); where none
passes, it is given up. -/
def reserveFor (s : State) (g : GangId) (part : Nat) (fits : Nat → Bool) (giveUp : State) : State :=
  let ps := (List.range 64).filter (fun p => s.ownsCluster part p && fits p)
  if keptFor s g then s
  else match ps.find? (fun p => (s.cluster p).reserving.isNone) with
    | some p => s.setCluster p { s.cluster p with reserving := some g }
    | none => if ps.isEmpty then giveUp else s

/-- Whether something has waited longer than the placement timeout (R252). -/
def waitedOut (s : State) (since : Nat) : Bool :=
  s.policy.placement != 0 && decide (since + s.policy.placement < s.clk.toNat)

/-- The timeout of a launch's next gang: its launch fails UNPLACEABLE where nothing could make it fit. -/
def launchTimeout (s : State) (n : Nat) (l : Launch) : State :=
  if l.gangs ≤ l.next || eligible s n l != .yes || !waitedOut s l.since then s
  else reserveFor s (n, l.next) l.part (fun p => (fitOn s (l.want n) (looseGangs s p) p).isSome)
    (dropLaunch s n l (some "UNPLACEABLE"))

/-- The timeout of a saved gang. Where nothing could make it fit, its launch fails likewise: the gang ends, and the unplaced
ones are dropped. For its threads that stood outside its rectangle the pools count as they would be without the gangs that are not
resident (DESIGN CHOICE, log 26). -/
def savedTimeout (s : State) (g : SavedGang) : State :=
  if !waitedOut s g.since then s
  else
    let n := g.gang.id.1
    reserveFor s g.gang.id g.gang.part (fun p => poolFits s (allLoose s) g && (restoreOn s g (looseGangs s p) p).isSome)
      (let s := endGang s g.gang.id
       match mapFind s.launches n with
       | some l => dropLaunch s n l (some "UNPLACEABLE")
       | none => s)

/-- PLACEMENT_TIMEOUT: the saved gangs of a launch, which stand before it in its queue, and its next gang. -/
def execPlacementTimeout (launch : Nat) (s : State) : Out :=
  .next (match (s.saved.filter (fun g => g.gang.id.1 == launch)).foldl savedTimeout s with
    | s => match mapFind s.launches launch with
      | none => s
      | some l => launchTimeout s launch l)

/-! ### Retirement (R241) -/

/-- Whether a copy-queue item was issued for a launch. -/
def CopyItem.ofLaunch (n : Nat) : CopyItem → Bool
  | .op _ _ _ _ _ _ t _ _ _ => t.launch == n
  | .marker _ _ => false

/-- Whether a root-logic item was. -/
def RootItem.ofLaunch (n : Nat) : RootItem → Bool
  | .rdx _ _ _ _ _ _ t => t.launch == n
  | .rqz _ _ _ t => t.launch == n
  | .marker _ => false

/-- Whether threads or work of a launch are left. -/
def launchBusy (s : State) (n : Nat) : Bool :=
  s.gangs.any (fun g => g.id.1 == n) || s.saved.any (fun g => g.gang.id.1 == n) ||
    s.saved.any (fun g => g.copies.any (fun e => CopyItem.ofLaunch n e.2)) || s.reds.any (fun r => r.thr.launch == n) ||
    s.clusters.any (fun e : Nat × Cluster => e.2.queues.any (fun q : Nat × CopyQueue => q.2.items.any (CopyItem.ofLaunch n))) ||
    s.cores.any (fun e : Nat × Core => e.2.rdq.any (RootItem.ofLaunch n) || e.2.rqq.any (RootItem.ofLaunch n))

/-- LAUNCH_RETIREMENT: the gangs whose last thread has left end, and the launch, where nothing of it is left, arrives on its
completion barrier, or firmware learns that it cannot. Its stores to SC pages have been written back as each of its threads left
its core. -/
def execLaunchRetirement (launch : Nat) (s : State) : Out :=
  let s := endSpent s launch
  .next (match mapFind s.launches launch with
    | none => s
    | some l =>
      if l.next < l.gangs || launchBusy s launch then s
      else
        let s := { s with launches := mapErase s.launches launch }
        let s := if l.done = 0 then s
          else match launchBarrier s l l.done with
            | some pa => (arrive s pa l.err).2
            | none => sendSvc s (defaultReceiver s 0) (.launch (launch % 2 ^ 16) "NOBARRIER")
        postOnce s .gangPlacement)

end Sys2Proof.Machine
end

