-- ==== Sys2Proof/Machine/Preempt.lean ====
section
/-!
DEFINITION. Pre-emption of a gang (R253, R254), its restore (R256), and the clearing (R257).
-/

namespace Sys2Proof.Machine

/-! ### What the save waits for (R254) -/

/-- Contexts of a gang on a core, sealed ones included. -/
def Core.gangCount (x : Core) (id : GangId) : Nat :=
  (x.slots.filter (fun k : Nat × Slot => k.2.st != .empty && k.2.thread.ofGang id)).length +
    (x.waiting.filter (fun y : Slot => y.thread.ofGang id)).length +
    (x.spilled.filter (fun y : Nat × Nat × Slot => y.2.2.thread.ofGang id)).length

/-- Whether a part of a context is on its way to a slot of a core. -/
def chunkOnWay (s : State) (c k : Nat) : Bool :=
  let here (f : Flit) : Bool := f.dcore == c && (match f.payload with
    | .chunk j _ => j == k
    | _ => false)
  s.flits.any here || s.cores.any (fun e : Nat × Core => e.2.inject.any here)

/-- Whether a context for a reassembly slot of a core has been sent, and has not taken its slot yet. -/
def contextSent (s : State) (c : Nat) (q : Reasm) : Bool := q.nfl != 0 || chunkOnWay s c q.slot

/-- Whether a thread of a gang is under way between two slots: a reassembly slot for it is to be completed (R225, R254). -/
def gangInFlight (s : State) (g : Gang) : Bool :=
  s.cores.any (fun e : Nat × Core => e.2.reasm.any (fun q => q.gang == g.id && contextSent s e.1 q))

/-- Whether one of its words is being retried, one of its claims has not been answered, or a sector is in flight (R104, R135,
R158). -/
def slotsHold (s : State) (id : GangId) : Bool :=
  (gangPlaces s id).any (fun e =>
    let x := s.slot e.1 e.2
    x.retry || x.fetcher.claiming || !x.record.inflight.isEmpty)

/-- Whether an operation that has begun still targets what a gang holds. -/
def copiesHold (s : State) (g : Gang) : Bool :=
  (s.cluster g.cluster).queues.any (fun e : Nat × CopyQueue => e.2.begun && (e.2.items.take 1).any (itemTouches s g.id))

/-- Whether an operation that has begun still fills a buffer of a gang: only the gang's own threads can free the slots that it
waits for, so that the save does not begin until it has arrived (DESIGN CHOICE, log 26). -/
def copiesFill (s : State) (g : Gang) : Bool :=
  (s.cluster g.cluster).queues.any (fun e : Nat × CopyQueue => e.2.begun && (e.2.items.take 1).any (itemFills s g.id))

/-! ### The save (R254, R255) -/

/-- The stall count of a word. -/
def wordStall (w : W64) : Nat := w.toNat / 2 ^ 53 % 8

/-- Whether the last word that a slot has issued is the FENCE that it still waits for. -/
def Slot.fenceLast (x : Slot) : Bool :=
  x.fence.isSome && x.st != .faulted && x.idx == x.lastIdx + 1 && (match x.block[x.lastIdx]? with
    | some w => match decodeWord w.toNat with
      | .ok (.fence _) => true
      | _ => false
    | none => false)

/-- A slot whose waiting FENCE is to issue again, where it is the last word that has issued: it is parked on it (R274). Where others
have issued since, the FENCE goes on to wait with the saved thread (DESIGN CHOICE, log 38). -/
def Slot.refence (x : Slot) : Slot :=
  if x.fenceLast then { x with st := .parked .result, stall := 0, idx := x.lastIdx, fence := none } else x

/-- A context as it is saved: owed results delivered (R254), fixed-latency results ready (R84), prefetched elements discarded
(R171); a parked word is unissued (R87), a waiting FENCE, an MWAIT with its monitor, and a word on its entry read among them (R244, R255,
R274, R326). -/
def Slot.saved (x : Slot) : Slot :=
  let x := x.receiveAll.ripe.refence
  { x with
    lent := false, retry := false, suspect := false, held := none, asked := false, granted := none, block := []
    entryRead := none, sleepLeft := if x.st = .parked .reservation then none else x.sleepLeft
    monitor := if x.st = .faulted then Monitor.reset else x.monitor
    streams := x.streams.map (fun e : Nat × Stream => (e.1, { e.2 with buf := [] }))
    record := { x.record with inflight := [], retried := [], data := [] }, fetcher := { x.fetcher with failed := false } }

/-- A saved context as it is restored: its monitor has been lost, so that a waiting MWAIT now issues (R244, R256). -/
def Slot.rearmed (x : Slot) : Slot := { x with monitor := { x.monitor with woken := x.monitor.armed } }

/-- Row and column of a thread in its gang's rectangle. -/
def threadPlace (t : Thread) : Option (Nat × Nat) := if t.rect then some (t.y, t.x) else none

/-- The contexts of a gang on a core that is not lost with a seal: on slots, woken and waiting, and spilled. -/
def savedOn (id : GangId) (c : Nat) (x : Core) : List SavedSlot :=
  let mk (y : Slot) : SavedSlot := { place := threadPlace y.thread, cluster := clusterOf c, slot := y.saved }
  ((x.slots.filter (fun k : Nat × Slot => k.2.occupied && k.2.thread.ofGang id)).map (fun k : Nat × Slot => mk k.2)) ++
    (x.waiting.filter (fun y : Slot => y.st != .sealed && y.thread.ofGang id)).map (fun y : Slot =>
      mk { y with st := .running, faultedBy := none }) ++
    ((x.spilled.filter (fun y : Nat × Nat × Slot => y.2.2.thread.ofGang id)).map (fun y : Nat × Nat × Slot => mk y.2.2))

/-- What the gang holds on a core of its rectangle. -/
def savedCore (g : Gang) (x : Core) : SavedCore :=
  { tiles := x.tiles.filter (fun e => g.tiles.getLsbD (e.1 / 4096)), spd := cellsIn x.spd g.spdBase g.spdSize,
    lanes := if g.lanes then x.lanes else [],
    opslots := (x.opslots.filter (fun e : Nat × OpSlot => e.2.owner == some g.id)).map (fun e : Nat × OpSlot =>
      (e.1, { e.2 with seen := [] })),
    cbufs := (x.cbufs.filter (fun e : Nat × CBuf => e.2.owner == some g.id)).map (fun e : Nat × CBuf =>
      (e.1, { e.2 with waiters := [] })),
    links := x.links.filter (fun f : LinkFifo => f.gang == g.id),
    flaws := x.flawsIn .spd g.spdBase g.spdSize ++ x.flaws.filter (fun f => match f.1 with
      | .spd => false
      | .tile => g.tiles.getLsbD (f.2 / 2048)
      | .slice => g.lanes) }

/-- The inbox entries of a gang's slots on a core, each with the index of its thread. -/
def savedInbox (id : GangId) (x : Core) : List InboxEntry :=
  x.inbox.filterMap (fun e : InboxEntry =>
    let y := mapGet Slot.reset x.slots e.slot
    if y.occupied && y.thread.ofGang id then some { e with slot := y.thread.index } else none)

/-- Items of a queue that leave it with a gang, and those that stay: the operations that touch what the gang holds (R254). A marker
of the gang stays, for the operations that are left on either side of it, and where one that leaves stands ahead of it or behind
it, it goes with the gang too (R275). `left`: one has left already. A marker of another gang's QFENCE waits for no operation
withdrawn from ahead of it (DESIGN CHOICE, log 38). -/
def withdrawItems (s : State) (id : GangId) : Bool → List CopyItem → List CopyItem × List CopyItem
  | _, [] => ([], [])
  | left, i :: is =>
    let goes := itemTouches s id i
    let (out, stay) := withdrawItems s id (left || goes) is
    match i with
    | .marker _ by_ =>
      (if by_ == id && (left || !out.isEmpty) then i :: out else out, i :: stay)
    | _ => if goes then (i :: out, stay) else (out, i :: stay)

/-- What of a queue that has not begun leaves it with a gang, in order, and the queue without it. -/
def withdraw (s : State) (id : GangId) (q : Nat) (y : CopyQueue) : List (Nat × CopyItem) × CopyQueue :=
  let n := if y.begun then 1 else 0
  let (out, stay) := withdrawItems s id false (y.items.drop n)
  (out.map (fun i => (q, i)), { y with items := y.items.take n ++ stay })

/-- The withdrawn operations of a cluster. -/
def withdrawAll (s : State) (g : Gang) : List (Nat × CopyItem) × State :=
  let x := s.cluster g.cluster
  let qs := x.queues.map (fun e : Nat × CopyQueue => (e.1, withdraw s g.id e.1 e.2))
  (qs.flatMap (fun e => e.2.1), s.setCluster g.cluster { x with queues := qs.map (fun e => (e.1, e.2.2)) })

/-- SC lines of cores written back. -/
def releaseCores (s : State) (cs : List Nat) : State := cs.foldl scRelease s

/-- A gang as it is saved, with the operations withdrawn for it (R254, R255). A buffer in cluster memory, or the binding of an operand
slot, that a thread of it has made on a core outside its rectangle, after migrating there, has no place in the save area: it is freed
with the gang's slots and not restored (DESIGN CHOICE, log 26). -/
def savedOf (s : State) (g : Gang) (copies : List (Nat × CopyItem)) : SavedGang :=
  { gang := { g with stopping := false }, slots := s.cores.flatMap (fun e : Nat × Core => savedOn g.id e.1 e.2),
    cores := (rectCores g.cluster g.row g.col g.w g.h).map (fun c => savedCore g (s.core c)),
    cls := (List.range 16).map (fun i => cellsIn (s.core (16 * g.cluster + i)).spd g.clsBase g.clsSize),
    clsFlaws := (List.range 16).map (fun i => (s.core (16 * g.cluster + i)).flawsIn .spd g.clsBase g.clsSize),
    inbox := s.cores.flatMap (fun e : Nat × Core => savedInbox g.id e.2), copies := copies, wakes := [], since := s.clk.toNat }

/-- A gang saved, its save area written and its slots and reservations freed; it stands at the head of its priority's queue
(R256). -/
def saveGang (s : State) (g : Gang) : State :=
  let places := gangPlaces s g.id
  let s := dropGrants (releaseCores s (places.map (·.1)).eraseDups) places
  let (copies, s) := withdrawAll s g
  let saved := savedOf s g copies
  let tids := saved.slots.map (fun y => BitVec.ofNat 64 (threadId y.slot.thread))
  let s := resDrop (writeSave s saved) (fun e => e.held.isNone && tids.contains e.tid)
  let s := freeGangOn s g.id s.coreKeys
  removeGang { s with saved := saved :: s.saved } g.id

/-- The slots of a gang stopped (R254, step 1). -/
def stopGang (s : State) (id : GangId) : State :=
  { s with gangs := s.gangs.map (fun g => if g.id == id then { g with stopping := true } else g) }

/-- PREEMPTION (R254): issue stops on the gang's slots, and the save is made once nothing has to be waited for. A gang whose last
thread has ended leaves nothing to save. -/
def execPreemption (launch gang : Nat) (s : State) : Out :=
  .next (match s.gangs.find? (fun g => g.id == (launch, gang)) with
    | none => s
    | some g =>
      let again (s : State) : State := s.post [.preemption launch gang]
      if g.live == 0 then removeGang s g.id
      else if !g.stopping then again (if copiesFill s g then s else stopGang s g.id)
      else if gangInFlight s g || slotsHold s g.id || copiesHold s g then again s
      else saveGang s g)

/-- Whether a gang or launch of a priority waits for a place. -/
def someoneWaits (s : State) (prio : Nat) : Bool :=
  s.saved.any (fun g => g.gang.prio == prio) ||
    s.launches.any (fun e : Nat × Launch => e.2.prio == prio && decide (e.2.next < e.2.gangs) &&
      eligible s e.1 e.2 == .yes)

/-- QUANTUM_EXPIRY (R253): a non-resident gang is pre-empted for one of equal priority, the one placed first first. -/
def execQuantumExpiry (launch gang : Nat) (s : State) : Out :=
  .next (match s.gangs.find? (fun g => g.id == (launch, gang)) with
    | none => s
    | some g =>
      let first := s.gangs.all (fun h => h.resident || h.prio != g.prio || decide (g.order ≤ h.order))
      if g.resident || !first || !someoneWaits s g.prio then s else postOnce s (.preemption launch gang))

/-! ### The restore (R256) -/

/-- The slot that a saved context takes: the first free one of its core, or of the pool of its cluster. -/
def restoreSlot (s : State) (pl : Place) (y : SavedSlot) : Option (Nat × Nat) :=
  match y.place with
  | some (row, col) =>
    let c := 16 * pl.cluster + 4 * (pl.row + row) + (pl.col + col)
    ((offeredSlots s [] y.slot.thread.spill c).head?).map (fun k => (c, k))
  | none => (poolSlots s [] y.cluster).head?

/-- An entry put back into the inbox of a core (R224). -/
def restoreEntry (c : Nat) (s : State) (e : InboxEntry) : State :=
  let x := s.core c
  spillHigh (s.setCore c { x with inbox := x.inbox ++ [e] }) c

/-- Saved contexts placed in turn, with the inbox entries of each; an empty message register takes the oldest for it (R220). -/
def restoreSlots (pl : Place) (inbox : List InboxEntry) : List SavedSlot → State → State
  | [], s => s
  | y :: ys, s => match restoreSlot s pl y with
    | none => restoreSlots pl inbox ys s
    | some (c, k) =>
      let mine := (inbox.filter (fun e => e.slot == y.slot.thread.index)).map (fun e => { e with slot := k })
      restoreSlots pl inbox ys (refillMsgs (mine.foldl (restoreEntry c) (startContext s c k y.slot.rearmed)) c k)

/-- What a gang held on a core put back; the operand cache holds nothing older (R139). -/
def restoreCore (s : State) (c : Nat) (g : Gang) (y : SavedCore) : State :=
  let x := s.core c
  s.setCore c { x with
    tiles := putCells (clearTiles x.tiles g.tiles) y.tiles
    spd := putCells (clearRange x.spd g.spdBase g.spdSize) y.spd
    lanes := if g.lanes then y.lanes else x.lanes
    opslots := y.opslots.foldl (fun m e => mapSet m e.1 e.2) x.opslots
    cbufs := y.cbufs.foldl (fun m e => mapSet m e.1 e.2) x.cbufs
    links := x.links ++ y.links
    flaws := x.freshFlaws g.spdBase g.spdSize g.tiles g.lanes ++ y.flaws }

/-- Cluster memory put back, core by core. -/
def restoreCls (p a n : Nat) : List (Nat × Memory × List (CoreArray × Nat)) → State → State
  | [], s => s
  | (i, m, f) :: ms, s =>
    let c := 16 * p + i
    let x := s.core c
    restoreCls p a n ms (if n = 0 then s else s.setCore c { x with
      spd := putCells (clearRange x.spd a n) m, flaws := x.mended .spd a n ++ f })

/-- The steps of the link words under way on a core. -/
def linkSteps (c : Nat) (fs : List LinkFifo) : List Instr :=
  fs.flatMap (fun f => f.wire.map (fun _ => Instr.linkWordArrival c f.dir f.gang.1 f.gang.2 f.j))

/-- A withdrawn operation with the core and the reservations that its thread has now. -/
def CopyItem.moved (g : Gang) : CopyItem → CopyItem
  | .op l d b n core slot t row got _ =>
    .op l d b n (if t.rect then 16 * g.cluster + 4 * (g.row + t.y) + (g.col + t.x) else core) slot t row got (some g)
  | .marker i by_ => .marker i by_

/-- Withdrawn operations enqueued again with their markers, queue by queue. -/
def restoreCopies (g : Gang) (cs : List (Nat × CopyItem)) : List Nat → State → State
  | [], s => s
  | q :: qs, s =>
    let y := (s.cluster g.cluster).queue q
    let is := savedItems q cs
    restoreCopies g cs qs (if is.isEmpty then s
      else postOnce (setQueue s g.cluster q { y with items := putBack (is.map (fun i => i.moved g)) y.items })
        (.copyOperation g.cluster q))

/-- The core on which a thread of an id stands. -/
def coreOfThread (s : State) (tid : W64) : Option Nat :=
  (s.cores.find? (fun e : Nat × Core => e.2.slots.any (fun k : Nat × Slot =>
    k.2.occupied && BitVec.ofNat 64 (threadId k.2.thread) == tid))).map (·.1)

/-- A saved gang at a place: its withdrawn operations are enqueued before any of its threads issues, and the wakes held for it
are then applied (R202, R256). -/
def restoreGang (s : State) (g : SavedGang) (pl : Place) : State :=
  let new : Gang :=
    { g.gang with cluster := pl.cluster, row := pl.row, col := pl.col, order := s.placed, since := s.clk.toNat }
  let cs := rectCores pl.cluster pl.row pl.col new.w new.h
  let s := { s with saved := s.saved.filter (fun h => h.gang.id != g.gang.id), placed := s.placed + 1 }
  let s := restoreCls pl.cluster new.clsBase new.clsSize 
    (((List.range 16).zip g.cls).map (fun e => (e.1, e.2, g.clsFlaws.getD e.1 []))) s
  let s := (cs.zip g.cores).foldl (fun s e => (restoreCore s e.1 new e.2).post (linkSteps e.1 e.2.links)) s
  let s := restoreCopies new g.copies [0, 1, 2, 3] (cs.foldl scAcquire { s with gangs := s.gangs ++ [new] })
  let s := restoreSlots pl g.inbox (g.slots.foldr savedInsert []) s
  let s := g.wakes.foldl (fun s w => match coreOfThread s w.2 with
    | some c => applyWake s w.1 c w.2
    | none => s) s
  postOnce { s with clusters := s.clusters.map (fun e : Nat × Cluster =>
    (e.1, if e.2.reserving = some new.id then { e.2 with reserving := none } else e.2)) } .gangPlacement

/-- GANG_RESTORE. -/
def execGangRestore (launch gang : Nat) (s : State) : Out :=
  .next (match s.saved.find? (fun g => g.gang.id == (launch, gang)) with
    | none => s
    | some g => match findRestore s g [] with
      | none => s
      | some pl => restoreGang s g pl)

/-! ### The clearing (R257) -/

/-- Clusters that a clearing may take. -/
def clearable (s : State) : List Nat := (List.range 64).filter (fun p => !(s.cluster p).clearing)

/-- CLEARING: one cluster is marked; the manual does not say which (DESIGN CHOICE, log 5). -/
def execClearing (s : State) : Out :=
  .next (if s.clusters.any (fun e : Nat × Cluster => e.2.clearing) then s
    else
      let (n, s) := s.choose
      let ps := clearable s
      let p := ps.getD (n % ps.length) 0
      { s.setCluster p { s.cluster p with clearing := true, since := s.clk.toNat } with lastClear := s.clk.toNat })

/-- The gangs that have a context on a cluster. -/
def gangsOn (s : State) (p : Nat) : List GangId :=
  (s.gangs.filter (fun g => g.cluster == p || (s.coresOf p).any (fun c => (s.core c).gangCount g.id != 0))).map
    (fun g => g.id)

/-- Whether something of a cluster is still on its way: a thread to one of its cores, or a flit that one of them has to inject. -/
def clusterTraffic (s : State) (p : Nat) : Bool :=
  (s.coresOf p).any (fun c => !(s.core c).reasm.isEmpty || !(s.core c).inject.isEmpty)

/-- DRAIN_LIMIT_EXPIRY: the gangs that remain are pre-empted, resident ones included; with none left, and nothing on its way to or
from the cluster's cores, the scan self-test begins. -/
def execDrainLimitExpiry (cluster : Nat) (s : State) : Out :=
  let x := s.cluster cluster
  .next (if !x.clearing || x.testing then s
    else match gangsOn s cluster with
      | [] =>
        if clusterTraffic s cluster then s
        else s.setCluster cluster { x with testing := true, since := s.clk.toNat }
      | ids => ids.foldl (fun s i => postOnce s (.preemption i.1 i.2)) s)

/-- A core at its reset state (R179, R257). The operations of its root-logic queues are performed whatever happens to it (R307). -/
def Core.restarted (x : Core) : Core := { Core.reset with rdq := x.rdq, rqq := x.rqq }

/-- The grants of a core taken back: their holders ask again. -/
def revokeGrants (s : State) (c : Nat) : State :=
  let gone (x : Slot) : Bool := match x.granted with
    | some e => e.1 == c
    | none => false
  { s with cores := s.cores.map (fun e : Nat × Core => (e.1, { e.2 with slots := e.2.slots.map (fun k : Nat × Slot =>
      (k.1, if gone k.2 then { k.2 with asked := false, granted := none } else k.2)) })) }

/-- A core returned to its reset state: the migration requests that it held are made again by their sources. -/
def restartCore (s : State) (c : Nat) : State :=
  let x := s.core c
  let asked := x.requests ++ x.inject.filterMap (fun f => match f.payload with
    | .grant r _ _ => some r
    | _ => none)
  let s := asked.foldl askAgain (revokeGrants s c)
  { s.setCore c (s.core c).restarted with commands := s.commands.filter (· != c) }

/-- A core of a cluster whose self-test has ended: reset, or sealed where it failed. One sealed before stays so until the
service core restarts it (R179). -/
def afterTest (p : Nat) (failed : Nat) (cause : Nat) : List Nat → State → State
  | [], s => s
  | i :: is, s =>
    let c := 16 * p + i
    let x := s.core c
    let s := if x.isSealed then s else restartCore s c
    afterTest p failed cause is (if failed.testBit i then sealCore s c cause 0 else s)

/-- SELF_TEST_END: the manual gives neither which cores fail nor the cause that their seal message carries (DESIGN CHOICE,
log 5). -/
def execSelfTestEnd (s : State) : Out :=
  .next (match (List.range 64).find? (fun p => (s.cluster p).testing) with
    | none => s
    | some p =>
      let (n, s) := s.choose
      let (m, s) := s.choose
      let s := afterTest p (n % 2 ^ 16) (1 + m % 2) (List.range 16) s
      let x := s.cluster p
      let d := s.die (p / 16)
      let s := s.setCluster p { x with tlb := [], clearing := false, testing := false, since := s.clk.toNat }
      let s := s.setDie (p / 16) { d with clearings := (d.clearings + 1) % 256 }
      postOnce s .gangPlacement)

end Sys2Proof.Machine
end

