-- ==== Sys2Proof/Machine/Service.lean ====
section
/-!
DEFINITION. The service commands (R340, R341), each performed as one step for the first core that waits for it.
-/

namespace Sys2Proof.Machine

/-! ### Commands under way (R340) -/

/-- Argument i of the command of a core, as it was when the command started. -/
def cmdArg (s : State) (c i : Nat) : W64 := mapGet 0 (s.core c).cmdArgs i

/-- Whether a core waits for a command. -/
def commandWaits (s : State) (c : Nat) : Bool := (s.core c).svcBusy && !(s.core c).svcDone

/-- The code of the command of a core. -/
def commandCode (s : State) (c : Nat) : Nat := (s.core c).svcCmd.toNat % 256

/-- What a command reaches (R340), by its code and arguments: a kind of target and its number. -/
def commandTarget (code : Nat) (a : Nat → W64) : Nat × Nat :=
  let n (i : Nat) : Nat := (a i).toNat
  match code with
  | 0x01 => (2, n 2)
  | 0x02 => (1, n 0)
  | 0x03 => (1, n 0)
  | 0x04 => (1, n 0)
  | 0x05 => (1, n 0)
  | 0x06 => (3, n 0)
  | 0x07 => (2, n 0)
  | 0x08 => (6, 0)
  | 0x09 => (4, n 0)
  | 0x0A => (7, 0)
  | 0x0B => (5, n 0 / 64)
  | 0x0C => (5, n 0 / 64)
  | 0x0D => (5, n 0 / 64)
  | 0x0E => (5, n 0 / 64)
  | _ => (2, n 0)

/-- Cores that wait for a command, in order of arrival, without those behind another for the same target. -/
def commandFirsts (s : State) : List (Nat × Nat) → List Nat → List Nat
  | _, [] => []
  | seen, c :: cs =>
    let t := commandTarget (commandCode s c) (cmdArg s c)
    if !commandWaits s c then commandFirsts s seen cs
    else if seen.contains t then commandFirsts s seen cs
    else c :: commandFirsts s (t :: seen) cs

/-- The core whose command of a code, with arguments that satisfy a test, is performed next. -/
def commandCore (s : State) (code : Nat) (p : (Nat → W64) → Bool) : Option Nat :=
  (commandFirsts s [] s.commands).find? (fun c => commandCode s c == code && p (cmdArg s c))

/-- A core whose command of that sort waits behind another for the same target. -/
def commandBehind (s : State) (code : Nat) (p : (Nat → W64) → Bool) : Option Nat :=
  s.commands.find? (fun c => commandWaits s c && commandCode s c == code && p (cmdArg s c))

/-- The outcome of a command: refused with a reason, or its two results and the state after it. -/
inductive Command where
  | refused (reason : Nat)
  | yields (r0 r1 : W64) (s : State)
  deriving DecidableEq, Repr

/-- A command that yields nothing. -/
def accepted (s : State) : Command := .yields 0 0 s

/-- A command completed for a core: its results are written, and the waiting SYSWR may issue; a core that the command itself
has reset waits for nothing. -/
def completeCommand (s : State) (c : Nat) (r0 r1 : W64) : State :=
  let s := { s with commands := s.commands.filter (· != c) }
  let x := s.core c
  if x.svcBusy then s.setCore c { x with svcRes0 := r0, svcRes1 := r1, svcDone := true } else s

/-- A command step: `f` is the command on the state, the core and its arguments. A command behind another for the same target
comes up again (R340). -/
def runCommand (s : State) (code : Nat) (p : (Nat → W64) → Bool) (f : Nat → (Nat → W64) → Command) : Out :=
  .next (match commandCore s code p with
    | none => match commandBehind s code p with
      | none => s
      | some c => match commandStep (s.core c).svcCmd (cmdArg s c) with
        | .inl i => s.post [i]
        | .inr _ => s
    | some c => match f c (cmdArg s c) with
      | .refused reason => completeCommand s c (refusal reason) 0
      | .yields r0 r1 s' => completeCommand s' c r0 r1)

/-- A command refused in a state. -/
def refusedIn (s : State) (reason : Nat) : Command := .yields (refusal reason) 0 s

/-- A command on the bytes of a block that it names. Where one of its lines is uncorrectable the command is refused with reason 4, and
the events enter the fault-address queue (R298 has no row for such a read; DESIGN CHOICE, log 9). -/
def onBlock (s : State) (a n : Nat) (f : List Byte → Command) : Command :=
  let bad := poisonedLines s a n
  if bad.isEmpty then f (toBytes n (homeRead s a n).1) else refusedIn (noteLines s bad) 4

/-- Every argument list. -/
def anyArgs (_ : Nat → W64) : Bool := true

/-! ### Address spaces, faults, migration (0x01–0x05) -/

/-- Whether a placed gang uses an address space. -/
def asidInUse (s : State) (part asid : Nat) : Bool :=
  s.gangs.any (fun g => match mapFind s.launches g.id.1 with
    | some l => l.part == part && l.asid == asid
    | none => false)

/-- ASREC. -/
def execAsrec (s : State) : Out :=
  runCommand s 0x01 anyArgs (fun _ a =>
    let asid := (a 0).toNat
    let part := (a 2).toNat
    if 4095 < asid ∨ 11 < part then .refused 2
    else if asidInUse s part asid then .refused 3
    else accepted { s with asrec := mapSet s.asrec (part * 4096 + asid) (a 1).toNat })

/-- FAULTDEST. -/
def execFaultdest (s : State) : Out :=
  runCommand s 0x02 anyArgs (fun _ a =>
    let p := (a 0).toNat
    match locatorCore (a 1) with
    | none => .refused 2
    | some d => if 63 < p then .refused 2 else accepted (s.setCluster p { s.cluster p with faultdest := some d }))

/-- The copy queue that a CEREPLY names: its cluster, its number and the operation that waits (issuing core, barrier, thread),
or the reason of refusal. -/
def replyQueue (s : State) (a : Nat → W64) : Except Nat (Nat × Nat × Nat × Nat × Thread) :=
  let p := (a 0).toNat
  let q := (a 1).toNat
  if 79 < p ∨ 3 < q then .error 2
  else
    let y := (s.cluster p).queue q
    match y.faulted, y.items with
    | true, .op _ _ bar _ c _ t _ _ _ :: _ => .ok (p, q, c, bar, t)
    | _, _ => .error 3

/-- CEREPLY, resume: the failed access is repeated. -/
def execCereplyResume (s : State) : Out :=
  runCommand s 0x03 (fun a => a 2 == 0) (fun _ a => match replyQueue s a with
    | .error r => .refused r
    | .ok (p, q, _, _, _) =>
      let y := (s.cluster p).queue q
      accepted (postOnce (setQueue s p q { y with faulted := false }) (.copyOperation p q)))

/-- CEREPLY, end: the operation stops with err = 1 and arrives; its launch carries an error (R241). -/
def execCereplyEnd (s : State) : Out :=
  runCommand s 0x03 (fun a => a 2 == 1) (fun _ a => match replyQueue s a with
    | .error r => .refused r
    | .ok (p, q, c, bar, t) => accepted (copyDone s p q c bar true t))

/-- The oldest RED that waits for a reply, of a cluster and a thread. -/
def replyRed (s : State) (a : Nat → W64) : Except Nat DefRed :=
  if 79 < (a 0).toNat then .error 2
  else match s.reds.find? (fun r =>
      r.failed && clusterOf r.core == (a 0).toNat && threadId r.thr == (a 1).toNat) with
    | some r => .ok r
    | none => .error 3

/-- REDREPLY, resume: the translation and the check are repeated (R240). -/
def execRedreplyResume (s : State) : Out :=
  runCommand s 0x04 (fun a => a 2 == 0) (fun _ a => match replyRed s a with
    | .error e => .refused e
    | .ok r =>
      let s := { s with reds := s.reds.map (fun x => if x.id = r.id then { x with failed := false } else x) }
      accepted (performRed s { r with failed := false }))

/-- REDREPLY, drop. -/
def execRedreplyDrop (s : State) : Out :=
  runCommand s 0x04 (fun a => a 2 == 1) (fun _ a => match replyRed s a with
    | .error e => .refused e
    | .ok r => accepted (redDrop s r))

/-- MIGPOOL: queued requests are looked at again. -/
def execMigpool (s : State) : Out :=
  runCommand s 0x05 anyArgs (fun _ a =>
    let p := (a 0).toNat
    if 63 < p ∨ 2 ^ 16 ≤ (a 1).toNat then .refused 2
    else accepted (serveRequests p 16 (s.setCluster p { s.cluster p with migpool := (a 1).setWidth 16 })))

/-! ### Decode windows (R232) -/

/-- The window that 40 bytes describe. -/
def windowOf (d : List Byte) : Window :=
  { src := fieldAt d 0 8, alias_ := fieldAt d 8 8, len := fieldAt d 16 8, scl := fieldAt d 24 8,
    image := BitVec.ofNat 32 (fieldAt d 32 4), ctl := fieldAt d 36 1 }

/-- Whether a physical range lies in a stack. -/
def inStack (k a n : Nat) : Bool := decide (k * 2 ^ 36 ≤ a) && decide (a + n ≤ (k + 1) * 2 ^ 36)

/-- Scale bytes of a window's source. -/
def windowScales (w : Window) : Nat :=
  let n := (windowFormat w).1
  if scaleBlock n.scale = 0 then 0 else (w.len * 8 / n.width + scaleBlock n.scale - 1) / scaleBlock n.scale

/-- Whether the image of a window with code 4 or 5 is one that its code takes. -/
def windowImageOk (w : Window) : Bool :=
  let n := narrowOf w.image
  let code := w.ctl % 8
  decide (code < 4) || (imageValid w.image && (n.width == 2 || n.width == 4 || n.width == 8) && ((n.scale == 0) == (code == 4)))

/-- Whether a window may be written (R232). -/
def windowOk (s : State) (stack key : Nat) (w : Window) (tail : Nat) : Bool :=
  let code := w.ctl % 8
  decide (code < 6) && w.ctl / 8 % 4 != 3 && w.ctl / 64 == 0 && tail == 0 && w.src % 4096 == 0 && w.alias_ % 4096 == 0 &&
    w.len % 4096 == 0 && w.alias_ / 2 ^ 50 % 4 == 1 && windowImageOk w && inStack stack w.src w.len &&
    (windowScales w == 0 || inStack stack w.scl (windowScales w)) &&
    s.windows.all (fun e => e.1 == key || e.2.len == 0 || !rangesMeet w.alias_ (windowSpan w) e.2.alias_ (windowSpan e.2))

/-- DECWIN: a window written; the alias lines of its old and new ranges leave L2. The source bytes that cores hold dirty on CP pages go
home first, so that no later decode is older than the window write (R234). -/
def execDecwin (s : State) : Out :=
  runCommand s 0x06 anyArgs (fun _ a =>
    let s := cpRelease s
    let k := (a 0).toNat
    let i := (a 1).toNat
    if 11 < k ∨ 7 < i then .refused 2
    else onBlock s (a 2).toNat 40 (fun d =>
      let w := windowOf d
      let key := 8 * k + i
      if w.len != 0 && !windowOk s k key w (fieldAt d 37 3) then .refused 4
      else
        let old := mapGet Window.reset s.windows key
        let s := dropAliases (dropAliases s old.alias_ (if old.len = 0 then 0 else windowSpan old)) w.alias_
          (if w.len = 0 then 0 else windowSpan w)
        accepted { s with windows := mapSet s.windows key w }))

/-! ### Object tables, queues and policies (0x07–0x0A) -/

/-- Whether an entry of a partition's table is live. -/
def anyLive (s : State) (p : Partition) : Bool := (List.range p.capacity).any (fun i => (entryAt s p i).live)

/-- OBJTAB: the limits of R317; every entry of the new table is free with generation 0, which is a write there (R244). -/
def execObjtab (s : State) : Out :=
  runCommand s 0x07 anyArgs (fun _ a =>
    let part := (a 0).toNat
    if 11 < part then .refused 2
    else onBlock s (a 1).toNat 56 (fun d =>
    let f (i : Nat) : Nat := fieldAt d (8 * i) 8
    if f 1 = 0 ∨ 2 ^ 26 < f 1 ∨ f 2 % 2 ^ 16 ≠ 0 ∨ f 3 % 2 ^ 16 ≠ 0 ∨ f 4 % 2 ^ 16 ≠ 0 then .refused 2
    else
      let p := s.part part
      if anyLive s p then .refused 3
      else
        let p := { p with
          table := f 0, capacity := f 1, hbase := f 2, hphys := f 3, hsize := f 4, low := f 5, high := f 6 }
        let n := 32 * f 1
        let s := wakeMonitors { s with
          mem := clearRange s.mem (f 0) n
          poison := s.poison.filter (fun l => !wholeLine (f 0) n l)
          chk := s.chk.filter (fun e : Nat × BitVec 32 => !wholeLine (f 0) n e.1) } (f 0) n
        accepted (s.setPart part p)))

/-- FAQPOP. -/
def execFaqpop (s : State) : Out :=
  runCommand s 0x08 anyArgs (fun _ _ => match s.faq with
    | [] => accepted s
    | e :: es =>
      .yields (BitVec.ofNat 64 e.pa) (BitVec.ofNat 64 (e.kind + e.info * 2 ^ 8 + e.time.toNat * 2 ^ 32))
        { s with faq := es })

/-- THRTAB. -/
def execThrtab (s : State) : Out :=
  runCommand s 0x09 anyArgs (fun _ a =>
    let d := (a 0).toNat
    if 3 < d then .refused 2 else accepted (s.setDie d { s.die d with thrLow := a 1, thrHigh := a 2 }))

/-- POLICY. -/
def execPolicy (s : State) : Out :=
  runCommand s 0x0A anyArgs (fun _ a =>
    let v := (a 1).toNat
    let part := (a 2).toNat
    let p := s.policy
    match (a 0).toNat with
    | 1 => accepted { s with policy := { p with placement := v } }
    | 2 => accepted { s with policy := { p with drain := v } }
    | 3 => accepted { s with policy := { p with clearing := v } }
    | 4 =>
      if 11 < part ∨ 2 ^ 32 ≤ v ∨ (v ≠ 0 ∧ v < 1024) then .refused 2
      else accepted (s.setPart part { s.part part with tau := v })
    | 5 => accepted { s with policy := { p with scrub := v } }
    | 6 => accepted { s with policy := { p with quantum := v } }
    | 7 => accepted { s with policy := { p with collective := v } }
    | _ => .refused 2)

/-! ### Lending (R203) -/

/-- The launch of a saved thread's record. -/
def recordLaunch (s : State) (d : List Byte) : Option (Nat × Launch) :=
  s.launches.find? (fun e => e.1 % 2 ^ 16 == fieldAt d 468 2)

/-- The slot that a `sys.loc` image names: core and slot. -/
def slotOfLoc (v : W64) : Option (Nat × Nat) :=
  if 2 ^ 16 ≤ v.toNat ∨ (v.getLsbD 1 = true ∧ v.toNat / 2 ^ 10 % 16 ≠ 0) then none else some (targetCore v, targetSlot v)

/-- A spilled context of the package whose thread has an id. -/
def spilledThread (s : State) (tid : Nat) : Option Slot :=
  s.cores.findSome? (fun e : Nat × Core =>
    (e.2.spilled.find? (fun y : Nat × Nat × Slot => threadId y.2.2.thread == tid)).map (fun y => y.2.2))

/-- Spilled contexts of a thread taken out of every core. -/
def dropSpilled (s : State) (tid : Nat) : State :=
  { s with cores := s.cores.map (fun e : Nat × Core =>
      (e.1, { e.2 with spilled := e.2.spilled.filter (fun y : Nat × Nat × Slot => threadId y.2.2.thread != tid) })) }

/-- A faulted slot lent: its context goes to its spill record, and the thread of a record takes the slot (R203). -/
def lendSlot (s : State) (c k spill : Nat) (d : List Byte) (t : Thread) : State :=
  let x := (s.slot c k).receiveAll.ripe
  let was := spilledThread s (threadId t)
  let (tag, s) := s.newName
  let s := dropSpilled (homeWrite s none true spill (slotBytes x)) (threadId t)
  let y := s.core c
  let s := s.setCore c { y with spilled := y.spilled ++ [(spill, k, { x with block := [] })] }
  startContext s c k (contextOf d t was tag)

/-- LEND: refused where R203 forbids it, and on a core that takes no reinstatement (R257, 0x0C). -/
def execLend (s : State) : Out :=
  runCommand s 0x0B anyArgs (fun _ a => match slotOfLoc (a 0) with
    | none => .refused 2
    | some (c, k) =>
      let x := s.slot c k
      if x.st != .faulted || x.loadActive || (k == 15 && spillMode s c) || noReinstate s c then .refused 3
      else onBlock s (a 2).toNat 4096 (fun d => match recordLaunch s d with
        | none => .refused 5
        | some (n, l) =>
          if l.part != x.thread.part then .refused 5
          else accepted (lendSlot s c k (a 1).toNat d (recordThread d n l))))

/-! ### Cores (0x0C) -/

/-- The gang whose context a flit carries. -/
def chunkGang (s : State) (f : Flit) : Option GangId :=
  match f.payload with
  | .chunk k _ => ((s.core f.dcore).reasm.find? (fun q => q.slot == k)).map (fun q => q.gang)
  | _ => none

/-- Whether a gang holds anything on a core: threads, sealed ones and those on their way from it or to it included, or a rectangle
over it. -/
def Gang.touches (s : State) (c : Nat) (g : Gang) : Bool :=
  g.covers c || (s.core c).gangCount g.id != 0 ||
    (s.core c).inject.any (fun f => chunkGang s f == some g.id) ||
    (s.core c).reasm.any (fun q => q.gang == g.id && contextSent s c q)

/-- The gangs that hold anything on a core. -/
def gangsOfCore (s : State) (c : Nat) : List GangId := (s.gangs.filter (fun g => g.touches s c)).map (fun g => g.id)

/-- CORE, restart: every state of the core is at its reset value, and the gangs that held it are ended (R179). -/
def execCoreRestart (s : State) : Out :=
  runCommand s 0x0C (fun a => a 1 == 0) (fun _ a => match locatorCore (a 0) with
    | none => .refused 2
    | some c =>
      let s := restartCore ((gangsOfCore s c).foldl endGang s) c
      accepted (postOnce s .gangPlacement))

/-- CORE, hold. -/
def execCoreHold (s : State) : Out :=
  runCommand s 0x0C (fun a => a 1 == 1) (fun _ a => match locatorCore (a 0) with
    | none => .refused 2
    | some c => accepted (s.setCore c { s.core c with isHeld := true }))

/-- CORE, release: the woken threads that waited are reinstated. -/
def execCoreRelease (s : State) : Out :=
  runCommand s 0x0C (fun a => a 1 == 2) (fun _ a => match locatorCore (a 0) with
    | none => .refused 2
    | some c =>
      let y := s.core c
      let s := s.setCore c { y with isHeld := false }
      accepted (postOnce (s.post (y.waiting.map (fun _ => Instr.reinstatement c))) .gangPlacement))

/-! ### MBT rings (0x0D, 0x0E) -/

/-- TRACEBUF: the ring is bound and empty. -/
def execTracebuf (s : State) : Out :=
  runCommand s 0x0D anyArgs (fun _ a =>
    let size := (a 2).toNat
    match locatorCore (a 0) with
    | none => .refused 2
    | some c =>
      if (a 1).toNat % 4096 ≠ 0 ∨ size < 4096 ∨ 2 ^ 30 < size ∨ size % 4096 ≠ 0 then .refused 2
      else
        let y := s.core c
        accepted (s.setCore c { y with ring :=
          { bound := true, base := (a 1).toNat, size := size, wr := 0, rd := 0, lost := 0, lastClk := y.ring.lastClk } }))

/-- TRACEPTR: the new read offset; the write offset is its result. -/
def execTraceptr (s : State) : Out :=
  runCommand s 0x0E anyArgs (fun _ a => match locatorCore (a 0) with
    | none => .refused 2
    | some c =>
      let y := s.core c
      let rd := (a 1).toNat
      if !y.ring.bound then .refused 3
      else if y.ring.size ≤ rd ∨ rd % 16 ≠ 0 then .refused 2
      else .yields (BitVec.ofNat 64 y.ring.wr) 0 (s.setCore c { y with ring := { y.ring with rd := rd } }))

/-! ### Partitions (0x0F, 0x10) -/

/-- Whether a cluster is idle: no thread but firmware's own, none on its way, no flit to inject, no gang, no queued copy
operation. -/
def clusterIdle (s : State) (p : Nat) : Bool :=
  s.gangs.all (fun g => g.cluster != p) && !clusterTraffic s p &&
    (s.coresOf p).all (fun c => (s.core c).slots.all (fun k : Nat × Slot => !k.2.occupied || k.2.thread.firmware)) &&
    (s.cluster p).queues.all (fun e : Nat × CopyQueue => e.2.items.isEmpty)

/-- Whether another partition owns a stack, a cluster or a virtual function of the masks. -/
def partConflict (s : State) (part stackSet clusters vfs : Nat) : Bool :=
  s.parts.any (fun e => e.1 != part &&
    (e.2.stackSet &&& stackSet != 0 || e.2.clusters &&& clusters != 0 || e.2.vfs &&& vfs != 0))

/-- Chip scratchpads of the dies that a cluster mask touches, carved anew and zero (R231). -/
def carveDies (clusters : Nat) : List Nat → State → State
  | [], s => s
  | d :: ds, s =>
    carveDies clusters ds (if clusters / 2 ^ (16 * d) % 2 ^ 16 = 0 then s else s.setDie d { s.die d with chip := [] })

/-- PARTSET: partitions stay apart (R338, R339). -/
def execPartset (s : State) : Out :=
  runCommand s 0x0F anyArgs (fun _ a =>
    let part := (a 0).toNat
    let stackSet := (a 1).toNat
    let clusters := (a 2).toNat
    let vfs := (a 3).toNat + (a 4).toNat * 2 ^ 64
    let chip := (a 5).toNat
    if 11 < part ∨ stackSet = 0 ∨ 2 ^ 12 ≤ stackSet ∨ 6 < chip ∨ partConflict s part stackSet clusters vfs = true then .refused 2
    else if !(List.range 64).all (fun p => !clusters.testBit p || clusterIdle s p) then .refused 3
    else
      let p := s.part part
      let s := carveDies (clusters ||| p.clusters) [0, 1, 2, 3] s
      accepted (s.setPart part { p with stackSet := stackSet, clusters := clusters, vfs := vfs, chip := chip, hostsvc := none }))

/-- HOSTSVC. -/
def execHostsvc (s : State) : Out :=
  runCommand s 0x10 anyArgs (fun _ a =>
    let part := (a 0).toNat
    match locatorCore (a 1) with
    | none => .refused 2
    | some c =>
      if 11 < part then .refused 2
      else if !s.isSvc c then .refused 4
      else accepted (s.setPart part { s.part part with hostsvc := some c }))

end Sys2Proof.Machine
end

