-- ==== Sys2Proof/Machine/Attach.lean ====
section
/-!
DEFINITION. Host attachment (R334–R337), boot and attestation (R342, R343), and the package clock (R344).
-/

namespace Sys2Proof.Machine

/-! ### Functions (R334, R335, R338) -/

/-- The partition of a function: function 0 is the physical one, function i + 1 the virtual function i. -/
def functionPart (s : State) (func : Nat) : Option Nat :=
  if func = 0 then some (Config.managementPart % 12)
  else (s.parts.find? (fun e => e.2.vfs.testBit (func - 1))).map (·.1)

/-- Whether a function responds: in recovery mode only the physical one does (R342). -/
def responds (s : State) (func : Nat) : Bool := !s.boot.recovery || func == 0

/-- The host service core of a partition (R341 0x10). -/
def hostReceiver (s : State) (part : Nat) : Nat :=
  let p := s.part part
  match p.hostsvc with
  | some c => c
  | none => match minOf (s.svcCores.filter (fun c => !isGateway c && p.clusters.testBit (c / 16))) with
    | some c => c
    | none => (minOf (s.svcCores.filter (fun c => !isGateway c && c / 256 == 0))).getD 0

/-- BAR0 registers of a function. -/
def State.fn (s : State) (func : Nat) : FnRegs := mapGet FnRegs.reset s.fns func

/-- The state with them replaced. -/
def State.setFn (s : State) (func : Nat) (x : FnRegs) : State := { s with fns := mapSet s.fns func x }

/-- BAR0 `status` of a function (R335); it holds its reset value until the boot ROM has run. -/
def barStatus (s : State) (func : Nat) : Nat :=
  if s.boot.ready || s.boot.recovery then
    s.boot.ready.toNat + 2 * s.boot.recovery.toNat + 2 ^ 8 * (functionPart s func).getD 0
  else 0

/-- A write of the doorbell: its service message. -/
def ringDoorbell (s : State) (func : Nat) (tail : W64) : State :=
  match functionPart s func, responds s func with
  | some p, true => sendSvc s (hostReceiver s p) (.doorbell func tail)
  | _, _ => s

/-- DOORBELL. -/
def execDoorbell (func : Nat) (tail : W64) (s : State) : Out := .next (ringDoorbell s func tail)

/-- REGISTER_WRITE: qbase and qsize; every other register is read-only or has a behaviour of its own. -/
def registerWrite (s : State) (func offset : Nat) (value : W64) : State :=
  let x := s.fn func
  if !responds s func then s
  else if offset = 0x0008 then s.setFn func { x with qbase := value &&& ~~~0xFFF#64 }
  else if offset = 0x0010 then s.setFn func { x with qsize := value }
  else s

def execRegisterWrite (func : Nat) (offset : Nat) (value : W64) (s : State) : Out := .next (registerWrite s func offset value)

/-! ### BAR2 (R334, R336) -/

/-- The size of a function's BAR2 window (DESIGN CHOICE, log 34). -/
def barSize (func : Nat) : Nat := 2 ^ (30 + Config.barDoublings func)

/-- The physical address of an offset in a function's BAR2; offsets beyond the window are not decoded, and the frames of the
bad-page list are in no partition's memory (R306). -/
def barAddr (s : State) (func offset : Nat) : Option Nat :=
  match functionPart s func with
  | none => none
  | some p =>
    if barSize func ≤ offset then none
    else match (stackList (s.part p).stackSet)[offset / 2 ^ 36]? with
      | none => none
      | some k =>
        let pa := k * 2 ^ 36 + offset % 2 ^ 36
        if s.boot.leftOut.contains (pa / 2 ^ 16) then none else some pa

/-- Bytes written at the homes of their lines, in order. -/
def hostPut (func : Nat) : Nat → List Byte → State → State
  | _, [], s => s
  | o, b :: bs, s => hostPut func (o + 1) bs (match barAddr s func o with
    | some pa => homeWrite s none true pa [b]
    | none => s)

/-- Writes of whole lines clear their poison (R298). -/
def hostWhole (func : Nat) (o n : Nat) (s : State) : State :=
  (List.range (n / 64 + 1)).foldl (fun s i =>
    let a := (o + 63) / 64 * 64 + 64 * i
    if a + 64 ≤ o + n then (match barAddr s func a with
      | some pa => s.setPoison pa false
      | none => s) else s) s

/-- Bytes read at the homes of their lines; an offset that is not decoded reads as zero (DESIGN CHOICE, log 4). -/
def hostGet (s : State) (func : Nat) (o : Nat) : Nat → List Byte
  | 0 => []
  | n + 1 => (match barAddr s func o with
    | some pa => BitVec.ofNat 8 (homeRead s pa 1).1
    | none => 0) :: hostGet s func (o + 1) n

/-- The events of the uncorrectable lines that a read of n bytes meets, one for each (R298, R305). -/
def hostNote (s : State) (func o n : Nat) : State :=
  ((List.range n).filterMap (fun i => (barAddr s func (o + i)).map (fun pa => pa / 64))).eraseDups.foldl
    (fun s l => if (homeRead s (l * 64) 1).2 then noteRead s (l * 64) else s) s

/-! ### Boot (R342) -/

/-- A measurement register extended by a component. -/
def extendMeasure (m component : List Byte) : List Byte := shake256 (m ++ shake256 component 64) 64

/-- The bad-page list as bytes. -/
def badListBytes (l : List Nat) : List Byte := l.flatMap (fun f => toBytes 8 (f * 2 ^ 16))

/-- The measurement registers after boot. -/
def measureAll (b : BootState) : Map (List Byte) :=
  let go (i : Nat) (c : List Byte) : Nat × List Byte := (i, extendMeasure (mapGet (zeroBytes 64) b.m i) c)
  [go 0 Config.romImage, go 1 b.image, go 2 b.config, go 3 (badListBytes b.badList)]

/-- A choice of stacks: one at least, as each partition owns (R338). -/
def someStacks (n : Nat) : Nat := if n % 2 ^ 12 = 0 then 1 else n % 2 ^ 12

/-- Firmware started on the service cores: where it begins, in which address space and with what memory, the manual leaves
to the image (DESIGN CHOICE, log 16). -/
def startFirmware (s : State) : State :=
  let (entry, s) := s.choose
  let (root, s) := s.choose
  let (stackSet, s) := s.choose
  let (clusters, s) := s.choose
  let part := Config.managementPart % 12
  let s := { s with asrec := mapSet s.asrec (part * 4096) root }
  let s := s.setPart part { s.part part with stackSet := someStacks stackSet, clusters := clusters % 2 ^ 64 }
  s.svcCores.foldl (fun s c => s.setSlot c 0
    { Slot.reset with st := .running, thread := { Thread.none with part := part, gang := firmwareGang }, hdr := BitVec.ofNat 64 entry,
                      idx := 1, entering := true }) s

/-- BOOT: firmware and its configuration are verified and measured and firmware starts, which leaves the frames of the bad-page
list out of every partition (R306), or the package is in recovery. -/
def execBoot (s : State) : Out :=
  let b := s.boot
  .next (if Config.vendorSigned b.image && Config.vendorSigned b.config then
      let m := measureAll b
      let s := { s with boot := { b with
        m := m, ready := true, recovery := false, badList := if b.badListSigned then b.badList else []
        leftOut := if b.badListSigned then b.badList else [], listFailed := !b.badListSigned } }
      startFirmware s
    else { s with boot := { b with ready := false, recovery := true } })

/-- RECOVERY_IMAGE: taken in recovery mode only; it is verified at the next power-on. -/
def execRecoveryImage (image : List Byte) (s : State) : Out :=
  .next (if s.boot.recovery then { s with boot := { s.boot with image := image } } else s)

/-! ### Attestation (R343) -/

/-- Bytes 0 to 2,375 of a report. -/
def reportBody (s : State) (nonce : List Byte) : List Byte :=
  let b := s.boot
  let setup := (List.range 12).map (fun p =>
    let x := s.part p
    (x.stackSet, x.clusters, x.vfs, x.chip))
  nonce ++ (List.range 4).flatMap (fun i => fitBytes 64 (mapGet (zeroBytes 64) b.m i)) ++
    fitBytes 64 (shake256 (fitBytes 1952 Config.identityKey) 64) ++
    fitBytes 64 (shake256 (Config.setupImage setup) 64) ++
    [BitVec.ofNat 8 (b.listFailed.toNat + 2 * b.badListFull.toNat)] ++ zeroBytes 7 ++ fitBytes 1952 Config.identityKey

/-- The 8 KiB that an attestation request writes to its buffer. -/
def reportBytes (s : State) (nonce : List Byte) : List Byte :=
  let body := reportBody s nonce
  body ++ fitBytes 3309 (Config.identitySign body) ++ zeroBytes 2507

/-- A write of `attest`: the register, the request to the host service core, and the report in the host's buffer. -/
def askReport (s : State) (func : Nat) (addr : W64) : State :=
  match functionPart s func, responds s func with
  | some p, true =>
    let a := addr &&& ~~~0x1FFF#64
    let s := s.setFn func { s.fn func with attest := a }
    let s := sendSvc s (hostReceiver s p) (.attest func a)
    let at_ := a.toNat % 2 ^ 48
    { s with hostMem := putBytes s.hostMem at_ (reportBytes s (bytesAt s.hostMem at_ 32)) }
  | _, _ => s

/-- ATTEST. -/
def execAttest (func : Nat) (addr : W64) (s : State) : Out := .next (askReport s func addr)

/-! ### Accesses (R335, R336) -/

/-- The register of BAR0 at a multiple of 8: what a read returns, and the state after it. A read of the write-only doorbell
returns a free value (the manual gives none; DESIGN CHOICE, log 4). -/
def barRegister (s : State) (func offset : Nat) : W64 × State :=
  match offset with
  | 0x0000 => (BitVec.ofNat 64 (barStatus s func), s)
  | 0x0008 => ((s.fn func).qbase, s)
  | 0x0010 => ((s.fn func).qsize, s)
  | 0x0018 => let (n, s) := s.choose; (BitVec.ofNat 64 n, s)
  | 0x0020 => ((s.fn func).attest, s)
  | _ => (0, s)

/-- Bytes of n registers from one on. -/
def barRegisters (func : Nat) : Nat → Nat → State → List Byte × State
  | 0, _, s => ([], s)
  | n + 1, o, s =>
    let (v, s) := barRegister s func o
    let (bs, s) := barRegisters func n (o + 8) s
    (toBytes 8 v.toNat ++ bs, s)

/-- len bytes of the BAR0 window from an offset. -/
def barRead (s : State) (func offset len : Nat) : List Byte × State :=
  let first := offset / 8 * 8
  let (bs, s) := barRegisters func ((offset + len - first + 7) / 8) first s
  ((bs.drop (offset - first)).take len, s)

/-- A write of an 8-byte register of BAR0 (R335). -/
def barWrite (s : State) (func offset : Nat) (v : W64) : State :=
  match offset with
  | 0x0018 => ringDoorbell s func v
  | 0x0020 => askReport s func v
  | _ => registerWrite s func offset v

/-- HOST_ACCESS: a posted write, or a read of len bytes, which the model keeps as the function's latest answer; through BAR2, or
through BAR0, where 8 bytes at a register's offset write it (DESIGN CHOICE, log 34). -/
def execHostAccess (func : Nat) (offset : BarOffset) (data : Option (List Byte)) (len : Nat) (s : State) : Out :=
  .next (if !responds s func then s
    else match offset, data with
      | .bar2 o, some bs => hostWhole func o bs.length (hostPut func o bs s)
      | .bar2 o, none => (hostNote s func o len).setFn func { s.fn func with data := hostGet s func o len }
      | .bar0 o, some bs => if bs.length = 8 ∧ o % 8 = 0 then barWrite s func o (BitVec.ofNat 64 (fieldAt bs 0 8)) else s
      | .bar0 o, none =>
        let (bs, s) := barRead s func o len
        s.setFn func { s.fn func with data := bs })

/-! ### The clock (R344) -/

/-- CLOCK_CAP: steps of 100 MHz from 0.8 GHz to 1.6 GHz. -/
def execClockCap (mhz : Nat) (s : State) : Out := .next { s with clockMHz := max 800 (min 1600 (mhz / 100 * 100)) }

end Sys2Proof.Machine
end

