-- ==== Sys2Proof/Machine/Clock.lean ====
section
/-!
DEFINITION. One turn of a slot (R78), the order of turns, and what a clk brings: routing (R215), epochs (R216), errors and the
patrol (R163, R297), tenure (R302), the quantum, the placement timeout, the clearing and its limits (R252, R253, R257), and the
collective timeout (R352).
-/

namespace Sys2Proof.Machine

/-! ### What a slot does at its turn -/

/-- Whether the slot whose turn it is may issue: it runs with its stall counter at 0, or is parked (R79, R86). While its gang is
being saved it issues nothing, but for a word in checker retry (R254). -/
def mayTurn (s : State) : Bool :=
  (!s.stopped s.me.thread || s.me.retry) && (match s.me.st with
    | .running => s.me.stall == 0
    | .parked _ => true
    | _ => false)

/-- The outcome of the fetch of a turn: an instruction to run, a word that is none, or the turn was spent on a fault. -/
inductive Fetched where
  | run (i : Instr) (s : State)
  | illegal (w : W64) (s : State)
  | spent (s : State)
  deriving DecidableEq, Repr

/-- The word the current slot is to issue, fetched and decoded (R47, R52, R53); a core that has written back an
uncorrectable line seals instead (R163, R177). -/
def fetchTurn (s : State) : Fetched :=
  if s.myCore.sealDue then .spent (sealCore s s.cur.1 1 s.me.wordAddr)
  else match reachWord s with
  | (false, s) => .spent s
  | (true, s) => match wordHere s with
    | (none, s) => .spent s
    | (some w, s) => match decodeWord w.toNat with
      | .ok i => .run i s
      | .error _ => .illegal w s

/-! ### The order of turns (R78, R79; DEDUCED, log 2) -/

/-- A slot at the start of one of its turns. -/
def Slot.begin (x : Slot) : Slot :=
  { x.tick with since := x.since + 1, sleepLeft := x.sleepLeft.map (fun n => n - 1) }

/-- The slot whose turn it now is begins its turn; a FENCE of it that waits is looked at again. -/
def beginTurn (s : State) : State :=
  match mapFind (s.core s.cur.1).slots s.cur.2 with
  | some x => settleFence (s.setMe x.begin)
  | none => s

/-! ### Errors of the arrays and of memory (R163, R297), and the patrol -/

/-- An error that strikes an array of a core: a corrected one is reported to the service core and changes nothing else; an
uncorrectable one stands in an L1 line, or in a word of the scratchpad, the tiles or the lane slices. -/
def strikeCore (s : State) (c kind where_ : Nat) : State :=
  let x := s.core c
  if x.isSealed then s
  else match kind with
    | 0 => sendFault s c 0 (s.slot c 0).thread 0x12 0 0 0 0  -- no word made the error: there is no opcode to tell
    | 1 => s.setCore c { x with l1 := (List.range x.l1.length).zipWith (fun i l =>
        if i = where_ % x.l1.length then { l with flawed := true } else l) x.l1 }
    | 2 => s.setCore c { x with flaws := (.spd, where_ % 32768) :: x.flaws }
    | 3 => s.setCore c { x with flaws := (.tile, where_ % 32768) :: x.flaws }
    | _ => s.setCore c { x with flaws := (.slice, where_ % 16384) :: x.flaws }

/-- Lines of the package's memory. -/
def memoryLines : Nat := 12 * 2 ^ 30

/-- A bit that the code of a line does not protect, turned over: it is delivered as read, with no report (R297). -/
def strikeBit (s : State) (line bit : Nat) : State :=
  let x := s.sideOf (line * 64)
  let (n, lo, w) := tolerantBits x.tfmt
  let at_ := bit % (8 * n)
  let pa := line * 64 + bit / (8 * n) % (64 / n) * n
  if !x.lay || (decide (lo ≤ at_) && decide (at_ < lo + w)) then s
  else { s with mem := writeLe s.mem pa n (readLe s.mem pa n ^^^ 2 ^ at_) }

/-- An error that strikes a line of memory: one that an access finds and its code corrects, in as many symbols as it may, one that
it cannot correct, or one of an unprotected bit of a tolerant line. -/
def strikeLine (s : State) (kind where_ : Nat) : State :=
  let line := where_ % memoryLines
  match kind with
  | 0 => s.logFault (line * 64) 1 (lineInfo s (line * 64) (1 + where_ / memoryLines % (s.sideOf (line * 64)).corrects))
  | 1 => s.setPoison (line * 64) true
  | _ => match s.side[where_ % s.side.length]? with
    | some e => strikeBit s e.1 (where_ / 512)
    | none => s

/-- The error of an epoch: whether one strikes, where, and of which kind, are free (the manual gives no rate; DESIGN CHOICE,
log 31). -/
def strike (s : State) : State :=
  let (kind, s) := s.choose
  let (which, s) := s.choose
  let (where_, s) := s.choose
  let cs := s.coreKeys
  match kind % 9 with
  | 0 => s
  | k + 1 => if k < 5 then strikeCore s (cs.getD (which % cs.length) 0) k where_ else strikeLine s (k - 5) where_

/-- What the patrol may find in a line. -/
def foundOf (n : Nat) : EccEvent :=
  match n % 5 with
  | 0 => .clean
  | 1 => .corrected 1
  | 2 => .corrected 2
  | 3 => .uncorrectable
  | _ => .directory

/-- The lines that the patrol reads in an epoch: it goes over the whole memory once per scrub interval (R297). -/
def patrolWindow (s : State) : Nat × Nat :=
  let n := s.policy.scrub
  (s.clk.toNat % n * memoryLines / n, 1024 * memoryLines / n + 1)

/-- The patrol's work of an epoch: every poisoned line that it reaches, and what it finds in one other line, a free choice
(DESIGN CHOICE, log 31). -/
def patrolEpoch (s : State) : State :=
  if s.policy.scrub = 0 then s
  else
    let (first, n) := patrolWindow s
    let (i, s) := s.choose
    let (e, s) := s.choose
    let bad := s.poison.filter (fun l =>
      (decide (first ≤ l) && decide (l < first + n)) || decide (l + memoryLines < first + n))
    patrol (bad.foldl (fun s l => patrol s l .uncorrectable) s) ((first + i % n) % memoryLines) (foundOf e)

/-! ### A clk -/

/-- The steps that are due at the current clk. -/
def dueSteps (s : State) : List Instr :=
  let clk := s.clk.toNat
  let past (since limit : Nat) : Bool := limit != 0 && decide (since + limit ≤ clk)
  (if clk % 1024 = 0 && (!s.saved.isEmpty || s.launches.any (fun e => decide (e.2.next < e.2.gangs))) then
      [.gangPlacement] else []) ++
    s.gangs.filterMap (fun g => if !g.resident && past g.since s.policy.quantum then some (.quantumExpiry g.id.1 g.id.2) else none) ++
    s.launches.filterMap (fun e =>
      if (decide (e.2.next < e.2.gangs) && waitedOut s e.2.since) ||
        s.saved.any (fun g => g.gang.id.1 == e.1 && waitedOut s g.since) then some (.placementTimeout e.1) else none) ++
    (if past s.lastClear s.policy.clearing && !s.clusters.any (fun e : Nat × Cluster => e.2.clearing) then [.clearing] else []) ++
    s.clusters.filterMap (fun e : Nat × Cluster =>
      if e.2.clearing && !e.2.testing && decide (e.2.since + s.policy.drain ≤ clk) then some (.drainLimitExpiry e.1) else none) ++
    (if s.clusters.any (fun e : Nat × Cluster => e.2.testing && decide (e.2.since + 2000 * s.clockMHz ≤ clk)) then
      [.selfTestEnd] else []) ++
    (match s.coll with
     | some k => if past k.since s.policy.collective then [.collectiveTimeout] else []
     | none => [])

/-- What an epoch begins with (R216, R219). -/
def newEpoch (s : State) : State := if s.clk.toNat % 1024 = 0 then patrolEpoch (strike (beginEpoch s)) else s

/-- Holders that have reached their tenure limit removed (R302). -/
def expireTenures (s : State) : State := (s.res.map (fun e => e.line)).eraseDups.foldl expireTenure s

/-- The next clk begins: the routers of every plane work (R215), refused requests come up again (R225), and what is due is
posted. -/
def nextClk (s : State) : State :=
  let s := newEpoch { s with clk := s.clk + 1 }
  let s := (List.range 4).foldl (fun s p => routePlane p s) s
  let s := expireTenures (s.coreKeys.foldl dueRepeats s)
  postAll s (dueSteps s)

/-- The cores that have written back a line with an uncorrectable error seal, whether or not a slot of theirs has a turn (R163,
R177). -/
def sealsDue (s : State) : State := s.coreKeys.foldl (fun s c => if (s.core c).sealDue then sealCore s c 1 0 else s) s

/-- The turn passes on: to the same slot of the next core, or at the next clk to the next slot of the first core. -/
def passTurn (s : State) : State :=
  match s.coreKeys.find? (fun c => decide (s.cur.1 < c)) with
  | some c => beginTurn { s with cur := (c, s.cur.2) }
  | none =>
    let s := nextClk s
    beginTurn { s with cur := (s.coreKeys.headD 0, s.clk.toNat % 16) }

/-- The end of a turn: the slot enters the block that control has reached, what is due to seal seals, and the turn passes on. -/
def nextTurn (s : State) : State := passTurn (sealsDue (reachNext s))

/-! ### A program word placed from outside (R48, R57) -/

/-- A header of one word whose loop and migration flags are set, with every register and queue entry live. -/
def oneWordHeader : W64 := 0xFE03FFFE18000000

/-- A slot that is about to issue one word of a block it has entered. -/
def Slot.atWord (x : Slot) (w : W64) : Slot :=
  { x with st := .running, stall := 0, idx := 1, block := [oneWordHeader, w], entering := false }

end Sys2Proof.Machine
end

