-- ==== Sys2Proof/Machine/Dispatch.lean ====
section
/-!
DEFINITION. The dispatch of every instruction to its meaning: one arm per constructor of `Instr`.
-/

namespace Sys2Proof.Machine

def exec (i : Instr) (s : State) : Host.Outcome State Fault Refusal :=
  match i with
  | .add x => Sys2Proof.Machine.execAdd x s
  | .addImm x => Sys2Proof.Machine.execAddImm x s
  | .sub x => Sys2Proof.Machine.execSub x s
  | .subImm x => Sys2Proof.Machine.execSubImm x s
  | .mul x => Sys2Proof.Machine.execMul x s
  | .mulImm x => Sys2Proof.Machine.execMulImm x s
  | .mulh x => Sys2Proof.Machine.execMulh x s
  | .mulhImm x => Sys2Proof.Machine.execMulhImm x s
  | .mulhu x => Sys2Proof.Machine.execMulhu x s
  | .mulhuImm x => Sys2Proof.Machine.execMulhuImm x s
  | .div x => Sys2Proof.Machine.execDiv x s
  | .divImm x => Sys2Proof.Machine.execDivImm x s
  | .divu x => Sys2Proof.Machine.execDivu x s
  | .divuImm x => Sys2Proof.Machine.execDivuImm x s
  | .rem x => Sys2Proof.Machine.execRem x s
  | .remImm x => Sys2Proof.Machine.execRemImm x s
  | .remu x => Sys2Proof.Machine.execRemu x s
  | .remuImm x => Sys2Proof.Machine.execRemuImm x s
  | .and x => Sys2Proof.Machine.execAnd x s
  | .andImm x => Sys2Proof.Machine.execAndImm x s
  | .or x => Sys2Proof.Machine.execOr x s
  | .orImm x => Sys2Proof.Machine.execOrImm x s
  | .xor x => Sys2Proof.Machine.execXor x s
  | .xorImm x => Sys2Proof.Machine.execXorImm x s
  | .andn x => Sys2Proof.Machine.execAndn x s
  | .andnImm x => Sys2Proof.Machine.execAndnImm x s
  | .shl x => Sys2Proof.Machine.execShl x s
  | .shlImm x => Sys2Proof.Machine.execShlImm x s
  | .shr x => Sys2Proof.Machine.execShr x s
  | .shrImm x => Sys2Proof.Machine.execShrImm x s
  | .sra x => Sys2Proof.Machine.execSra x s
  | .sraImm x => Sys2Proof.Machine.execSraImm x s
  | .rot x => Sys2Proof.Machine.execRot x s
  | .rotImm x => Sys2Proof.Machine.execRotImm x s
  | .min x => Sys2Proof.Machine.execMin x s
  | .minImm x => Sys2Proof.Machine.execMinImm x s
  | .max x => Sys2Proof.Machine.execMax x s
  | .maxImm x => Sys2Proof.Machine.execMaxImm x s
  | .minu x => Sys2Proof.Machine.execMinu x s
  | .minuImm x => Sys2Proof.Machine.execMinuImm x s
  | .maxu x => Sys2Proof.Machine.execMaxu x s
  | .maxuImm x => Sys2Proof.Machine.execMaxuImm x s
  | .clz x => Sys2Proof.Machine.execClz x s
  | .ctz x => Sys2Proof.Machine.execCtz x s
  | .popc x => Sys2Proof.Machine.execPopc x s
  | .brev x => Sys2Proof.Machine.execBrev x s
  | .bext x => Sys2Proof.Machine.execBext x s
  | .bins x => Sys2Proof.Machine.execBins x s
  | .sext x => Sys2Proof.Machine.execSext x s
  | .zext x => Sys2Proof.Machine.execZext x s
  | .abs x => Sys2Proof.Machine.execAbs x s
  | .neg x => Sys2Proof.Machine.execNeg x s
  | .cmpeq x => Sys2Proof.Machine.execCmpeq x s
  | .cmpne x => Sys2Proof.Machine.execCmpne x s
  | .cmplt x => Sys2Proof.Machine.execCmplt x s
  | .cmple x => Sys2Proof.Machine.execCmple x s
  | .cmpltu x => Sys2Proof.Machine.execCmpltu x s
  | .cmpleu x => Sys2Proof.Machine.execCmpleu x s
  | .sel x => Sys2Proof.Machine.execSel x s
  | .li x => Sys2Proof.Machine.execLi x s
  | .lih x => Sys2Proof.Machine.execLih x s
  | .lea x => Sys2Proof.Machine.execLea x s
  | .skipz x => Sys2Proof.Machine.execSkipz x s
  | .skipnz x => Sys2Proof.Machine.execSkipnz x s
  | .br x => Sys2Proof.Machine.execBr x s
  | .brz x => Sys2Proof.Machine.execBrz x s
  | .brnz x => Sys2Proof.Machine.execBrnz x s
  | .call x => Sys2Proof.Machine.execCall x s
  | .callr x => Sys2Proof.Machine.execCallr x s
  | .jmpr x => Sys2Proof.Machine.execJmpr x s
  | .ret x => Sys2Proof.Machine.execRet x s
  | .nest x => Sys2Proof.Machine.execNest x s
  | .iter x => Sys2Proof.Machine.execIter x s
  | .nop x => Sys2Proof.Machine.execNop x s
  | .stalln x => Sys2Proof.Machine.execStalln x s
  | .yield x => Sys2Proof.Machine.execYield x s
  | .park x => Sys2Proof.Machine.execPark x s
  | .exit x => Sys2Proof.Machine.execExit x s
  | .fadd x => Sys2Proof.Machine.execFadd x s
  | .fsub x => Sys2Proof.Machine.execFsub x s
  | .fmul x => Sys2Proof.Machine.execFmul x s
  | .fdiv x => Sys2Proof.Machine.execFdiv x s
  | .fsqrt x => Sys2Proof.Machine.execFsqrt x s
  | .fmin x => Sys2Proof.Machine.execFmin x s
  | .fmax x => Sys2Proof.Machine.execFmax x s
  | .frcp x => Sys2Proof.Machine.execFrcp x s
  | .frsq x => Sys2Proof.Machine.execFrsq x s
  | .flog2 x => Sys2Proof.Machine.execFlog2 x s
  | .fexp2 x => Sys2Proof.Machine.execFexp2 x s
  | .fma x => Sys2Proof.Machine.execFma x s
  | .fms x => Sys2Proof.Machine.execFms x s
  | .fnma x => Sys2Proof.Machine.execFnma x s
  | .fceq x => Sys2Proof.Machine.execFceq x s
  | .fclt x => Sys2Proof.Machine.execFclt x s
  | .fcle x => Sys2Proof.Machine.execFcle x s
  | .fcun x => Sys2Proof.Machine.execFcun x s
  | .fclass x => Sys2Proof.Machine.execFclass x s
  | .fcvt x => Sys2Proof.Machine.execFcvt x s
  | .sysrd x => Sys2Proof.Machine.execSysrd x s
  | .syswr x => Sys2Proof.Machine.execSyswr x s
  | .trap x => Sys2Proof.Machine.execTrap x s
  | .eret x => Sys2Proof.Machine.execEret x s
  | .trace x => Sys2Proof.Machine.execTrace x s
  | .vadd x => Sys2Proof.Machine.execVadd x s
  | .vsub x => Sys2Proof.Machine.execVsub x s
  | .vmul x => Sys2Proof.Machine.execVmul x s
  | .vdiv x => Sys2Proof.Machine.execVdiv x s
  | .vsqrt x => Sys2Proof.Machine.execVsqrt x s
  | .vmin x => Sys2Proof.Machine.execVmin x s
  | .vmax x => Sys2Proof.Machine.execVmax x s
  | .vrcp x => Sys2Proof.Machine.execVrcp x s
  | .vrsq x => Sys2Proof.Machine.execVrsq x s
  | .vlog2 x => Sys2Proof.Machine.execVlog2 x s
  | .vexp2 x => Sys2Proof.Machine.execVexp2 x s
  | .vfma x => Sys2Proof.Machine.execVfma x s
  | .vfms x => Sys2Proof.Machine.execVfms x s
  | .viadd x => Sys2Proof.Machine.execViadd x s
  | .visub x => Sys2Proof.Machine.execVisub x s
  | .vimul x => Sys2Proof.Machine.execVimul x s
  | .vand x => Sys2Proof.Machine.execVand x s
  | .vor x => Sys2Proof.Machine.execVor x s
  | .vxor x => Sys2Proof.Machine.execVxor x s
  | .vshl x => Sys2Proof.Machine.execVshl x s
  | .vshr x => Sys2Proof.Machine.execVshr x s
  | .vimin x => Sys2Proof.Machine.execVimin x s
  | .vimax x => Sys2Proof.Machine.execVimax x s
  | .vceq x => Sys2Proof.Machine.execVceq x s
  | .vclt x => Sys2Proof.Machine.execVclt x s
  | .vcle x => Sys2Proof.Machine.execVcle x s
  | .vcun x => Sys2Proof.Machine.execVcun x s
  | .vsel x => Sys2Proof.Machine.execVsel x s
  | .vred x => Sys2Proof.Machine.execVred x s
  | .vscan x => Sys2Proof.Machine.execVscan x s
  | .vrmaxi x => Sys2Proof.Machine.execVrmaxi x s
  | .vsplat x => Sys2Proof.Machine.execVsplat x s
  | .vlane x => Sys2Proof.Machine.execVlane x s
  | .vins x => Sys2Proof.Machine.execVins x s
  | .vperm x => Sys2Proof.Machine.execVperm x s
  | .vmaxi x => Sys2Proof.Machine.execVmaxi x s
  | .vcmpr x => Sys2Proof.Machine.execVcmpr x s
  | .vselk x => Sys2Proof.Machine.execVselk x s
  | .vcvt x => Sys2Proof.Machine.execVcvt x s
  | .vldl x => Sys2Proof.Machine.execVldl x s
  | .vstl x => Sys2Proof.Machine.execVstl x s
  | .odef x => Sys2Proof.Machine.execOdef x s
  | .spfence x => Sys2Proof.Machine.execSpfence x s
  | .czero x => Sys2Proof.Machine.execCzero x s
  | .crd x => Sys2Proof.Machine.execCrd x s
  | .cwr x => Sys2Proof.Machine.execCwr x s
  | .cld x => Sys2Proof.Machine.execCld x s
  | .cwait x => Sys2Proof.Machine.execCwait x s
  | .cqry x => Sys2Proof.Machine.execCqry x s
  | .cabort x => Sys2Proof.Machine.execCabort x s
  | .ld x => Sys2Proof.Machine.execLd x s
  | .st x => Sys2Proof.Machine.execSt x s
  | .vld x => Sys2Proof.Machine.execVld x s
  | .vst x => Sys2Proof.Machine.execVst x s
  | .vlds x => Sys2Proof.Machine.execVlds x s
  | .vsts x => Sys2Proof.Machine.execVsts x s
  | .vgth x => Sys2Proof.Machine.execVgth x s
  | .vsct x => Sys2Proof.Machine.execVsct x s
  | .vldb x => Sys2Proof.Machine.execVldb x s
  | .vstb x => Sys2Proof.Machine.execVstb x s
  | .pref x => Sys2Proof.Machine.execPref x s
  | .sbind x => Sys2Proof.Machine.execSbind x s
  | .sunb x => Sys2Proof.Machine.execSunb x s
  | .sstat x => Sys2Proof.Machine.execSstat x s
  | .cbdef x => Sys2Proof.Machine.execCbdef x s
  | .cbrsv x => Sys2Proof.Machine.execCbrsv x s
  | .cbpub x => Sys2Proof.Machine.execCbpub x s
  | .cbtake x => Sys2Proof.Machine.execCbtake x s
  | .cbrel x => Sys2Proof.Machine.execCbrel x s
  | .ldc x => Sys2Proof.Machine.execLdc x s
  | .stf x => Sys2Proof.Machine.execStf x s
  | .cpy x => Sys2Proof.Machine.execCpy x s
  | .cpyl x => Sys2Proof.Machine.execCpyl x s
  | .eqry x => Sys2Proof.Machine.execEqry x s
  | .send x => Sys2Proof.Machine.execSend x s
  | .mpeek x => Sys2Proof.Machine.execMpeek x s
  | .mclr x => Sys2Proof.Machine.execMclr x s
  | .lbsend x => Sys2Proof.Machine.execLbsend x s
  | .inbx x => Sys2Proof.Machine.execInbx x s
  | .migrate x => Sys2Proof.Machine.execMigrate x s
  | .homec x => Sys2Proof.Machine.execHomec x s
  | .cwb x => Sys2Proof.Machine.execCwb x s
  | .cinv x => Sys2Proof.Machine.execCinv x s
  | .alinv x => Sys2Proof.Machine.execAlinv x s
  | .amo x => Sys2Proof.Machine.execAmo x s
  | .red x => Sys2Proof.Machine.execRed x s
  | .cas x => Sys2Proof.Machine.execCas x s
  | .barr x => Sys2Proof.Machine.execBarr x s
  | .barw x => Sys2Proof.Machine.execBarw x s
  | .bara x => Sys2Proof.Machine.execBara x s
  | .mwait x => Sys2Proof.Machine.execMwait x s
  | .launch x => Sys2Proof.Machine.execLaunch x s
  | .fence x => Sys2Proof.Machine.execFence x s
  | .qfence x => Sys2Proof.Machine.execQfence x s
  | .lrw x => Sys2Proof.Machine.execLrw x s
  | .sch x => Sys2Proof.Machine.execSch x s
  | .rrel x => Sys2Proof.Machine.execRrel x s
  | .rdx x => Sys2Proof.Machine.execRdx x s
  | .rqz x => Sys2Proof.Machine.execRqz x s
  | .hnew x => Sys2Proof.Machine.execHnew x s
  | .hfree x => Sys2Proof.Machine.execHfree x s
  | .hdown x => Sys2Proof.Machine.execHdown x s
  | .hup x => Sys2Proof.Machine.execHup x s
  | .hprio x => Sys2Proof.Machine.execHprio x s
  | .haddr x => Sys2Proof.Machine.execHaddr x s
  | .hld x => Sys2Proof.Machine.execHld x s
  | .hldw x => Sys2Proof.Machine.execHldw x s
  | .hst x => Sys2Proof.Machine.execHst x s
  | .gqclm x => Sys2Proof.Machine.execGqclm x s
  | .baddq x => Sys2Proof.Machine.execBaddq x s
  | .resultDelivery core slot tag => Sys2Proof.Machine.execResultDelivery core slot tag s
  | .iterationClaim core slot => Sys2Proof.Machine.execIterationClaim core slot s
  | .sectorRequest core slot => Sys2Proof.Machine.execSectorRequest core slot s
  | .sectorArrival core slot sector => Sys2Proof.Machine.execSectorArrival core slot sector s
  | .linkWordArrival core dir serial gang j => Sys2Proof.Machine.execLinkWordArrival core dir serial gang j s
  | .copyOperation cluster queue => Sys2Proof.Machine.execCopyOperation cluster queue s
  | .registerMessage m => Sys2Proof.Machine.execRegisterMessage m s
  | .wakeReinstate core tid => Sys2Proof.Machine.execWakeReinstate core tid s
  | .wakeEndGang core tid => Sys2Proof.Machine.execWakeEndGang core tid s
  | .wakeResumeLoad core tid => Sys2Proof.Machine.execWakeResumeLoad core tid s
  | .wakeEndLoad core tid => Sys2Proof.Machine.execWakeEndLoad core tid s
  | .wakePassOver core tid => Sys2Proof.Machine.execWakePassOver core tid s
  | .reinstatement core => Sys2Proof.Machine.execReinstatement core s
  | .flitRouting plane => Sys2Proof.Machine.execFlitRouting plane s
  | .migrationRequest r => Sys2Proof.Machine.execMigrationRequest r s
  | .requestRepeat r => Sys2Proof.Machine.execRequestRepeat r s
  | .grant r target slot => Sys2Proof.Machine.execGrant r target slot s
  | .migrationContext core slot => Sys2Proof.Machine.execMigrationContext core slot s
  | .serviceMessage core => Sys2Proof.Machine.execServiceMessage core s
  | .redTranslation red => Sys2Proof.Machine.execRedTranslation red s
  | .launchRetirement launch => Sys2Proof.Machine.execLaunchRetirement launch s
  | .placementTimeout launch => Sys2Proof.Machine.execPlacementTimeout launch s
  | .quantumExpiry launch gang => Sys2Proof.Machine.execQuantumExpiry launch gang s
  | .preemption launch gang => Sys2Proof.Machine.execPreemption launch gang s
  | .gangRestore launch gang => Sys2Proof.Machine.execGangRestore launch gang s
  | .rdxOperation core => Sys2Proof.Machine.execRdxOperation core s
  | .rqzOperation core => Sys2Proof.Machine.execRqzOperation core s
  | .reclaimPass part => Sys2Proof.Machine.execReclaimPass part s
  | .tenureExpiry line => Sys2Proof.Machine.execTenureExpiry line s
  | .streamPrefetch core slot stream => Sys2Proof.Machine.execStreamPrefetch core slot stream s
  | .drainLimitExpiry cluster => Sys2Proof.Machine.execDrainLimitExpiry cluster s
  | .epochBoundary => Sys2Proof.Machine.execEpochBoundary s
  | .gangPlacement => Sys2Proof.Machine.execGangPlacement s
  | .clearing => Sys2Proof.Machine.execClearing s
  | .selfTestEnd => Sys2Proof.Machine.execSelfTestEnd s
  | .asrec => Sys2Proof.Machine.execAsrec s
  | .faultdest => Sys2Proof.Machine.execFaultdest s
  | .cereplyResume => Sys2Proof.Machine.execCereplyResume s
  | .cereplyEnd => Sys2Proof.Machine.execCereplyEnd s
  | .redreplyResume => Sys2Proof.Machine.execRedreplyResume s
  | .redreplyDrop => Sys2Proof.Machine.execRedreplyDrop s
  | .migpool => Sys2Proof.Machine.execMigpool s
  | .decwin => Sys2Proof.Machine.execDecwin s
  | .objtab => Sys2Proof.Machine.execObjtab s
  | .faqpop => Sys2Proof.Machine.execFaqpop s
  | .thrtab => Sys2Proof.Machine.execThrtab s
  | .policy => Sys2Proof.Machine.execPolicy s
  | .lend => Sys2Proof.Machine.execLend s
  | .coreRestart => Sys2Proof.Machine.execCoreRestart s
  | .coreHold => Sys2Proof.Machine.execCoreHold s
  | .coreRelease => Sys2Proof.Machine.execCoreRelease s
  | .tracebuf => Sys2Proof.Machine.execTracebuf s
  | .traceptr => Sys2Proof.Machine.execTraceptr s
  | .partset => Sys2Proof.Machine.execPartset s
  | .hostsvc => Sys2Proof.Machine.execHostsvc s
  | .collectiveBind => Sys2Proof.Machine.execCollectiveBind s
  | .collectiveTimeout => Sys2Proof.Machine.execCollectiveTimeout s
  | .boot => Sys2Proof.Machine.execBoot s
  | .turn => Sys2Proof.Machine.execTurn s
  | .unpark core slot => Sys2Proof.Machine.execUnpark core slot s
  | .checkerRetry core slot sector => Sys2Proof.Machine.execCheckerRetry core slot sector s
  | .loadFault core slot addr flags => Sys2Proof.Machine.execLoadFault core slot addr flags s
  | .translationWalk core slot va acc => Sys2Proof.Machine.execTranslationWalk core slot va acc s
  | .shootDown cluster part asid va => Sys2Proof.Machine.execShootDown cluster part asid va s
  | .lrwRepeat core slot => Sys2Proof.Machine.execLrwRepeat core slot s
  | .scrubPatrol line found => Sys2Proof.Machine.execScrubPatrol line found s
  | .collectiveBlockArrival port id block data => Sys2Proof.Machine.execCollectiveBlockArrival port id block data s
  | .dataFlit port bytes => Sys2Proof.Machine.execDataFlit port bytes s
  | .idleFlit port bytes => Sys2Proof.Machine.execIdleFlit port bytes s
  | .replayRequest port bytes => Sys2Proof.Machine.execReplayRequest port bytes s
  | .laneRepair port => Sys2Proof.Machine.execLaneRepair port s
  | .retrainComplete port ok => Sys2Proof.Machine.execRetrainComplete port ok s
  | .doorbell func tail => Sys2Proof.Machine.execDoorbell func tail s
  | .attest func addr => Sys2Proof.Machine.execAttest func addr s
  | .hostAccess func offset data len => Sys2Proof.Machine.execHostAccess func offset data len s
  | .registerWrite func offset value => Sys2Proof.Machine.execRegisterWrite func offset value s
  | .clockCap mhz => Sys2Proof.Machine.execClockCap mhz s
  | .illegalWord w => Sys2Proof.Machine.execIllegalWord w s
  | .classTransitionClear frame large kind tfmt => Sys2Proof.Machine.execClassTransitionClear frame large kind tfmt s
  | .pageRetirementMove old new => Sys2Proof.Machine.execPageRetirementMove old new s
  | .recoveryImage image => Sys2Proof.Machine.execRecoveryImage image s

end Sys2Proof.Machine
end

