-- ==== Sys2Proof/Machine/Step.lean ====
section
/-!
DEFINITION. The step of the package: one turn of one slot, or one step of another agent. Which of them comes next is a free
value (DESIGN CHOICE, log 5).
-/

namespace Sys2Proof.Machine

/-- The turn of the current slot: the word it issues is fetched, decoded and run; then the turn passes on. -/
def turnStep (s : State) : Host.Outcome State Fault Refusal :=
  let out : Host.Outcome State Fault Refusal :=
    if !mayTurn s then exec .turn s
    else match fetchTurn s with
      | .run i s => exec i s
      | .illegal w s => execIllegalWord w s
      | .spent s => .next s
  match out with
  | .next s => .next (nextTurn s)
  | .fault f => .fault f
  | .refused r => .refused r

/-- The function of the host through which a step reaches the package (R335, R336). -/
def hostFunc : Instr → Option Nat
  | .doorbell f _ => some f
  | .attest f _ => some f
  | .hostAccess f _ _ _ => some f
  | .registerWrite f _ _ => some f
  | _ => none

/-- The position whose turn it is when a position of the agenda is chosen: the accesses of one function are performed in the
order in which they arrive (R336). -/
def earliest (s : State) (k : Nat) : Nat :=
  match (s.agenda[k]?).bind hostFunc with
  | some f => (s.agenda.findIdx? (fun i => hostFunc i == some f)).getD k
  | none => k

/-- The step at a position of the agenda taken out and run; then what is due to seal seals. -/
def agendaStep (s : State) (k : Nat) : Host.Outcome State Fault Refusal :=
  let k := earliest s k
  match s.agenda[k]? with
  | some i => match exec i { s with agenda := dropAt s.agenda k } with
    | .next s => .next (sealsDue s)
    | .fault f => .fault f
    | .refused r => .refused r
  | none => turnStep s

/-- A turn, or the step at a position of the agenda, with the waits of the oldest step and of the turn counted. -/
def pick (s : State) : Nat → Host.Outcome State Fault Refusal
  | 0 => turnStep { s with turnWait := 0, headWait := s.headWait + 1 }
  | k + 1 => agendaStep { s with turnWait := s.turnWait + 1, headWait := if k = 0 then 0 else s.headWait + 1 } k

/-- One step of the package. Which work comes next is a free value; neither the oldest step under way nor the turns of the slots
wait for ever (R4, R272, R328). -/
def step (s : State) : Host.Outcome State Fault Refusal :=
  if s.agenda.isEmpty then turnStep s
  else if Config.patience < s.turnWait then pick s 0
  else if Config.patience < s.headWait then pick s 1
  else
    let (n, s) := s.choose
    pick s (n % (s.agenda.length + 1))

/-- The state with one word placed where the current slot fetches its next instruction: it stands alone in the block buffer
of that slot, which is running, and no other agent has a step under way. -/
def State.withFetchWord (s : State) (nbits w : Nat) : State :=
  { s.setMe (s.me.atWord (BitVec.ofNat 64 (w % 2 ^ nbits))) with agenda := [] }

end Sys2Proof.Machine
end

