-- ==== Sys2Proof/Safety.lean ====
section
/-!
DEFINITION. What claims say about states and runs: the canonical form of the shared memories, the conditions under which a
word does its own part, the state it then leaves, and sources that take nothing away.
-/

namespace Sys2Proof.Machine

/-- The memories that the whole package shares are in canonical form: HBM4E and the host's memory. -/
def State.memWf (s : State) : Bool := s.mem.wf && s.hostMem.wf

/-- The memories of the cores and dies are in canonical form: scratchpads, lane slices, accumulator tiles and chip scratchpads, and the
lane slices of saved gangs. -/
def State.arraysWf (s : State) : Bool :=
  s.cores.all (fun e => Memory.wf e.2.spd && Memory.wf e.2.lanes && cellsAbove 0 e.2.tiles) &&
    s.dies.all (fun e => Memory.wf e.2.chip) && s.saved.all (fun g => g.cores.all (fun c => Memory.wf c.lanes))

/-- The conditions on the state and the operands under which the current slot's word, none of its own checks failing, goes
on to its own part and may commit (R42, R83, R85, R88, R89, R134, R170, R178, R183, R220). -/
structure Poised (s : State) (f : Form) (v : Vals) : Prop where
  /-- a thread runs on the slot, or waits there with its word unissued -/
  thread : s.me.mayIssue = true
  /-- every source can be read, and these are their values -/
  values : (avail s f).vals = some v
  /-- no message that it takes was sent under another TOPX -/
  tags : topxDiffers s f = false
  /-- every link that it names has a neighbour -/
  links : noLinkTrap s f = none
  /-- no link that it pops comes from a sealed core -/
  neighbours : sealedTrap s f = none
  /-- it does not read or overwrite a result early under chk = 1 -/
  timely : stallTrap s f (avail s f) = none
  /-- its destination owes no result and has room -/
  free : destReason s f.d = none
  /-- an element that it appends to a stream can be stored -/
  place : destFail s f.d = none
  /-- the checker agrees with it -/
  agrees : s.me.suspect = false

/-- The state that a word leaves: its sources consumed, its result delivered, control moved on (R42, R79, R80). -/
def delivers (s : State) (f : Form) (stall : BitVec 3) (r : Result) (p : Pos) (snan : Bool) : State :=
  finish (consumeAll s f) f.d stall.toNat r p snan

/-- A source that reading takes nothing from: it is no stream register, message register or link (R42). -/
def Src.isPlain : Src → Bool
  | .q _ => true
  | .n _ => true
  | .s _ => false
  | .m _ => false
  | .link _ => false
  | .z => true
  | .imm => true
  | .hb => true

/-- An operand field that reading takes nothing from. -/
def Opnd.isPlain : Opnd → Bool
  | .none => true
  | .s x => Src.isPlain x
  | .v _ => true

/-- A word none of whose sources reading takes anything from. -/
def Form.isPlain (f : Form) : Bool := f.a.isPlain && f.b.isPlain && f.c.isPlain && f.k.isPlain

end Sys2Proof.Machine
end

