-- ==== Sys2Proof/Certificates/Slice0/Obligations.lean ====
section
/-!
DEFINITION. The statements about this machine. Values are written here from the rules of the manual in plain integer
arithmetic, apart from the machine's own operations; `delivers` is the state a word leaves once its operands are read, and
`Poised` the conditions under which it issues.
-/

namespace Sys2Proof.Rules

open Sys2Proof.Machine

/-! ### Integers as the manual writes them (R58, R92, R94, R95) -/

/-- Operation width of type codes .D and .W (R92). -/
def width : WTy → Nat
  | .d => 64
  | .w => 32

/-- Width of the type codes .D, .W, .H and .B (R94). -/
def width4 : IntTy → Nat
  | .d => 64
  | .w => 32
  | .h => 16
  | .b => 8

/-- The low w bits of an operand, unsigned. -/
def low (w : Nat) (a : W64) : Nat := a.toNat % 2 ^ w

/-- The low w bits of an operand, signed. -/
def slow (w : Nat) (a : W64) : Int := Int.bmod a.toNat (2 ^ w)

/-- A result modulo 2^w, written sign-extended from bit w − 1. -/
def wrap (w : Nat) (r : Int) : W64 := BitVec.ofInt 64 (Int.bmod r (2 ^ w))

/-- An INT-R constructor and its INT-I form give `val w A B`, ready after `lat` extra turns, and control goes on to the next
word (R92, R84). In the INT-I form B is imm32, extended by ZX (R40). -/
def IntGives (reg : IntR → Instr) (imm : IntI → Instr) (lat : Nat) (val : Nat → W64 → W64 → Int) : Prop :=
  (∀ (x : IntR) (s : State) (v : Vals), Poised s (formAB x.a x.b x.d) v →
    exec (reg x) s = .next (delivers s (formAB x.a x.b x.d) x.stall
      (.one (wrap (width x.w) (val (width x.w) v.a v.b)) lat) .seq false)) ∧
  (∀ (x : IntI) (s : State) (v : Vals), Poised s (formI x.a x.d (extImm x.zx x.imm)) v →
    exec (imm x) s = .next (delivers s (formI x.a x.d (extImm x.zx x.imm)) x.stall
      (.one (wrap (width x.w) (val (width x.w) v.a (if x.zx then x.imm.zeroExtend 64 else x.imm.signExtend 64))) lat)
      .seq false))

/-- A unary BIT word gives `val w x` of the low w bits x of A (R94). -/
def BitGives (op : BitU → Instr) (val : Nat → Nat → W64) : Prop :=
  ∀ (x : BitU) (s : State) (v : Vals), Poised s (formA x.a x.d) v →
    exec (op x) s = .next (delivers s (formA x.a x.d) x.stall
      (.one (val (width4 x.w) (low (width4 x.w) v.a)) 0) .seq false)

/-- A comparison writes 1 where a relation of the low w bits of A and B holds, else 0 (R95). -/
def CmpGives (op : CmpR → Instr) (rel : Nat → W64 → W64 → Prop) : Prop :=
  ∀ (x : CmpR) (s : State) (v : Vals), Poised s (formAB x.a x.b x.d) v →
    ∃ r : W64, (rel (width4 x.w) v.a v.b → r = 1) ∧ (¬ rel (width4 x.w) v.a v.b → r = 0) ∧
      exec (op x) s = .next (delivers s (formAB x.a x.b x.d) x.stall (.one r 0) .seq false)

end Sys2Proof.Rules

open Sys2Proof Sys2Proof.Machine Sys2Proof.Rules

/-! ### Integer words -/

/-- Division truncates toward zero, gives all ones by zero, and its remainder takes the sign of x, or is x by zero (R92,
R93). -/
def Obligations.DivisionTruncatesAndNeverTraps : Prop :=
  IntGives .div .divImm 3 (fun w a b => if low w b = 0 then 2 ^ w - 1 else Int.tdiv (slow w a) (slow w b)) ∧
  IntGives .divu .divuImm 3 (fun w a b => if low w b = 0 then 2 ^ w - 1 else low w a / low w b) ∧
  IntGives .rem .remImm 3 (fun w a b => if low w b = 0 then slow w a else Int.tmod (slow w a) (slow w b)) ∧
  IntGives .remu .remuImm 3 (fun w a b => if low w b = 0 then low w a else low w a % low w b)

/-- Sums, differences and products wrap modulo 2^w with MULH and MULHU giving the upper halves; the logical words act on
bits and the shifts count their amount modulo w; minima and maxima are signed or unsigned (R58, R92). -/
def Obligations.IntegerWordsComputeModuloTheirWidth : Prop :=
  (IntGives .add .addImm 0 (fun w a b => low w a + low w b) ∧
  IntGives .sub .subImm 0 (fun w a b => low w a - low w b) ∧
  IntGives .mul .mulImm 0 (fun w a b => low w a * low w b) ∧
  IntGives .mulh .mulhImm 0 (fun w a b => slow w a * slow w b / 2 ^ w) ∧
  IntGives .mulhu .mulhuImm 0 (fun w a b => low w a * low w b / 2 ^ w)) ∧
  (IntGives .and .andImm 0 (fun w a b => (low w a &&& low w b : Nat)) ∧
  IntGives .or .orImm 0 (fun w a b => (low w a ||| low w b : Nat)) ∧
  IntGives .xor .xorImm 0 (fun w a b => (low w a ^^^ low w b : Nat)) ∧
  IntGives .andn .andnImm 0 (fun w a b => (low w a &&& (2 ^ w - 1 - low w b) : Nat)) ∧
  IntGives .shl .shlImm 0 (fun w a b => low w a * 2 ^ (low w b % w)) ∧
  IntGives .shr .shrImm 0 (fun w a b => low w a / 2 ^ (low w b % w)) ∧
  IntGives .sra .sraImm 0 (fun w a b => slow w a / 2 ^ (low w b % w)) ∧
  IntGives .rot .rotImm 0 (fun w a b => low w a * 2 ^ (low w b % w) + low w a / 2 ^ (w - low w b % w))) ∧
  (IntGives .min .minImm 0 (fun w a b => min (slow w a) (slow w b)) ∧
  IntGives .max .maxImm 0 (fun w a b => max (slow w a) (slow w b)) ∧
  IntGives .minu .minuImm 0 (fun w a b => min (low w a) (low w b)) ∧
  IntGives .maxu .maxuImm 0 (fun w a b => max (low w a) (low w b)))

/-- The bit words: counts zero-extended, patterns sign-extended from bit w − 1 (R94). -/
def Obligations.BitWordsCountAndMoveBits : Prop :=
  BitGives .clz (fun w x => BitVec.ofNat 64 (((List.range w).find? (fun i => x.testBit (w - 1 - i))).getD w)) ∧
  BitGives .ctz (fun w x => BitVec.ofNat 64 (((List.range w).find? x.testBit).getD w)) ∧
  BitGives .popc (fun w x => BitVec.ofNat 64 ((List.range w).filter x.testBit).length) ∧
  BitGives .brev (fun w x => wrap w ((List.range w).map (fun i => (x.testBit i).toNat * 2 ^ (w - 1 - i))).sum) ∧
  BitGives .sext (fun w x => wrap w x) ∧
  BitGives .zext (fun _ x => BitVec.ofNat 64 x) ∧
  BitGives .abs (fun w x => wrap w (Int.natAbs (Int.bmod x (2 ^ w)))) ∧
  BitGives .neg (fun w x => wrap w (-(x : Int))) ∧
  (∀ (x : BitT) (s : State) (v : Vals), Poised s (formABC x.a x.b x.c x.d) v →
    let w := width4 x.w
    let p := v.b.toNat % 2 ^ 6
    let l := min (v.c.toNat % 2 ^ 7) w
    exec (.bext x) s = .next (delivers s (formABC x.a x.b x.c x.d) x.stall
      (.one (BitVec.ofNat 64 ((low w v.a >>> p) &&& (2 ^ l - 1))) 0) .seq false)) ∧
  (∀ (x : BitT) (s : State) (v : Vals), Poised s (formABC x.a x.b x.c x.d) v →
    let w := width4 x.w
    let p := v.c.toNat % 2 ^ 6
    let l := min (v.c.toNat / 2 ^ 8 % 2 ^ 7) w
    let mask := ((2 ^ l - 1) <<< p) % 2 ^ w
    exec (.bins x) s = .next (delivers s (formABC x.a x.b x.c x.d) x.stall
      (.one (wrap w ((low w v.a &&& (2 ^ w - 1 - mask)) ||| ((v.b.toNat <<< p) &&& mask) : Nat)) 0) .seq false))

/-- Compares write 1 or 0, SEL writes B where A is not 0, else C; LI writes its immediate, LIH replaces the upper half, LEA
computes an address modulo 2^64 (R40, R95, R96, R97). -/
def Obligations.CompareSelectAndImmediateWords : Prop :=
  (CmpGives .cmpeq (fun w a b => low w a = low w b) ∧
  CmpGives .cmpne (fun w a b => low w a ≠ low w b) ∧
  CmpGives .cmplt (fun w a b => slow w a < slow w b) ∧
  CmpGives .cmple (fun w a b => slow w a ≤ slow w b) ∧
  CmpGives .cmpltu (fun w a b => low w a < low w b) ∧
  CmpGives .cmpleu (fun w a b => low w a ≤ low w b) ∧
  (∀ (x : SelR) (s : State) (v : Vals), Poised s (formABC x.a x.b x.c x.d) v →
    exec (.sel x) s = .next (delivers s (formABC x.a x.b x.c x.d) x.stall
      (.one (if v.a.toNat ≠ 0 then v.b else v.c) 0) .seq false))) ∧
  ((∀ (x : LiI) (s : State) (v : Vals), Poised s { noOperands with d := .s x.d } v →
    exec (.li x) s = .next (delivers s { noOperands with d := .s x.d } x.stall
      (.one (if x.zx then BitVec.ofNat 64 x.imm.toNat else BitVec.ofInt 64 x.imm.toInt) 0) .seq false)) ∧
  (∀ (x : LihI) (s : State) (v : Vals), Poised s (formI x.a x.d (x.imm.signExtend 64)) v →
    exec (.lih x) s = .next (delivers s (formI x.a x.d (x.imm.signExtend 64)) x.stall
      (.one (BitVec.ofNat 64 (x.imm.toNat * 2 ^ 32 + v.a.toNat % 2 ^ 32)) 0) .seq false)) ∧
  (∀ (x : LeaM) (s : State) (v : Vals), Poised s (formAB x.a x.b x.d) v →
    exec (.lea x) s = .next (delivers s (formAB x.a x.b x.d) x.stall
      (.one (BitVec.ofInt 64 (v.a.toNat + v.b.toNat * 2 ^ x.sh.toNat + x.off.toInt)) 0) .seq false)))

/-! ### Control -/

/-- A skip passes over its count of words where its condition holds, else goes on; a count outside 1–31 or past the block's
last word is ILLEGAL (R55, R98). -/
def Obligations.SkipsPassOverTheirCount : Prop :=
  (∀ (x : SkipC) (s : State) (v : Vals), Poised s (formSrc x.a) v → 1 ≤ x.cnt.toNat → x.cnt.toNat ≤ 31 →
    s.me.idx + x.cnt.toNat ≤ hdrLen (s.me.block.headD 0) + 1 →
    exec (.skipz x) s = .next (delivers s (formSrc x.a) x.stall .none
      (if v.a = 0 then .skip x.cnt.toNat else .seq) false) ∧
    exec (.skipnz x) s = .next (delivers s (formSrc x.a) x.stall .none
      (if v.a ≠ 0 then .skip x.cnt.toNat else .seq) false)) ∧
  (∀ (x : SkipC) (s : State), s.me.mayIssue = true → s.me.suspect = false →
    x.cnt.toNat = 0 ∨ 31 < x.cnt.toNat ∨ hdrLen (s.me.block.headD 0) + 1 < s.me.idx + x.cnt.toNat →
    exec (.skipz x) s = .next (trapHere s trapIllegal) ∧ exec (.skipnz x) s = .next (trapHere s trapIllegal))

namespace Sys2Proof.Rules

/-- Target of a displacement: the word's address plus 8 × the displacement (R40). -/
def target (s : State) (disp : BitVec 32) : W64 :=
  BitVec.ofInt 64 (s.me.hdr.toNat + 8 * s.me.idx + 8 * disp.toInt)

/-- Whether a header stands at an aligned address that the slot can fetch (R54). -/
def headerAt (s : State) (t : W64) : Prop := t.toNat % 8 = 0 ∧ ∃ h, fetchAt s t = .word h ∧ h.toNat / 2 ^ 56 = 0xFE

/-- Whether an address is no place to go to: misaligned, or holding a word that is no header (R54). -/
def noHeaderAt (s : State) (t : W64) : Prop :=
  t.toNat % 8 ≠ 0 ∨ ∃ h, fetchAt s t = .word h ∧ h.toNat / 2 ^ 56 ≠ 0xFE

/-- A fault message of a thread on a slot stands in the core's injection queue: one flit of kind 0x06 to the receiver of the
core's cluster (R200, R201, R214). -/
def FaultSent (u t : State) (c k : Nat) (thr : Thread) (kind : Nat) (addr : W64) (flags info : Nat) (word : W64) : Prop :=
  ∃ fl : Flit, (t.core c).inject = (u.core c).inject ++ [fl] ∧ fl.kind = 0x06 ∧ fl.part = thr.part ∧ fl.nfl = 0 ∧
    fl.scoreId = c ∧ fl.sslot = k ∧ fl.dcore = faultReceiver u c ∧ fl.drouter = routerOf (faultReceiver u c) ∧
    fl.payload = .svc (.fault addr (BitVec.ofNat 64 (threadId thr)) (u.loc c k) kind flags info word)

/-- An access or fetch of the current word takes the page-fault path: the slot is faulted at the word, with its registers as
they were, and a fault message of a kind goes out (R200, R201). -/
def PageFaults (i : Instr) (s : State) (kind : Nat) (va : W64) (flags : Nat) : Prop :=
  ∃ t, exec i s = .next t ∧ t.cur = s.cur ∧ t.me.st = .faulted ∧ t.me.faultedBy = some .page ∧ t.me.hdr = s.me.hdr ∧
    t.me.idx = s.me.idx ∧ t.me.n = s.me.n ∧ t.me.q = s.me.q ∧ t.me.v = s.me.v ∧ t.me.status = s.me.status ∧
    FaultSent s t s.cur.1 s.cur.2 s.me.thread kind va flags 0 (s.me.hdr + 8 * BitVec.ofNat 64 s.me.idx)

/-- A transfer whose target is no place to go to raises BADTGT, and one whose target page-faults takes that path, with nothing
of the word kept; u is the state in which the target is fetched (R54, R56, R200). -/
def TargetChecked (i : Instr) (s u : State) (t : W64) : Prop :=
  (noHeaderAt u t → exec i s = .next (trapHere s (trapBadtgt t))) ∧
  ∀ fa flags, t.toNat % 8 = 0 → fetchAt u t = .fail (.page fa flags) → PageFaults i s 4 fa flags

/-- The link that CALL and CALLR write: the address after the word (R99). -/
def link (s : State) : W64 := BitVec.ofNat 64 (s.me.hdr.toNat + 8 * s.me.idx + 8)

end Sys2Proof.Rules

/-- A taken branch enters the block at its target where a header stands there, a branch that is not taken goes on, and a
transfer whose target is misaligned or holds no header raises BADTGT with the target as detail, one whose target page-faults
takes the page-fault path; CALL and CALLR, as the last word of a block, write the address after the word to n22 and enter
their target, and are ILLEGAL at any other index; the BADTGT of a CALL comes before the wait for a pending n22 (R54, R56,
R89, R91, R98, R99, R200). -/
def Obligations.TransfersEnterTheirTargetBlock : Prop :=
  (((∀ (x : JmpC) (s : State) (v : Vals), Poised s noOperands v → headerAt s (target s x.disp) →
    exec (.br x) s = .next (delivers s noOperands x.stall .none (.jump (target s x.disp)) false)) ∧
  (∀ (x : JmpA) (s : State) (v : Vals), Poised s (formSrc x.a) v →
    (v.a = 0 ∧ headerAt (consumeAll s (formSrc x.a)) (target s x.disp) →
      exec (.brz x) s = .next (delivers s (formSrc x.a) x.stall .none (.jump (target s x.disp)) false)) ∧
    (v.a ≠ 0 → exec (.brz x) s = .next (delivers s (formSrc x.a) x.stall .none .seq false)) ∧
    (v.a ≠ 0 ∧ headerAt (consumeAll s (formSrc x.a)) (target s x.disp) →
      exec (.brnz x) s = .next (delivers s (formSrc x.a) x.stall .none (.jump (target s x.disp)) false)) ∧
    (v.a = 0 → exec (.brnz x) s = .next (delivers s (formSrc x.a) x.stall .none .seq false))) ∧
  (∀ (x : UnC) (s : State) (v : Vals), Poised s (formSrc x.a) v → headerAt (consumeAll s (formSrc x.a)) v.a →
    exec (.jmpr x) s = .next (delivers s (formSrc x.a) x.stall .none (.jump v.a) false)) ∧
  (∀ (x : BareC) (s : State) (v : Vals), Poised s (formSrc (.n 22)) v → headerAt s v.a →
    (s.me.held = none → v.a = (s.me.nCell 22).val) ∧
    exec (.ret x) s = .next (delivers s (formSrc (.n 22)) x.stall .none (.jump v.a) false))) ∧
  ((∀ (x : JmpC) (s : State) (v : Vals), Poised s noOperands v → TargetChecked (.br x) s s (target s x.disp)) ∧
  (∀ (x : JmpA) (s : State) (v : Vals), Poised s (formSrc x.a) v → let u := consumeAll s (formSrc x.a)
    (v.a = 0 → TargetChecked (.brz x) s u (target s x.disp)) ∧ (v.a ≠ 0 → TargetChecked (.brnz x) s u (target s x.disp))) ∧
  (∀ (x : UnC) (s : State) (v : Vals), Poised s (formSrc x.a) v →
    TargetChecked (.jmpr x) s (consumeAll s (formSrc x.a)) v.a) ∧
  (∀ (x : BareC) (s : State) (v : Vals), Poised s (formSrc (.n 22)) v → TargetChecked (.ret x) s s v.a))) ∧
  ((∀ (x : JmpC) (s : State) (v : Vals), Poised s { noOperands with d := .regs 22 1 } v →
    s.me.idx = hdrLen (s.me.block.headD 0) + 1 → headerAt s (target s x.disp) →
    exec (.call x) s = .next (delivers s { noOperands with d := .regs 22 1 } x.stall (.regs [link s])
      (.jump (target s x.disp)) false)) ∧
  (∀ (x : UnC) (s : State) (v : Vals), Poised s { formSrc x.a with d := .regs 22 1 } v →
    s.me.idx = hdrLen (s.me.block.headD 0) + 1 →
    headerAt (consumeAll s { formSrc x.a with d := .regs 22 1 }) v.a →
    exec (.callr x) s = .next (delivers s { formSrc x.a with d := .regs 22 1 } x.stall (.regs [link s])
      (.jump v.a) false)) ∧
  (∀ (x : JmpC) (s : State) (v : Vals), Poised s { noOperands with d := .regs 22 1 } v →
    s.me.idx = hdrLen (s.me.block.headD 0) + 1 → TargetChecked (.call x) s s (target s x.disp)) ∧
  (∀ (x : UnC) (s : State) (v : Vals), let f : Form := { formSrc x.a with d := .regs 22 1 }
    Poised s f v → s.me.idx = hdrLen (s.me.block.headD 0) + 1 → TargetChecked (.callr x) s (consumeAll s f) v.a) ∧
  (∀ (s : State), s.me.mayIssue = true → s.me.suspect = false → s.me.idx ≠ hdrLen (s.me.block.headD 0) + 1 →
    (∀ x : JmpC, exec (.call x) s = .next (trapHere s trapIllegal)) ∧
    (∀ x : UnC, exec (.callr x) s = .next (trapHere s trapIllegal))) ∧
  (∀ (x : JmpC) (s : State), s.me.mayIssue = true → s.me.suspect = false → s.me.chk = false →
    s.me.idx = hdrLen (s.me.block.headD 0) + 1 → noHeaderAt s (target s x.disp) →
    exec (.call x) s = .next (trapHere s (trapBadtgt (target s x.disp)))))

namespace Sys2Proof.Rules

/-- A number of n bytes of a descriptor from a byte offset on, little-endian (R6). -/
def field (bs : List Byte) (o n : Nat) : Nat :=
  ((List.range n).map (fun i => (bs.getD (o + i) 0).toNat * 256 ^ i)).sum

/-- An extent that reads as 2^32 where it is 0 (R100). -/
def extent (e : Nat) : Nat := if e = 0 then 2 ^ 32 else e

/-- The indices that ITER writes for iteration i (R103). -/
def indices (f : Fetcher) (c : IterCount) (i : Nat) : List W64 :=
  match c with
  | .one => [BitVec.ofNat 64 i]
  | .two => [BitVec.ofNat 64 (i % extent f.e0), BitVec.ofNat 64 (i / extent f.e0)]
  | .three => [BitVec.ofNat 64 (i % extent f.e0), BitVec.ofNat 64 (i / extent f.e0 % extent f.e1),
      BitVec.ofNat 64 (i / (extent f.e0 * extent f.e1))]

/-- The chunk that is left when its first index has been taken. -/
def rest (c : Nat × Nat) : Option (Nat × Nat) := if c.1 + 1 < c.2 then some (c.1 + 1, c.2) else none

/-- The state in which a word's own part runs: its sources taken away, and the thread's earlier REDs performed (R42, R240). -/
def within (s : State) (f : Form) : State := settle (consumeAll s f)

/-- No iteration claim of the current thread is outstanding (R102, R259). -/
def NoClaim (u : State) : Prop := u.me.fetcher.bound = true → u.me.fetcher.claiming = false

/-- No RED and no iteration claim of the current thread is outstanding (R240, R259). -/
def NoRed (u : State) : Prop := (∀ r ∈ u.reds, threadId r.thr ≠ threadId u.me.thread) ∧ NoClaim u

/-- No FENCE of the slot, and no acquire of an HNEW or GQCLM of it, is still to be performed (R273, R320, R353). -/
def Unfenced (u : State) : Prop := u.me.fence = none ∧ ∀ o ∈ u.me.owed, o.val ≠ .waiting

/-- No walk is due for a .GLB address: its line stands in the core's L1 or its page in the cluster's TLB (R189). -/
def Cached (u : State) (a : W64) : Prop :=
  l1Find u u.cur.1 u.me.thread.part u.me.thread.asid (a.toNat / 32) ≠ none ∨
    tlbFind u u.cur.1 u.me.thread.part u.me.thread.asid a.toNat ≠ none

/-- A memory word of the slot at an address has nothing to wait for: no ordering of its slot, and in .GLB no walk (R189,
R273). -/
def Free (u : State) (sp : Space) (a : W64) : Prop := Unfenced u ∧ (sp = .glb → Cached u a)

/-- The operand form of ITER: it pushes nothing and names its registers. -/
def iterForm (x : IterC) : Form := { noOperands with d := .regs x.d.val x.cnt.toNat }

end Sys2Proof.Rules

/-- NEST, once the thread has nothing left to order before it, the claim of a previous binding among it, reads the descriptor as an
acquire at .pk, binds the fetcher with both chunks empty, and starts a claim; ITER hands out the next index, claims again when it
takes the first index of a chunk, which a FENCE of the slot holds back, and branches when the nest is exhausted or no fetcher is
bound (R101, R103, R104, R259, R273). -/
def Obligations.NestBindsAndIterHandsOutIndices : Prop :=
  (∀ (x : UnC) (s : State) (v : Vals) (bs : List Byte), Poised s (formSrc x.a) v → v.a.toNat % 64 = 0 →
    let i := within s (formSrc x.a)
    NoRed i → Free i .glb v.a →
    readGlobal i i.cur.1 i.me.thread needLoad v.a 64 = .ok (bs, false) →
    ∃ t u : State, exec (.nest x) s = .next t ∧
      u = orderAfter i i.cur.1 (.acq .pk) ∧
      t = finish ((u.setMe { u.me with fetcher :=
          { bound := true, desc := v.a, total := field bs 0 8, e0 := field bs 16 4, e1 := field bs 20 4,
            parties := field bs 28 2, guided := field bs 30 2, minc := field bs 32 8, cur := none, next := none,
            claiming := true, failed := false, exhausted := false, word := u.me.wordAddr } }).post
          [.iterationClaim u.cur.1 u.cur.2]) .none x.stall.toNat .none .seq false) ∧
  (∀ (x : IterC) (s : State) (v : Vals), Poised s (iterForm x) v → hdrLoop (s.me.block.headD 0) = true →
    x.d.val + x.cnt.toNat ≤ 24 →
    (s.me.fetcher.bound = false ∨
        (s.me.fetcher.cur = none ∧ s.me.fetcher.next = none ∧ s.me.fetcher.exhausted = true) →
      (headerAt s (target s x.disp) →
        exec (.iter x) s = .next (delivers s (iterForm x) x.stall .none (.jump (target s x.disp)) false)) ∧
      TargetChecked (.iter x) s s (target s x.disp)) ∧
    (∀ c, s.me.fetcher.bound = true → s.me.fetcher.cur = some c →
      exec (.iter x) s = .next (finish (s.setMe { s.me with fetcher := { s.me.fetcher with cur := rest c } })
        (iterForm x).d x.stall.toNat (.regs (indices s.me.fetcher x.cnt c.1)) .seq false)) ∧
    (∀ c, s.me.fetcher.bound = true → s.me.fetcher.cur = none → s.me.fetcher.next = some c →
      (¬ Unfenced s → exec (.iter x) s = .next (parkHere s .result)) ∧
      (Unfenced s → exec (.iter x) s = .next (finish ((s.setMe { s.me with fetcher := { s.me.fetcher with
          cur := rest c, next := none, claiming := true, failed := false, word := s.me.wordAddr } }).post
          [.iterationClaim s.cur.1 s.cur.2])
        (iterForm x).d x.stall.toNat (.regs (indices s.me.fetcher x.cnt c.1)) .seq false))) ∧
    (s.me.fetcher.bound = true → s.me.fetcher.cur = none → s.me.fetcher.next = none → s.me.fetcher.exhausted = false →
      exec (.iter x) s = .next (parkHere s .result)))

/-- NOP only advances; STALLN, YIELD and PARK issue once their turns have passed, or PARK once a message register has become
full, and park with reason sleep before; EXIT waits for the slot's results and its contracting load, and then the slot is
empty, its stream and fetcher bindings are dropped, and no message register of it is full (R105, R106). -/
def Obligations.WaitsAndExitIssueWhenTheyMay : Prop :=
  ((∀ (x : BareI) (s : State) (v : Vals), Poised s noOperands v →
    exec (.nop x) s = .next (delivers s noOperands x.stall .none .seq false)) ∧
  (∀ (x : BareI) (s : State) (v : Vals), Poised s noOperands v →
    (s.me.sleepLeft = some 0 → exec (.yield x) s = .next (delivers s noOperands x.stall .none .seq false)) ∧
    (s.me.sleepLeft = none →
      exec (.yield x) s = .next (parkHere (s.setMe { s.me with sleepLeft := some 1 }) .sleep))) ∧
  (∀ (x : CountI) (s : State) (v : Vals) (left : Nat), Poised s noOperands v → 1 ≤ x.n.toNat →
    left = s.me.sleepLeft.getD (x.n.toNat - (s.me.since - 1)) →
    (left = 0 → exec (.stalln x) s = .next (delivers s noOperands x.stall .none .seq false)) ∧
    (left ≠ 0 → exec (.stalln x) s = .next (parkHere (s.setMe { s.me with sleepLeft := some left }) .sleep)) ∧
    (s.me.msgWake = true ∨ left = 0 → exec (.park x) s = .next (delivers s noOperands x.stall .none .seq false)) ∧
    (s.me.msgWake = false → left ≠ 0 →
      exec (.park x) s = .next (parkHere (s.setMe { s.me with sleepLeft := some left }) .sleep))) ∧
  (∀ (x : CountI) (s : State) (v : Vals), Poised s noOperands v → x.n.toNat = 0 →
    exec (.stalln x) s = .next (trapHere s trapIllegal) ∧
    (s.me.msgWake = true → exec (.park x) s = .next (delivers s noOperands x.stall .none .seq false)) ∧
    (s.me.msgWake = false → exec (.park x) s = .next (parkHere s .sleep)))) ∧
  (∀ (x : BareI) (s : State) (v : Vals), Poised s noOperands v →
    (s.me.anyPending = true → exec (.exit x) s = .next (parkHere s .result)) ∧
    (s.me.anyPending = false → s.me.record.state = .running ∨ s.me.record.state = .faulted →
      exec (.exit x) s = .next (parkHere s .cld)) ∧
    (s.me.anyPending = false → s.me.record.state ≠ .running → s.me.record.state ≠ .faulted →
      s.me.fetcher.claiming = false → s.myCore.isSealed = false →
      ∃ t, exec (.exit x) s = .next t ∧ t.cur = s.cur ∧ t.me.st = .empty ∧ t.me.streams = [] ∧
        t.me.fetcher = Fetcher.reset ∧ ∀ k, (t.me.mreg k).full = false))

/-! ### Scalar floating point -/

namespace Sys2Proof.Rules

/-- The code that a scalar source holds in a layout (R60). -/
def code (f : Fmt) (a : W64) : Nat := a.toNat % 2 ^ fmtWidth f

/-- A two-source FP word delivers the operation of its operands' codes, and notes a signalling NaN (R60, R63, R107). -/
def Fp2Gives (word : Fp2 → Instr) (op : FpOp2) (lat : Nat) : Prop :=
  ∀ (x : Fp2) (s : State) (v : Vals), Poised s (formAB x.a x.b x.d) v →
    let f := fpFmt x.ty
    exec (word x) s = .next (delivers s (formAB x.a x.b x.d) x.stall
      (.one (BitVec.ofNat 64 (fp2 op f x.rm x.ftz (code f v.a) (code f v.b))) lat) .seq
      (isSnan f (code f v.a) || isSnan f (code f v.b)))

/-- FMIN and FMAX, which do not round (R63, R107). -/
def FpMinGives (word : Fp2n → Instr) (op : FpOp2) : Prop :=
  ∀ (x : Fp2n) (s : State) (v : Vals), Poised s (formAB x.a x.b x.d) v →
    let f := fpFmt x.ty
    exec (word x) s = .next (delivers s (formAB x.a x.b x.d) x.stall
      (.one (BitVec.ofNat 64 (fp2 op f .rne x.ftz (code f v.a) (code f v.b))) 0) .seq
      (isSnan f (code f v.a) || isSnan f (code f v.b)))

/-- A one-source FP word (R60, R63, R107). -/
def Fp1Gives (word : Fp1 → Instr) (op : FpOp1) (lat : Nat) : Prop :=
  ∀ (x : Fp1) (s : State) (v : Vals), Poised s (formA x.a x.d) v →
    let f := fpFmt x.ty
    exec (word x) s = .next (delivers s (formA x.a x.d) x.stall
      (.one (BitVec.ofNat 64 (fp1 op f x.rm x.ftz (code f v.a))) lat) .seq (isSnan f (code f v.a)))

/-- A three-source FP word (R60, R63, R107). -/
def Fp3Gives (word : Fp3 → Instr) (op : FpOp3) : Prop :=
  ∀ (x : Fp3) (s : State) (v : Vals), Poised s (formABC x.a x.b x.c x.d) v →
    let f := fpFmt x.ty
    exec (word x) s = .next (delivers s (formABC x.a x.b x.c x.d) x.stall
      (.one (BitVec.ofNat 64 (fp3 op f x.rm x.ftz (code f v.a) (code f v.b) (code f v.c))) 0) .seq
      (isSnan f (code f v.a) || isSnan f (code f v.b) || isSnan f (code f v.c)))

/-- An FP compare writes 1 where its relation holds between the codes, else 0 (R108). -/
def FpCmpGives (word : Fp2n → Instr) (r : FpRel) : Prop :=
  ∀ (x : Fp2n) (s : State) (v : Vals), Poised s (formAB x.a x.b x.d) v →
    let f := fpFmt x.ty
    exec (word x) s = .next (delivers s (formAB x.a x.b x.d) x.stall
      (.one (if fpRel r f x.ftz (code f v.a) (code f v.b) then 1 else 0) 0) .seq
      (isSnan f (code f v.a) || isSnan f (code f v.b)))

/-- Whether a code is a NaN of a layout (R59). -/
def isNan (f : Fmt) (a : Nat) : Prop := a / 2 ^ f.mb % 2 ^ f.eb = 2 ^ f.eb - 1 ∧ a % 2 ^ f.mb ≠ 0

/-- Whether a code is an infinity of a layout (R59). -/
def isInf (f : Fmt) (a : Nat) : Prop := a / 2 ^ f.mb % 2 ^ f.eb = 2 ^ f.eb - 1 ∧ a % 2 ^ f.mb = 0

/-- Whether a code is finite in a layout (R59). -/
def isFinite (f : Fmt) (a : Nat) : Prop := a / 2 ^ f.mb % 2 ^ f.eb ≠ 2 ^ f.eb - 1

/-- The sign bit of a code. -/
def negative (f : Fmt) (a : Nat) : Bool := a / 2 ^ (f.eb + f.mb) % 2 == 1

/-- The magnitude of a finite code: a subnormal reads as zero under .FTZ (R59, R62). -/
def magnitude (f : Fmt) (ftz : Bool) (a : Nat) : ℚ :=
  let ex := a / 2 ^ f.mb % 2 ^ f.eb
  if ex = 0 then if ftz then 0 else (a % 2 ^ f.mb : Nat) * (2 : ℚ) ^ ((1 : Int) - f.bias - f.mb)
  else (a % 2 ^ f.mb + 2 ^ f.mb : Nat) * (2 : ℚ) ^ ((ex : Int) - f.bias - f.mb)

/-- The value of a finite code. -/
def value (f : Fmt) (ftz : Bool) (a : Nat) : ℚ := if negative f a then -magnitude f ftz a else magnitude f ftz a

/-- k is the number y ≥ 0 rounded to an integer in a mode, where the result is negative or not (R61). -/
def RoundsTo (rm : Rm) (neg : Prop) (y : ℝ) (k : Nat) : Prop :=
  let down := (k : ℝ) ≤ y ∧ y < k + 1
  let up := y ≤ k ∧ (k : ℝ) < y + 1
  match rm with
  | .rne => 2 * |y - k| ≤ 1 ∧ (2 * |y - k| = 1 → k % 2 = 0)
  | .rtz => down
  | .rdn => (neg → up) ∧ (¬ neg → down)
  | .rup => (neg → down) ∧ (¬ neg → up)

/-- A code is the number x ≠ 0 rounded once to its layout: in units of the last place of x's binade or of the subnormals,
a finite overflow going to the infinity or the largest finite number by its mode, a subnormal result to zero under .FTZ (R61,
R62). -/
def IsRounded (f : Fmt) (rm : Rm) (ftz : Bool) (x : ℝ) (c : Nat) : Prop :=
  ∃ (e : Int) (k : Nat), (2 : ℝ) ^ e ≤ |x| ∧ |x| < (2 : ℝ) ^ (e + 1) ∧
    let ulp : ℝ := (2 : ℝ) ^ (max e (1 - f.bias) - f.mb)
    RoundsTo rm (x < 0) (|x| / ulp) k ∧ c < 2 ^ fmtWidth f ∧ (negative f c = true ↔ x < 0) ∧
    ((2 : ℝ) ^ ((2 : Int) ^ f.eb - 1 - f.bias) ≤ k * ulp →
      (rm = .rne ∨ (rm = .rdn ∧ x < 0) ∨ (rm = .rup ∧ 0 < x) → isInf f c) ∧
      (rm = .rtz ∨ (rm = .rdn ∧ 0 < x) ∨ (rm = .rup ∧ x < 0) → c % 2 ^ (f.eb + f.mb) = (2 ^ f.eb - 1) * 2 ^ f.mb - 1)) ∧
    ((k : ℝ) * ulp < (2 : ℝ) ^ ((2 : Int) ^ f.eb - 1 - f.bias) →
      isFinite f c ∧ ((magnitude f false c : ℚ) : ℝ) =
        if ftz = true ∧ (k : ℝ) * ulp < (2 : ℝ) ^ ((1 : Int) - f.bias) then 0 else k * ulp)

/-- The sign of an exact zero sum of terms with given signs (R61). -/
def zeroSign (rm : Rm) (a b : Bool) : Bool := if a = b then a else rm = .rdn

/-- The canonical quiet NaN of an FP type (R59). -/
def canonicalNan : FpTy → Nat
  | .f64 => 0x7FF8000000000000
  | .f32 => 0x7FC00000
  | .f16 => 0x7E00
  | .bf16 => 0x7FC0

end Sys2Proof.Rules

/-- Every scalar FP word completes, with the latency of R84 and the sticky bit for a signalling NaN: arithmetic, minima and
maxima, estimates, fused products, compares and class masks (R107, R108). -/
def Obligations.FpWordsDeliverTheirOperation : Prop :=
  Fp2Gives .fadd .add 0 ∧ Fp2Gives .fsub .sub 0 ∧ Fp2Gives .fmul .mul 0 ∧ Fp2Gives .fdiv .div 2 ∧
  FpMinGives .fmin .min ∧ FpMinGives .fmax .max ∧
  Fp1Gives .fsqrt .sqrt 2 ∧ Fp1Gives .frcp .rcp 1 ∧ Fp1Gives .frsq .rsq 1 ∧ Fp1Gives .flog2 .log2 1 ∧
  Fp1Gives .fexp2 .exp2 1 ∧
  Fp3Gives .fma .fma ∧ Fp3Gives .fms .fms ∧ Fp3Gives .fnma .fnma ∧
  FpCmpGives .fceq .eq ∧ FpCmpGives .fclt .lt ∧ FpCmpGives .fcle .le ∧ FpCmpGives .fcun .un ∧
  (∀ (x : Fp1n) (s : State) (v : Vals), Poised s (formA x.a x.d) v →
    let f := fpFmt x.ty
    exec (.fclass x) s = .next (delivers s (formA x.a x.d) x.stall
      (.one (BitVec.ofNat 64 (fpClass f (code f v.a))) 0) .seq (isSnan f (code f v.a))))

/-- On finite operands an FP word's result is the exact value rounded once in its mode, an exact zero taking the sign that the
manual gives it; infinities yield their limits; a NaN operand and each invalid operation give the canonical quiet NaN; FMIN and
FMAX choose an operand; comparisons compare the values, those with a NaN are false, and −0 equals +0; FCLASS sets the bit of
the operand's class; one rounding of m × 2^e to a multiple of 2^q goes
to the nearest with ties to even, toward zero, −∞ or +∞. FLOG2 and FEXP2 are tied to their values where these are powers of two
or integers; log 8 says how the model finds the others (R59, R61, R62, R63, R107, R108). -/
def Obligations.FpResultsAreRoundedOnceAndNansCanonical : Prop :=
  (∀ (ty : FpTy) (rm : Rm) (ftz : Bool) (a b c : Nat) (f : Fmt), f = fpFmt ty →
    let x := value f ftz a
    let y := value f ftz b
    let z := value f ftz c
    let A := negative f a
    let B := negative f b
    let C := negative f c
    (isFinite f a → isFinite f b →
      (x + y ≠ 0 → IsRounded f rm ftz (x + y : ℚ) (fp2 .add f rm ftz a b)) ∧
      (x + y = 0 → fp2 .add f rm ftz a b = signed f (zeroSign rm A B) 0) ∧
      (x - y ≠ 0 → IsRounded f rm ftz (x - y : ℚ) (fp2 .sub f rm ftz a b)) ∧
      (x - y = 0 → fp2 .sub f rm ftz a b = signed f (zeroSign rm A !B) 0) ∧
      (x * y ≠ 0 → IsRounded f rm ftz (x * y : ℚ) (fp2 .mul f rm ftz a b)) ∧
      (x * y = 0 → fp2 .mul f rm ftz a b = signed f (A != B) 0) ∧
      (x ≠ 0 → y ≠ 0 → IsRounded f rm ftz (x / y : ℚ) (fp2 .div f rm ftz a b)) ∧
      (x ≠ 0 → y = 0 → fp2 .div f rm ftz a b = signed f (A != B) (infCode f)) ∧
      (x = 0 → y ≠ 0 → fp2 .div f rm ftz a b = signed f (A != B) 0) ∧
      value f false (fp2 .min f .rne ftz a b) = min x y ∧ value f false (fp2 .max f .rne ftz a b) = max x y ∧
      (fpRel .eq f ftz a b = true ↔ x = y) ∧ (fpRel .lt f ftz a b = true ↔ x < y) ∧ (fpRel .le f ftz a b = true ↔ x ≤ y) ∧
      (isFinite f c →
        (x * y + z ≠ 0 → IsRounded f rm ftz (x * y + z : ℚ) (fp3 .fma f rm ftz a b c)) ∧
        (x * y + z = 0 → fp3 .fma f rm ftz a b c = signed f (zeroSign rm (A != B) C) 0) ∧
        (x * y - z ≠ 0 → IsRounded f rm ftz (x * y - z : ℚ) (fp3 .fms f rm ftz a b c)) ∧
        (x * y - z = 0 → fp3 .fms f rm ftz a b c = signed f (zeroSign rm (A != B) !C) 0) ∧
        (-(x * y) + z ≠ 0 → IsRounded f rm ftz (-(x * y) + z : ℚ) (fp3 .fnma f rm ftz a b c)) ∧
        (-(x * y) + z = 0 → fp3 .fnma f rm ftz a b c = signed f (zeroSign rm (A == B) C) 0))) ∧
    (isFinite f a →
      (0 < x → IsRounded f rm ftz (Real.sqrt x) (fp1 .sqrt f rm ftz a) ∧
        IsRounded f rm ftz (1 / Real.sqrt x) (fp1 .rsq f rm ftz a)) ∧
      (x ≠ 0 → IsRounded f rm ftz (1 / x : ℚ) (fp1 .rcp f rm ftz a)) ∧
      (x = 0 → fp1 .sqrt f rm ftz a = signed f A 0 ∧ fp1 .rsq f rm ftz a = signed f A (infCode f) ∧
        fp1 .rcp f rm ftz a = signed f A (infCode f) ∧ fp1 .log2 f rm ftz a = signed f true (infCode f)) ∧
      (x < 0 → ∀ op ∈ [FpOp1.sqrt, .rsq, .log2], fp1 op f rm ftz a = canonicalNan ty) ∧
      (∀ k : Int, (x = (2 : ℚ) ^ k → k ≠ 0 → IsRounded f rm ftz k (fp1 .log2 f rm ftz a)) ∧
        (x = (2 : ℚ) ^ k → k = 0 → fp1 .log2 f rm ftz a = 0) ∧
        (x = k → IsRounded f rm ftz ((2 : ℝ) ^ k) (fp1 .exp2 f rm ftz a)))) ∧
    (isInf f a →
      (isFinite f b → fpRel .eq f ftz a b = false ∧ fpRel .eq f ftz b a = false ∧ fpRel .lt f ftz a b = A ∧
        fpRel .le f ftz a b = A ∧ fpRel .lt f ftz b a = !A ∧ fpRel .le f ftz b a = !A) ∧
      (isInf f b → fpRel .eq f ftz a b = (A == B) ∧ fpRel .lt f ftz a b = (A && !B) ∧ fpRel .le f ftz a b = (A || !B)) ∧
      (isFinite f b → fp2 .add f rm ftz a b = signed f A (infCode f) ∧ fp2 .add f rm ftz b a = signed f A (infCode f) ∧
        fp2 .sub f rm ftz a b = signed f A (infCode f) ∧ fp2 .sub f rm ftz b a = signed f (!A) (infCode f) ∧
        fp2 .div f rm ftz a b = signed f (A != B) (infCode f) ∧ fp2 .div f rm ftz b a = signed f (A != B) 0 ∧
        (y ≠ 0 → fp2 .mul f rm ftz a b = signed f (A != B) (infCode f) ∧ fp2 .mul f rm ftz b a = signed f (A != B) (infCode f)) ∧
        (y = 0 → fp2 .mul f rm ftz a b = canonicalNan ty ∧ fp2 .mul f rm ftz b a = canonicalNan ty ∧
          ∀ op, fp3 op f rm ftz a b c = canonicalNan ty ∧ fp3 op f rm ftz b a c = canonicalNan ty)) ∧
      (isInf f b → fp2 .mul f rm ftz a b = signed f (A != B) (infCode f) ∧ fp2 .div f rm ftz a b = canonicalNan ty ∧
        (A = B → fp2 .add f rm ftz a b = signed f A (infCode f) ∧ fp2 .sub f rm ftz a b = canonicalNan ty) ∧
        (A ≠ B → fp2 .add f rm ftz a b = canonicalNan ty ∧ fp2 .sub f rm ftz a b = signed f A (infCode f))) ∧
      (isInf f c → isInf f b ∨ (isFinite f b ∧ y ≠ 0) →
        let P := (A != B)
        fp3 .fma f rm ftz a b c = (if P = C then signed f P (infCode f) else canonicalNan ty) ∧
        fp3 .fms f rm ftz a b c = (if P = C then canonicalNan ty else signed f P (infCode f)) ∧
        fp3 .fnma f rm ftz a b c = (if P = C then canonicalNan ty else signed f C (infCode f))) ∧
      (isFinite f c → isInf f b ∨ (isFinite f b ∧ y ≠ 0) →
        fp3 .fma f rm ftz a b c = signed f (A != B) (infCode f) ∧ fp3 .fms f rm ftz a b c = signed f (A != B) (infCode f) ∧
        fp3 .fnma f rm ftz a b c = signed f (A == B) (infCode f)) ∧
      fp1 .rcp f rm ftz a = signed f A 0 ∧
      (A = true → (∀ op ∈ [FpOp1.sqrt, .rsq, .log2], fp1 op f rm ftz a = canonicalNan ty) ∧ fp1 .exp2 f rm ftz a = 0) ∧
      (A = false → (∀ op ∈ [FpOp1.sqrt, .log2, .exp2], fp1 op f rm ftz a = infCode f) ∧ fp1 .rsq f rm ftz a = 0)) ∧
    (isNan f a → fpClass f a = if a / 2 ^ (f.mb - 1) % 2 = 0 then 2 ^ 8 else 2 ^ 9) ∧
    (isInf f a → fpClass f a = if A then 2 ^ 0 else 2 ^ 7) ∧
    (isFinite f a → fpClass f a =
      if a / 2 ^ f.mb % 2 ^ f.eb ≠ 0 then if A then 2 ^ 1 else 2 ^ 6
      else if a % 2 ^ f.mb ≠ 0 then if A then 2 ^ 2 else 2 ^ 5
      else if A then 2 ^ 3 else 2 ^ 4) ∧
    (isFinite f a → isFinite f b → isInf f c →
      fp3 .fma f rm ftz a b c = signed f C (infCode f) ∧ fp3 .fms f rm ftz a b c = signed f (!C) (infCode f) ∧
      fp3 .fnma f rm ftz a b c = signed f C (infCode f)) ∧
    (isNan f a ∨ isNan f b →
      (∀ op ∈ [FpOp2.add, .sub, .mul, .div], fp2 op f rm ftz a b = canonicalNan ty) ∧
      (∀ op, fp3 op f rm ftz a b c = canonicalNan ty) ∧
      fpRel .eq f ftz a b = false ∧ fpRel .lt f ftz a b = false ∧ fpRel .le f ftz a b = false) ∧
    (isNan f c → ∀ op, fp3 op f rm ftz a b c = canonicalNan ty) ∧
    (isNan f a → (∀ op ∈ [FpOp1.sqrt, .rcp, .rsq, .log2, .exp2], fp1 op f rm ftz a = canonicalNan ty) ∧
      (isNan f b → ∀ op ∈ [FpOp2.min, .max], fp2 op f .rne ftz a b = canonicalNan ty) ∧
      (¬ isNan f b → b < 2 ^ fmtWidth f → ftz = false → ∀ op ∈ [FpOp2.min, .max],
        fp2 op f .rne ftz a b = b ∧ fp2 op f .rne ftz b a = b)) ∧
    (fpRel .un f ftz a b = true ↔ isNan f a ∨ isNan f b) ∧
    fpRel .eq f ftz (2 ^ (f.eb + f.mb)) 0 = true ∧
    fp2 .min f .rne ftz (2 ^ (f.eb + f.mb)) 0 = 2 ^ (f.eb + f.mb) ∧ fp2 .max f .rne ftz (2 ^ (f.eb + f.mb)) 0 = 0 ∧
    fp2 .div f rm ftz 0 0 = canonicalNan ty) ∧
  (∀ (neg : Bool) (m k : Nat) (e q : Int), q = e + k →
    (∀ r, r = roundAt .rne neg m e q →
      2 * r * 2 ^ k ≤ 2 * m + 2 ^ k ∧ 2 * m ≤ 2 * r * 2 ^ k + 2 ^ k ∧
        (2 * r * 2 ^ k = 2 * m + 2 ^ k ∨ 2 * m = 2 * r * 2 ^ k + 2 ^ k → r % 2 = 0)) ∧
    (∀ r, r = roundAt .rtz neg m e q →
      r * 2 ^ k ≤ m ∧ m < (r + 1) * 2 ^ k) ∧
    (∀ r, r = roundAt .rdn neg m e q →
      if neg then m ≤ r * 2 ^ k ∧ r * 2 ^ k < m + 2 ^ k else r * 2 ^ k ≤ m ∧ m < (r + 1) * 2 ^ k) ∧
    (∀ r, r = roundAt .rup neg m e q →
      if neg then r * 2 ^ k ≤ m ∧ m < (r + 1) * 2 ^ k else m ≤ r * 2 ^ k ∧ r * 2 ^ k < m + 2 ^ k))

/-! ### Vectors -/

namespace Sys2Proof.Rules

/-- Bits that an element occupies: a pair of lanes at 64 bits, else a lane (R115). -/
def slotBits (w : Nat) : Nat := if w = 64 then 64 else 32

/-- The bits of a register that element e occupies. -/
def held (w : Nat) (v : VImage) (e : Nat) : Nat := v.toNat / 2 ^ (slotBits w * e) % 2 ^ slotBits w

/-- Element e of a register: the upper bits of its lane are ignored (R115). -/
def element (w : Nat) (v : VImage) (e : Nat) : Nat := held w v e % 2 ^ w

/-- Whether a mask operand enables element e: the code z enables every element (R117). -/
def enables (k : Src) (v : W64) (e : Nat) : Prop := e < 32 ∧ (k = .z ∨ v.getLsbD e = true)

/-- A register in which each enabled element holds its value and each disabled one its previous bits (R117). -/
def Lanes (w : Nat) (k : Src) (m : W64) (old new : VImage) (val : Nat → Nat) : Prop :=
  ∀ e < 1024 / slotBits w, (enables k m e → held w new e = val e % 2 ^ slotBits w) ∧
    (¬ enables k m e → held w new e = held w old e)

/-- Whether an enabled element of a source is a signalling NaN (R118). -/
def anySignals (f : Fmt) (k : Src) (m : W64) (v : VImage) : Prop :=
  ∃ e < 1024 / slotBits (fmtWidth f), enables k m e ∧ isSnan f (element (fmtWidth f) v e) = true

/-- A word whose vector destination d takes values lane by lane, after `lat` extra turns. -/
def VecGives (i : Instr) (s : State) (f : Form) (stall : BitVec 3) (w : Nat) (k : Src) (m : W64) (d : VReg) (lat : Nat)
    (val : Nat → Nat) (snan : Prop) : Prop :=
  ∃ (r : VImage) (sn : Bool), Lanes w k m (s.me.vCell d.val).val r val ∧ (sn = true ↔ snan) ∧
    exec i s = .next (delivers s f stall (.vec r lat) .seq sn)

/-- A two-source vector FP word (R119). -/
def V2Gives (word : V2 → Instr) (op : FpOp2) (lat : Nat) : Prop :=
  ∀ (x : V2) (s : State) (v : Vals), Poised s (formVV x.a x.b x.d x.k) v →
    let f := fpFmt x.ty
    let w := fmtWidth f
    VecGives (word x) s (formVV x.a x.b x.d x.k) x.stall w x.k v.k x.d lat
      (fun e => fp2 op f x.rm x.ftz (element w v.va e) (element w v.vb e))
      (anySignals f x.k v.k v.va ∨ anySignals f x.k v.k v.vb)

/-- VMIN and VMAX (R119). -/
def VMinGives (word : V2n → Instr) (op : FpOp2) : Prop :=
  ∀ (x : V2n) (s : State) (v : Vals), Poised s (formVV x.a x.b x.d x.k) v →
    let f := fpFmt x.ty
    let w := fmtWidth f
    VecGives (word x) s (formVV x.a x.b x.d x.k) x.stall w x.k v.k x.d 0
      (fun e => fp2 op f .rne x.ftz (element w v.va e) (element w v.vb e))
      (anySignals f x.k v.k v.va ∨ anySignals f x.k v.k v.vb)

/-- A one-source vector FP word (R119). -/
def V1Gives (word : V1 → Instr) (op : FpOp1) : Prop :=
  ∀ (x : V1) (s : State) (v : Vals), Poised s (formV x.a x.d x.k) v →
    let f := fpFmt x.ty
    let w := fmtWidth f
    VecGives (word x) s (formV x.a x.d x.k) x.stall w x.k v.k x.d 2
      (fun e => fp1 op f x.rm x.ftz (element w v.va e)) (anySignals f x.k v.k v.va)

/-- A fused vector FP word (R119). -/
def V3Gives (word : V3 → Instr) (op : FpOp3) : Prop :=
  ∀ (x : V3) (s : State) (v : Vals), Poised s (formVVV x.a x.b x.c x.d x.k) v →
    let f := fpFmt x.ty
    let w := fmtWidth f
    VecGives (word x) s (formVVV x.a x.b x.c x.d x.k) x.stall w x.k v.k x.d 0
      (fun e => fp3 op f x.rm x.ftz (element w v.va e) (element w v.vb e) (element w v.vc e))
      (anySignals f x.k v.k v.va ∨ anySignals f x.k v.k v.vb ∨ anySignals f x.k v.k v.vc)

/-- Element e as a signed integer. -/
def selement (w : Nat) (v : VImage) (e : Nat) : Int := Int.bmod (element w v e) (2 ^ w)

/-- A vector integer word: each enabled element is computed modulo 2^w and sign-extended in its lane (R115, R120). -/
def VIntGives (word : VI2 → Instr) (val : Nat → VImage → VImage → Nat → Int) : Prop :=
  ∀ (x : VI2) (s : State) (v : Vals), Poised s (formVV x.a x.b x.d x.k) v →
    let w := width4 x.w
    VecGives (word x) s (formVV x.a x.b x.d x.k) x.stall w x.k v.k x.d 0
      (fun e => (wrap w (val w v.va v.vb e)).toNat) False

/-- A vector compare: bit e of the scalar result (R121). -/
def VRelGives (word : VCmp → Instr) (r : FpRel) : Prop :=
  ∀ (x : VCmp) (s : State) (v : Vals), Poised s (formVVS x.a x.b x.d x.k) v →
    let f := numFmt x.ty
    let w := fmtWidth f
    ∃ (b : W64) (sn : Bool), (∀ e, b.getLsbD e = true ↔ e < 1024 / slotBits w ∧ enables x.k v.k e ∧
        fpRel r f x.ftz (element w v.va e) (element w v.vb e) = true) ∧
      (sn = true ↔ anySignals f x.k v.k v.va ∨ anySignals f x.k v.k v.vb) ∧
      exec (word x) s = .next (delivers s (formVVS x.a x.b x.d x.k) x.stall (.one b 0) .seq sn)

/-- The enabled elements of a source in order, as codes: none where an element is disabled. -/
def inputs (f : Fmt) (ftz : Bool) (k : Src) (m : W64) (v : VImage) : List (Option Nat) :=
  (List.range (1024 / slotBits (fmtWidth f))).map (fun e =>
    if k = .z ∨ m.getLsbD e = true then some (asRead f ftz (element (fmtWidth f) v e)) else none)

/-- The pairwise tree of R72 over 2^n inputs: the lower half and the upper half, and a node with one excluded child passes
the other on. -/
def tree (op : Nat → Nat → Nat) : Nat → List (Option Nat) → Option Nat
  | 0, l => l.headD none
  | n + 1, l => match tree op n (l.take (2 ^ n)), tree op n (l.drop (2 ^ n)) with
    | some x, some y => some (op x y)
    | some x, none => some x
    | none, y => y

/-- The running sums of R123. -/
def running (f : Fmt) (rm : Rm) (ftz : Bool) : List Nat → Nat
  | [] => 0
  | c :: cs => cs.foldl (fp2 .add f rm ftz) (asRead f ftz c)

/-- The enabled elements among the first n, as numbers of their places. -/
def enabledBelow (k : Src) (m : W64) (n : Nat) : List Nat := (List.range n).filter (fun e => k = .z ∨ m.getLsbD e = true)

/-- The candidates of a ranking: values and places of the enabled elements (R125, R126, R129). -/
def candidates (f : Fmt) (ftz : Bool) (k : Src) (m : W64) (v : VImage) : List (Machine.Num × Nat) :=
  (enabledBelow k m (1024 / slotBits (fmtWidth f))).map (fun e => (unpack f ftz (element (fmtWidth f) v e), e))

/-- x has the greater magnitude, a NaN above every number (R128). -/
def greater (x y : Machine.Num) : Prop :=
  match x, y with
  | .nan, y => y ≠ .nan
  | .inf _, .fin _ _ _ => True
  | .fin _ m e, .fin _ n g => (n : ℚ) * (2 : ℚ) ^ g < (m : ℚ) * (2 : ℚ) ^ e
  | _, _ => False

/-- The ranking of R125: numbers above NaNs, the greater value above the less with −0 below +0, the lower index among equals. -/
def RanksByValue (x y : Machine.Num) (i j : Nat) (r : Bool) : Prop :=
  match x, y with
  | .nan, .nan => r = decide (i < j)
  | .nan, _ => r = false
  | _, .nan => r = true
  | .inf s, .inf t => r = if s = t then decide (i < j) else t
  | .inf s, .fin _ _ _ => r = !s
  | .fin _ _ _, .inf t => r = t
  | .fin s m e, .fin t n g =>
    let a := (if s then -1 else 1) * (m : ℚ) * (2 : ℚ) ^ e
    let b := (if t then -1 else 1) * (n : ℚ) * (2 : ℚ) ^ g
    (b < a → r = true) ∧ (a < b → r = false) ∧ (a = b → r = if s = t then decide (i < j) else t)

end Sys2Proof.Rules

/-- Vector FP arithmetic applies the scalar operation to each enabled element, and a disabled element keeps its bits
(R117, R118, R119). -/
def Obligations.VectorFpActsOnEnabledElements : Prop :=
  V2Gives .vadd .add 0 ∧ V2Gives .vsub .sub 0 ∧ V2Gives .vmul .mul 0 ∧ V2Gives .vdiv .div 2 ∧
  VMinGives .vmin .min ∧ VMinGives .vmax .max ∧
  V1Gives .vsqrt .sqrt ∧ V1Gives .vrcp .rcp ∧ V1Gives .vrsq .rsq ∧ V1Gives .vlog2 .log2 ∧ V1Gives .vexp2 .exp2 ∧
  V3Gives .vfma .fma ∧ V3Gives .vfms .fms

/-- Vector integer arithmetic wraps in each enabled element and sign-extends it in its lane (R115, R117, R120). -/
def Obligations.VectorIntegersWrapInTheirLanes : Prop :=
  VIntGives .viadd (fun w a b e => element w a e + element w b e) ∧
  VIntGives .visub (fun w a b e => element w a e - element w b e) ∧
  VIntGives .vimul (fun w a b e => element w a e * element w b e) ∧
  VIntGives .vand (fun w a b e => (element w a e &&& element w b e : Nat)) ∧
  VIntGives .vor (fun w a b e => (element w a e ||| element w b e : Nat)) ∧
  VIntGives .vxor (fun w a b e => (element w a e ^^^ element w b e : Nat)) ∧
  VIntGives .vshl (fun w a b e => element w a e * 2 ^ (element w b e % w)) ∧
  VIntGives .vshr (fun w a b e => element w a e / 2 ^ (element w b e % w)) ∧
  VIntGives .vimin (fun w a b e => min (selement w a e) (selement w b e)) ∧
  VIntGives .vimax (fun w a b e => max (selement w a e) (selement w b e))

/-- Vector compares write one bit per enabled element; VSEL chooses by the bits of C; VLANE reads one element; VSPLAT, VINS
and VPERM move elements (R117, R121, R124). -/
def Obligations.VectorComparesAndMoves : Prop :=
  VRelGives .vceq .eq ∧ VRelGives .vclt .lt ∧ VRelGives .vcle .le ∧ VRelGives .vcun .un ∧
  (∀ (x : VSelR) (s : State) (v : Vals), let g : Form := { formVV x.a x.b x.d x.k with c := .s x.c }
    Poised s g v →
    let w := width x.w
    VecGives (.vsel x) s g x.stall w x.k v.k x.d 0
      (fun e => if v.c.getLsbD e then element w v.va e else element w v.vb e) False) ∧
  (∀ (x : VSplatR) (s : State) (v : Vals), let g : Form := { noOperands with a := .s x.a, k := .s x.k, d := .v x.d }
    Poised s g v →
    let w := width x.w
    VecGives (.vsplat x) s g x.stall w x.k v.k x.d 0 (fun _ => low w v.a) False) ∧
  (∀ (x : VLaneR) (s : State) (v : Vals),
    let g : Form := { noOperands with a := .v x.a, b := .s x.b, k := .s x.k, d := .s x.d }
    Poised s g v →
    let w := width x.w
    let i := v.b.toNat % (1024 / slotBits w)
    ∃ r : Nat, (enables x.k v.k i → r = element w v.va i) ∧ (¬ enables x.k v.k i → r = 0) ∧
      exec (.vlane x) s = .next (delivers s g x.stall (.one (BitVec.ofNat 64 r) 0) .seq false)) ∧
  (∀ (x : VInsR) (s : State) (v : Vals),
    let g : Form := { a := .v x.a, b := .s x.b, c := .s x.c, k := .s x.k, d := .v x.d, imm := 0 }
    Poised s g v →
    let w := width x.w
    VecGives (.vins x) s g x.stall w x.k v.k x.d 0
      (fun e => if e = v.c.toNat % (1024 / slotBits w) then low w v.b else element w v.va e) False) ∧
  (∀ (x : VPermR) (s : State) (v : Vals), Poised s (formVV x.a x.b x.d x.k) v →
    let w := width x.w
    VecGives (.vperm x) s (formVV x.a x.b x.d x.k) x.stall w x.k v.k x.d 0
      (fun e => element w v.va (element w v.vb e % (1024 / slotBits w))) False)

/-- VRED sums or ranks over the pairwise tree of R72 and VSCAN in lane order; VRMAXI pushes the winner and then its index, or
the canonical NaN and all ones; VSELK marks the k highest; VMAXI keeps the winner of each pair; VCMPR keeps the two of each
four elements that are greatest in magnitude; numbers rank above NaNs, greater values above less, +0 above −0, and the lower
index among equals (R72, R73, R84, R122, R123, R125–R129). That .FTZ flushes at every node of the tree and in every running value
is the model's choice (log 38). -/
def Obligations.ReductionsAndRankingsFollowTheirOrder : Prop :=
  ((∀ (x : VRedR) (s : State) (v : Vals), Poised s (formVS x.a x.d x.k) v →
      let f := numFmt x.ty
      let node := match x.op with
      | .add => fp2 .add f x.rm x.ftz
      | .min => fp2 .min f .rne x.ftz
      | .max => fp2 .max f .rne x.ftz
      let empty := match x.op with
      | .add => 0
      | .min => infCode f
      | .max => signed f true (infCode f)
    ∃ sn : Bool, (sn = true ↔ anySignals f x.k v.k v.va) ∧
      exec (.vred x) s = .next (delivers s (formVS x.a x.d x.k) x.stall
        (.one (BitVec.ofNat 64 ((tree node (if fmtWidth f = 64 then 4 else 5) (inputs f x.ftz x.k v.k v.va)).getD empty)) 1)
        .seq sn)) ∧
  (∀ (x : VScanR) (s : State) (v : Vals), Poised s (formV x.a x.d x.k) v →
    let f := numFmt x.ty
    let w := fmtWidth f
    VecGives (.vscan x) s (formV x.a x.d x.k) x.stall w x.k v.k x.d 1
      (fun e => running f x.rm x.ftz ((enabledBelow x.k v.k (e + 1)).map (element w v.va))) (anySignals f x.k v.k v.va))) ∧
  ((∀ (x : VRmaxR) (s : State) (v : Vals), Poised s (formVS x.a x.d x.k) v →
    let f := numFmt x.ty
    ∃ sn : Bool, (sn = true ↔ anySignals f x.k v.k v.va) ∧
      exec (.vrmaxi x) s = .next (delivers s (formVS x.a x.d x.k) x.stall
        (match winner (candidates f x.ftz x.k v.k v.va) with
          | some c => .two (BitVec.ofNat 64 (pack f .rne false c.1)) (BitVec.ofNat 64 c.2) 1
          | none => .two (BitVec.ofNat 64 (nanCode f)) 0xFFFFFFFFFFFFFFFF 1) .seq sn)) ∧
  (∀ (x : VSelkR) (s : State) (v : Vals),
    let g : Form := { noOperands with a := .v x.a, b := .s x.b, k := .s x.k, d := .s x.d }
    Poised s g v →
    let f := rankFmt x.ty
    let l := candidates f x.ftz x.k v.k v.va
    ∃ (b : W64) (sn : Bool), (sn = true ↔ anySignals f x.k v.k v.va) ∧
      (∀ e, b.getLsbD e = true ↔ ∃ c ∈ l, c.2 = e ∧ (l.filter (fun y => y.2 != c.2 && ranksAbove y c)).length < v.b.toNat) ∧
      exec (.vselk x) s = .next (delivers s g x.stall (.one b 1) .seq sn)) ∧
  (∀ (x : VRankR) (s : State) (v : Vals), Poised s (formVV x.a x.b x.d x.k) v →
    let f := rankFmt x.ty
    ∃ (r : VImage) (sn : Bool),
      (∀ i < 16, (enables x.k v.k i →
          held 64 r i = (let a := (unpack f x.ftz (held 32 v.va (2 * i)), held 32 v.va (2 * i + 1))
            let b := (unpack f x.ftz (held 32 v.vb (2 * i)), held 32 v.vb (2 * i + 1))
            let c := if ranksAbove b a then b else a
            pack f .rne false c.1 + 2 ^ 32 * c.2)) ∧
        (¬ enables x.k v.k i → held 64 r i = held 64 (s.me.vCell x.d.val).val i)) ∧
      (sn = true ↔ ∃ i < 16, enables x.k v.k i ∧ (isSnan f (held 32 v.va (2 * i) % 2 ^ fmtWidth f) = true ∨
        isSnan f (held 32 v.vb (2 * i) % 2 ^ fmtWidth f) = true)) ∧
      exec (.vmaxi x) s = .next (delivers s (formVV x.a x.b x.d x.k) x.stall (.vec r 0) .seq sn)) ∧
  (∀ (x : VRankR) (s : State) (v : Vals), Poised s (formVV x.a x.b x.d x.k) v →
    let f := rankFmt x.ty
    let old := (s.me.vCell x.d.val).val
    ∃ (r : VImage) (sn : Bool),
      (∀ g < 8, let c := keptPair f x.ftz v.vb g
        (enables x.k v.k g → held 32 r (2 * g) = held 32 v.va (4 * g + c.1) ∧
          held 32 r (2 * g + 1) = held 32 v.va (4 * g + c.2) ∧ held 32 r 16 / 16 ^ g % 16 = c.2 * 4 + c.1) ∧
        (¬ enables x.k v.k g → held 32 r (2 * g) = held 32 old (2 * g) ∧
          held 32 r (2 * g + 1) = held 32 old (2 * g + 1) ∧
          held 32 r 16 / 16 ^ g % 16 = held 32 old 16 / 16 ^ g % 16)) ∧
      (∀ i, 17 ≤ i → i < 32 → held 32 r i = 0) ∧
      (sn = true ↔ ∃ g < 8, enables x.k v.k g ∧ ∃ p < 4, isSnan f (held 32 v.vb (4 * g + p) % 2 ^ fmtWidth f) = true) ∧
      exec (.vcmpr x) s = .next (delivers s (formVV x.a x.b x.d x.k) x.stall (.vec r 1) .seq sn))) ∧
  ((∀ (x y : Machine.Num) (i j : Nat), RanksByValue x y i j (ranksAbove (x, i) (y, j))) ∧
  (∀ (l : List (Machine.Num × Nat)) (c : Machine.Num × Nat), (∀ x ∈ l, ∀ y ∈ l, x.2 = y.2 → x = y) →
    (winner l = some c ↔ c ∈ l ∧ ∀ d ∈ l, d ≠ c → ranksAbove c d = true)) ∧
  (∀ (f : Fmt) (ftz : Bool) (b : VImage) (g : Nat), let c := keptPair f ftz b g
    let x (p : Nat) : Machine.Num := unpack f ftz (held 32 b (4 * g + p) % 2 ^ fmtWidth f)
    let above (p q : Nat) : Prop := greater (x p) (x q) ∨ (¬ greater (x q) (x p) ∧ p < q)
    c.1 < c.2 ∧ c.2 < 4 ∧ ∀ q < 4, q ≠ c.1 → q ≠ c.2 → above c.1 q ∧ above c.2 q))

namespace Sys2Proof.Rules

/-- What the element that a conversion reads stands for: a number with its sign, or an integer of an integer kind. -/
inductive Source where
  | nan
  | inf (neg : Bool)
  | real (neg : Bool) (x : ℚ)
  | int (w : Nat) (sg : Bool) (v : Int)

/-- An integer read as a number. -/
def Source.number : Source → Source
  | .int _ _ v => .real (v < 0) v
  | x => x

/-- A number of the model. -/
def ofNum : Machine.Num → Source
  | .nan => .nan
  | .inf s => .inf s
  | .fin s m e => .real s ((if s then -1 else 1) * (m : ℚ) * (2 : ℚ) ^ e)

/-- A code of an IEEE layout (R59, R62). -/
def ieeeSource (f : Fmt) (ftz : Bool) (a : Nat) : Source :=
  if a / 2 ^ f.mb % 2 ^ f.eb = 2 ^ f.eb - 1 then if a % 2 ^ f.mb = 0 then .inf (negative f a) else .nan
  else .real (negative f a) (value f ftz a)

/-- A code of a narrow format (R65). -/
def narrowSource (n : Narrow) (topx : Bool) (c : Nat) : Source :=
  let s : Bool := n.sign && c / 2 ^ (n.eb + n.mb) % 2 == 1
  let sg : ℚ := if s then -1 else 1
  let e := c / 2 ^ n.mb % 2 ^ n.eb
  let m := c % 2 ^ n.mb
  if n.eb = 0 then .real s (((if s then (m : ℚ) - 2 ^ n.mb else m) : ℚ) * (2 : ℚ) ^ (-n.bias))
  else if 4 ≤ n.eb ∧ topx = false ∧ e = 2 ^ n.eb - 1 then if m = 0 then .inf s else .nan
  else if 4 ≤ n.eb ∧ topx = true ∧ e = 2 ^ n.eb - 1 ∧ m = 2 ^ n.mb - 1 then .nan
  else if e = 0 then .real s (if n.sub then sg * (m : ℚ) * (2 : ℚ) ^ (1 - n.bias - n.mb) else 0)
  else .real s (sg * ((m + 2 ^ n.mb : Nat) : ℚ) * (2 : ℚ) ^ ((e : Int) - n.bias - n.mb))

/-- The low bits of an operand read in a kind that is not narrow (R109). -/
def kindSource (k : Kind) (ftz : Bool) (a : Nat) : Source :=
  match kindInt k, kindFmt k with
  | some (w, sg), _ => .int w sg (if sg then Int.bmod (a % 2 ^ w : Nat) (2 ^ w) else (a % 2 ^ w : Nat))
  | none, some f => ieeeSource f ftz a
  | none, none => .nan

/-- A conversion into an integer kind: rounded and saturated; between integer kinds saturated, or extended by the source's
signedness (R67). -/
def IntegerOf (w : Nat) (sg : Bool) (rm : Rm) (x : Source) (v : Int) : Prop :=
  let lo : Int := if sg then -2 ^ (w - 1) else 0
  let hi : Int := if sg then 2 ^ (w - 1) - 1 else 2 ^ w - 1
  match x with
  | .nan => v = 0
  | .inf neg => v = if neg then lo else hi
  | .real _ y => ∃ k : Nat, RoundsTo rm (y < 0) |(y : ℝ)| k ∧ v = max lo (min hi (if y < 0 then -(k : Int) else k))
  | .int sw _ u => v = if sw < w then if sg then u else u % 2 ^ w else max lo (min hi u)

/-- A conversion into an IEEE layout (R61, R62). -/
def IeeeOf (f : Fmt) (rm : Rm) (ftz : Bool) (x : Source) (r : Nat) : Prop :=
  match x.number with
  | .inf neg => r = signed f neg (infCode f)
  | .real neg y => (y = 0 → r = signed f neg 0) ∧ (y ≠ 0 → IsRounded f rm ftz y r)
  | _ => r = (2 ^ f.eb - 1) * 2 ^ f.mb + 2 ^ (f.mb - 1)

/-- The magnitude of a code of a narrow format with exponent bits, its sign left aside (R65). -/
def narrowMagnitude (n : Narrow) (c : Nat) : ℚ :=
  if c < 2 ^ n.mb then if n.sub then (c : ℚ) * (2 : ℚ) ^ (1 - n.bias - n.mb) else 0
  else ((c % 2 ^ n.mb + 2 ^ n.mb : Nat) : ℚ) * (2 : ℚ) ^ ((c / 2 ^ n.mb : Nat) - n.bias - n.mb)

/-- A conversion into a narrow format (R65, R66). -/
def NarrowOf (n : Narrow) (topx : Bool) (rm : Rm) (x : Source) (c : Nat) : Prop :=
  let hasNan : Prop := 4 ≤ n.eb ∧ (topx = true ∨ n.mb ≠ 0)
  let nan : Nat := if topx then 2 ^ (n.eb + n.mb) - 1 else (2 ^ n.eb - 1) * 2 ^ n.mb + 2 ^ (n.mb - 1)
  let largest : Nat := if n.eb < 4 then 2 ^ (n.eb + n.mb) - 1 else if topx then 2 ^ (n.eb + n.mb) - 2
    else (2 ^ n.eb - 1) * 2 ^ n.mb - 1
  let sg (neg : Bool) (m : Nat) : Nat := if neg && n.sign then m + 2 ^ (n.eb + n.mb) else m
  let beyond (neg : Bool) (c : Nat) : Prop :=
    (n.sat = true → c = sg neg largest) ∧
    (n.sat = false → (4 ≤ n.eb ∧ topx = false → c = sg neg ((2 ^ n.eb - 1) * 2 ^ n.mb)) ∧
      (4 ≤ n.eb ∧ topx = true → c = nan) ∧ (n.eb < 4 → c = sg neg largest))
  let clamp (v : Int) : Nat :=
    (max (if n.sign then -2 ^ n.mb else 0) (min (2 ^ n.mb - 1) v) % 2 ^ n.width : Int).toNat
  match x.number with
  | .inf neg => (neg = true → n.sign = false → c = 0) ∧
    (neg = false ∨ n.sign = true → (n.eb ≠ 0 → beyond neg c) ∧
      (n.eb = 0 → c = clamp (if neg then -2 ^ n.mb else 2 ^ n.mb - 1)))
  | .real neg y => (neg = true → n.sign = false → c = 0) ∧
    (neg = false ∨ n.sign = true →
      (n.eb = 0 → ∃ k : Nat, RoundsTo rm (neg = true) (|(y : ℝ)| * (2 : ℝ) ^ n.bias) k ∧
        c = clamp (if neg then -(k : Int) else k)) ∧
      (n.eb ≠ 0 → y = 0 → c = sg neg 0) ∧
      (n.eb ≠ 0 → y ≠ 0 → ∃ (e : Int) (k : Nat), (2 : ℝ) ^ e ≤ |(y : ℝ)| ∧ |(y : ℝ)| < (2 : ℝ) ^ (e + 1) ∧
        let ulp : ℝ := (2 : ℝ) ^ (max e (1 - n.bias) - n.mb)
        let small : Prop := (k : ℝ) * ulp < (2 : ℝ) ^ (1 - n.bias) ∧ n.sub = false
        RoundsTo rm (neg = true) (|(y : ℝ)| / ulp) k ∧ (small → c = sg neg 0) ∧
        (¬ small → (narrowMagnitude n largest : ℚ) < k * ulp → beyond neg c) ∧
        (¬ small → k * ulp ≤ (narrowMagnitude n largest : ℚ) → ∃ m, c = sg neg m ∧ m ≤ largest ∧
          ((narrowMagnitude n m : ℚ) : ℝ) = k * ulp)))
  | _ => (hasNan → c = nan) ∧ (¬ hasNan → c = 0)

/-- The number that a conversion makes of what it reads: its bits as they are placed in 64 (R66, R67, R109). -/
def Converts (dk : Kind) (rm : Rm) (ftz : Bool) (n : Narrow) (topx : Bool) (x : Source) (r : Nat) : Prop :=
  match kindInt dk, kindFmt dk with
  | some (w, sg), _ => ∃ v : Int, IntegerOf w sg rm x v ∧ r = (v % 2 ^ 64).toNat
  | none, some f => IeeeOf f rm ftz x r
  | none, none => NarrowOf n topx rm x r

/-- The value of a block's scale byte, none for NaN: E8M0, and E4M3 without its sign bit, whose lowest exponent field is subnormal
(R69; log 21). -/
def scaleValue (kind b : Nat) : Option ℚ :=
  match kind with
  | 1 => if b = 255 then none else some ((2 : ℚ) ^ ((b : Int) - 127))
  | _ => if b % 128 = 127 then none
    else if b % 128 < 8 then some ((b % 8 : Nat) * (2 : ℚ) ^ (-9 : Int))
    else some ((b % 8 + 8 : Nat) * (2 : ℚ) ^ ((b % 128 / 8 : Nat) - 10 : Int))

/-- The largest finite value of an element format (R65, R70; log 12 for a format without exponent bits). -/
def largestOf (n : Narrow) (topx : Bool) : ℚ :=
  if n.eb = 0 then ((2 ^ n.mb - 1 : Nat) : ℚ) * (2 : ℚ) ^ (-n.bias)
  else narrowMagnitude n (if n.eb < 4 then 2 ^ (n.eb + n.mb) - 1 else if topx then 2 ^ (n.eb + n.mb) - 2
    else (2 ^ n.eb - 1) * 2 ^ n.mb - 1)

/-- The format of an E4M3 scale that is written: values above 448 clamp (R70). -/
def e4m3Scale : Narrow := { width := 8, mb := 3, eb := 4, sign := true, sub := true, sat := true, scale := 0, bias := 7 }

/-- b is the scale byte of a block whose largest source magnitude is A (R70). -/
def ScaleOf (n : Narrow) (topx : Bool) (A : Source) (b : Nat) : Prop :=
  match A with
  | .real _ y =>
    (n.scale = 1 → (y = 0 → b = 127) ∧ (y ≠ 0 → ∃ x m : Int, (2 : ℚ) ^ x ≤ |y| ∧ |y| < (2 : ℚ) ^ (x + 1) ∧
      (2 : ℚ) ^ m ≤ largestOf n topx ∧ largestOf n topx < (2 : ℚ) ^ (m + 1) ∧ (b : Int) = max 0 (min 254 (x - m + 127)))) ∧
    (n.scale = 2 → (y = 0 → b = 0x38) ∧ (y ≠ 0 → NarrowOf e4m3Scale true .rup (.real false (|y| / largestOf n topx)) b))
  | _ => (n.scale = 1 → b = 0xFF) ∧ (n.scale = 2 → b = 0x7F)

/-- The value of an element under a scale (R69). -/
def scaledBy (scale : Option ℚ) (x : Source) : Source :=
  match scale, x with
  | some f, .real s y => .real s (f * y)
  | some f, .inf s => if f = 0 then .nan else .inf s
  | _, _ => .nan

/-- A number over a scale (R70). -/
def overScale (scale : Option ℚ) (x : Source) : Source :=
  match scale, x with
  | some f, .real s y => .real s (y / f)
  | some _, .inf s => .inf s
  | _, _ => .nan

/-- A is the largest magnitude among numbers, where a NaN stands above all (R70). -/
def LargestMagnitude (xs : List Source) (A : Source) : Prop :=
  (.nan ∈ xs → A = .nan) ∧
  (.nan ∉ xs → (∃ s, .inf s ∈ xs) → A = .inf false) ∧
  (.nan ∉ xs → (∀ s, .inf s ∉ xs) → ∃ y, A = .real false y ∧ (∀ s z, .real s z ∈ xs → |z| ≤ y) ∧
    (y = 0 ∨ ∃ s z, .real s z ∈ xs ∧ |z| = y))

/-- Element e of a register that holds packed narrow elements (R68, R130). -/
def packedIn (n : Narrow) (v : VImage) (e : Nat) : Nat := v.toNat / 2 ^ (n.width * e) % 2 ^ n.width

/-- Scale byte of element e of such a register: in lane 31, in block order (R130). -/
def scaleIn (n : Narrow) (v : VImage) (e : Nat) : Nat :=
  match n.scale with
  | 1 => held 32 v 31 % 256
  | 2 => held 32 v 31 / 2 ^ (8 * (e / 16)) % 256
  | _ => 0

/-- Element e that VCVT reads, as a number of the model: a narrow one under its scale (R69). -/
def vcvtNum (x : ConvV) (n : Narrow) (topx : Bool) (v : VImage) (e : Nat) : Machine.Num :=
  let a := element (kindWidth x.sk) v e
  match kindInt x.sk, kindFmt x.sk with
  | some (w, sg), _ => let i : Int := if sg then Int.bmod a (2 ^ w) else a; .fin (i < 0) i.natAbs 0
  | none, some f => unpack f x.ftz a
  | none, none => scaledRead n topx (scaleIn n v e) (packedIn n v e)

end Sys2Proof.Rules

/-- FCVT converts between the named kinds under the slot's TOPX, and VCVT each enabled element, packing and unpacking narrow kinds
under their scales, a disabled element keeping its bits; a pair that R109 and R130 exclude is ILLEGAL, and an invalid image of a
format register that the word names is FORMAT_MODE. A block's scale is chosen from its largest magnitude, an element is read as
scale times element and written as number over scale, a NaN scale giving NaN (R45, R61, R64–R67, R69, R70, R109, R115, R130). The
model's readings: a signalling NaN sets the sticky bit whatever it is converted to (log 38), the largest value of a format without
exponent bits (log 12), the value of an E4M3 scale byte (log 21). -/
def Obligations.ConversionsCheckTheirKindsAndFormat : Prop :=
  (∀ (img : BitVec 32) (topx : Bool), let n := narrowOf img
    imageValid img = true → n.scale = 1 ∨ n.scale = 2 →
    (∀ A : Machine.Num, ScaleOf n topx (ofNum A) (scaleChoose n topx A)) ∧
    (∀ b < 256, ∀ c < 2 ^ n.width,
      ofNum (scaledRead n topx b c) = scaledBy (scaleValue n.scale b) (narrowSource n topx c)) ∧
    (∀ b < 256, ∀ (rm : Rm) (x : Machine.Num), scaleValue n.scale b ≠ some 0 →
      NarrowOf n topx rm (overScale (scaleValue n.scale b) (ofNum x)) (scaledWrite n topx rm b x))) ∧
  (∀ (mask first count : Nat) (src : Nat → Machine.Num), LargestMagnitude
    ((((List.range count).map (· + first)).filter mask.testBit).map (fun e => ofNum (src e)))
    (ofNum (blockMax mask src first count))) ∧
  (∀ (x : ConvR) (s : State) (v : Vals), Poised s (formA x.a x.d) v →
    ((x.dk ≠ .nf ∧ x.sk ≠ .nf) ∨ (¬ (x.dk = .nf ∧ x.sk = .nf) ∧ imageValid (s.me.fmtReg x.fmt.val) = true) →
      exec (.fcvt x) s = .next (delivers s (formA x.a x.d) x.stall
        (.one (BitVec.ofNat 64 (convScalar x (narrowOf (s.me.fmtReg x.fmt.val)) (consumeAll s (formA x.a x.d)).me.topx
          v.a.toNat)) 0) .seq (convSnan x.sk v.a.toNat))) ∧
    (x.dk = .nf ∧ x.sk = .nf → exec (.fcvt x) s = .next (trapHere s trapIllegal)) ∧
    ((x.dk = .nf ∧ x.sk ≠ .nf) ∨ (x.dk ≠ .nf ∧ x.sk = .nf) → imageValid (s.me.fmtReg x.fmt.val) = false →
      exec (.fcvt x) s = .next (trapHere s (trapFormat x.fmt.val)))) ∧
  (∀ (x : ConvV) (s : State) (v : Vals), let g : Form := { noOperands with a := .v x.a, b := .s x.k, d := .v x.d }
    Poised s g v →
    let n := narrowOf (s.me.fmtReg x.fmt.val)
    let wide (k : Kind) : Prop := k = .f64 ∨ k = .i64 ∨ k = .u64
    ((x.dk ≠ .nf ∧ x.sk ≠ .nf) ∨ (imageValid (s.me.fmtReg x.fmt.val) = true ∧
        ((x.dk = .nf ∧ x.sk ≠ .nf ∧ ¬ wide x.sk) ∨ (x.sk = .nf ∧ x.dk ≠ .nf ∧ ¬ wide x.dk))) →
      ∃ sn : Bool, (sn = true ↔ ∃ e < 32, (wide x.dk ∨ wide x.sk → e < 16) ∧ enables x.k v.b e ∧
          convSnan x.sk (element (kindWidth x.sk) v.va e) = true) ∧
        exec (.vcvt x) s = .next (delivers s g x.stall
        (.vec (vcvtResult x n (consumeAll s g).me.topx (if x.k = .z then 2 ^ 32 - 1 else v.b.toNat % 2 ^ 32)
          (s.me.vCell x.d.val).val v.va) 0) .seq sn)) ∧
    ((x.dk = .nf ∧ wide x.sk) ∨ (x.sk = .nf ∧ wide x.dk) ∨ (x.dk = .nf ∧ x.sk = .nf) →
      exec (.vcvt x) s = .next (trapHere s trapIllegal)) ∧
    ((x.dk = .nf ∧ x.sk ≠ .nf ∧ ¬ wide x.sk) ∨ (x.sk = .nf ∧ x.dk ≠ .nf ∧ ¬ wide x.dk) →
      imageValid (s.me.fmtReg x.fmt.val) = false →
      exec (.vcvt x) s = .next (trapHere s (trapFormat x.fmt.val)))) ∧
  (∀ (x : ConvR) (img : BitVec 32) (topx : Bool) (a : Nat), let n := narrowOf img
    ¬ (x.dk = .nf ∧ x.sk = .nf) → imageValid img = true ∨ (x.dk ≠ .nf ∧ x.sk ≠ .nf) →
    Converts x.dk x.rm x.ftz n topx (if x.sk = .nf then narrowSource n topx (a % 2 ^ n.width) else kindSource x.sk x.ftz a)
      (convScalar x n topx a)) ∧
  (∀ (x : ConvV) (img : BitVec 32) (topx : Bool) (k : Src) (m : W64) (old v : VImage), let n := narrowOf img
    let mask := if k = .z then 2 ^ 32 - 1 else m.toNat % 2 ^ 32
    let r := vcvtResult x n topx mask old v
    let src (e : Nat) : Source :=
      if x.sk = .nf then ofNum (vcvtNum x n topx v e) else kindSource x.sk x.ftz (element (kindWidth x.sk) v e)
    (x.dk ≠ .nf → imageValid img = true ∨ x.sk ≠ .nf → x.sk ≠ .nf ∨ kindWidth x.dk ≠ 64 →
      let w := kindWidth x.dk
      let half : Prop := w ≠ 64 ∧ x.sk ≠ .nf ∧ kindWidth x.sk = 64
      ∀ e < 1024 / slotBits w, (half → 16 ≤ e → held w r e = 0) ∧
        (¬ (half ∧ 16 ≤ e) →
          (enables k m e → ∃ b, Converts x.dk x.rm x.ftz n topx (src e) b ∧ held w r e = b % 2 ^ slotBits w) ∧
          (¬ enables k m e → held w r e = held w old e))) ∧
    (x.dk = .nf → x.sk ≠ .nf → kindWidth x.sk ≠ 64 → imageValid img = true →
      let bs := match n.scale with | 1 => 32 | 2 => 16 | _ => 0
      let within (e e' : Nat) : Prop := e' < 32 ∧ e' / bs = e / bs ∧ enables k m e'
      (∀ e < 32, bs ≠ 0 → ((∃ e', within e e') →
          scaleIn n r e = scaleChoose n topx (blockMax mask (vcvtNum x n topx v) (e / bs * bs) bs)) ∧
        ((∀ e', ¬ within e e') → scaleIn n r e = scaleIn n old e)) ∧
      (∀ e < 32, (¬ enables k m e → packedIn n r e = packedIn n old e) ∧
        (enables k m e → (bs = 0 → NarrowOf n topx x.rm (src e) (packedIn n r e)) ∧
          (bs ≠ 0 → packedIn n r e = scaledWrite n topx x.rm (scaleIn n r e) (vcvtNum x n topx v e)))) ∧
      ∀ i, 32 * n.width ≤ i → i < 992 ∨ 992 + 8 * (if bs = 0 then 0 else 32 / bs) ≤ i → r.getLsbD i = false))

/-! ### Results, positions and frames -/

namespace Sys2Proof.Rules

/-- A register or entry that a result of latency L was issued for: at L = 0 the value, else what it read as before, with the
value ready after L further turns (R81, R84). -/
def issuedCell {α : Type} (old v : α) (lat : Nat) : Cell α :=
  if lat = 0 then { val := v, st := .now } else { val := old, st := .late (lat + 1) v }

/-- A register or entry that waits for part p of the result owed under a tag: the status is part 0, the datum part 1 (R80, R82). -/
def owedCell {α : Type} (old : α) (tag p : Nat) : Cell α := { val := old, st := .pending tag p }

/-- A result pushed: entry 0 takes it over the value of the entry that leaves, and every older entry ages by one (R80,
R81). -/
def Pushed (x y : Slot) (v : W64) (lat : Nat) : Prop :=
  y.qCell 0 = issuedCell (x.qCell 15).val v lat ∧ ∀ j < 15, y.qCell (j + 1) = x.qCell j

/-- No entry of the queue changed. -/
def NothingPushed (x y : Slot) : Prop := ∀ j < 16, y.qCell j = x.qCell j

/-- Everything outside the current slot is as it was: every other slot, the rest of every core, clusters, dies, both
memories, full/empty bits, poison, reservations and what other agents have under way. -/
def OutsideUnchanged (s t : State) : Prop :=
  t.cur = s.cur ∧ (∀ c k, (c, k) ≠ s.cur → t.slot c k = s.slot c k) ∧
  (∀ c, { t.core c with slots := [] } = { s.core c with slots := [] }) ∧
  { t with cores := [] } = { s with cores := [] }

/-- What a slot holds beside its registers, queue, position and waiting state is as it was: streams, message registers,
format registers, trap registers, placement, progress record, fetcher, monitor. -/
def SlotKept (x y : Slot) : Prop :=
  y.streams = x.streams ∧ y.m = x.m ∧ y.fmt = x.fmt ∧ y.tvec = x.tvec ∧ y.tcause = x.tcause ∧ y.tepc = x.tepc ∧
  y.cldser = x.cldser ∧ y.thread = x.thread ∧ y.record = x.record ∧ y.fetcher = x.fetcher ∧ y.monitor = x.monitor ∧
  y.block = x.block ∧ y.lent = x.lent ∧ y.owed = x.owed

/-- The status register: the sticky bit of R63 set where a signalling NaN was read, every other bit as it was. -/
def statusAfter (w : W64) (snan : Bool) : W64 := if snan then w ||| 0x10 else w

/-- Control at the next word, the stall counter loaded (R79). -/
def NextWord (x y : Slot) (stall : Nat) : Prop :=
  y.st = .running ∧ y.stall = stall ∧ y.hdr = x.hdr ∧ y.idx = x.idx + 1

end Sys2Proof.Rules

/-- A result goes to the queue and to the register that D names, to neither where D is z; a pair is pushed status first, so
that the status stands at q1 and the datum, which D takes too, at q0; a vector destination pushes nothing, and neither do the
registers of CALL and ITER; a fixed-latency result is visible only when it is ready, and a variable-latency one, single, pair or
vector, leaves its entries and its register pending until its delivery under the same tag (R56, R80–R84, R103). -/
def Obligations.ResultsArePushedAndWritten : Prop :=
  ∀ (s : State) (v st : W64) (u : VImage) (lat : Nat),
    (∀ r, (writeResult s (.s .z) r) = s) ∧
    (Pushed s.me (writeResult s (.s .push) (.one v lat)).me v lat ∧
      (writeResult s (.s .push) (.one v lat)).me.n = s.me.n) ∧
    (∀ i : Fin 24, let t := writeResult s (.s (.n i)) (.one v lat)
      Pushed s.me t.me v lat ∧ t.me.nCell i.val = issuedCell (s.me.nCell i.val).val v lat ∧
      ∀ j ≠ i.val, t.me.nCell j = s.me.nCell j) ∧
    (∀ i : Fin 8, let t := writeResult s (.s (.m i)) (.one v lat)
      Pushed s.me t.me v lat ∧ t.me.mreg i.val = { val := v, full := true, topx := s.me.topx } ∧ t.me.n = s.me.n) ∧
    (∀ i : Fin 24, let t := writeResult s (.s (.n i)) (.two st v lat)
      t.me.qCell 0 = issuedCell (s.me.qCell 14).val v lat ∧ t.me.qCell 1 = issuedCell (s.me.qCell 15).val st lat ∧
      t.me.nCell i.val = issuedCell (s.me.nCell i.val).val v lat) ∧
    (∀ r : VReg, let t := writeResult s (.v r) (.vec u lat)
      t.me.vCell r.val = issuedCell (s.me.vCell r.val).val u lat ∧ t.me.q = s.me.q ∧
      ∀ j ≠ r.val, t.me.vCell j = s.me.vCell j) ∧
    (∀ (d : Dst) (tag : Nat), d ≠ .z → let t := writeResult s (.s d) (.owed tag false)
      t.me.qCell 0 = owedCell (s.me.qCell 15).val tag 1 ∧ (∀ j < 15, t.me.qCell (j + 1) = s.me.qCell j) ∧
      (∀ i : Fin 24, (d = .n i → t.me.nCell i.val = owedCell (s.me.nCell i.val).val tag 1) ∧
        (d ≠ .n i → t.me.nCell i.val = s.me.nCell i.val))) ∧
    (∀ (d : Dst) (tag : Nat), d ≠ .z → let t := writeResult s (.s d) (.owed tag true)
      t.me.qCell 0 = owedCell (s.me.qCell 14).val tag 1 ∧ t.me.qCell 1 = owedCell (s.me.qCell 15).val tag 0 ∧
      (∀ j < 14, t.me.qCell (j + 2) = s.me.qCell j) ∧
      (∀ i : Fin 24, (d = .n i → t.me.nCell i.val = owedCell (s.me.nCell i.val).val tag 1) ∧
        (d ≠ .n i → t.me.nCell i.val = s.me.nCell i.val))) ∧
    (∀ (r : VReg) (tag : Nat), let t := writeResult s (.v r) (.owedVec tag)
      t.me.vCell r.val = owedCell (s.me.vCell r.val).val tag 1 ∧ t.me.q = s.me.q ∧ t.me.n = s.me.n ∧
      ∀ j ≠ r.val, t.me.vCell j = s.me.vCell j) ∧
    (∀ (a k : Nat) (vs : List W64), let t := writeResult s (.regs a k) (.regs vs)
      t.me.q = s.me.q ∧ t.me.v = s.me.v ∧
      ∀ j, t.me.nCell j = if a ≤ j ∧ j < a + vs.length then { val := vs.getD (j - a) 0, st := .now } else s.me.nCell j) ∧
    (∀ (d : Dir) (n : Nat), neighbour s.cur.1 d = some n → (s.core n).isSealed = false →
      let t := writeResult s (.s (.link d)) (.one v lat)
      Pushed s.me t.me v lat ∧ (linkFifo t s.cur.1 d s.me.thread).wire = (linkFifo s s.cur.1 d s.me.thread).wire ++ [v]) ∧
    (∀ k : Fin 8, let b := s.me.stream k.val
      let t := writeResult s (.s (.s k)) (.one v lat)
      Pushed s.me t.me v lat ∧
      (b.bound = true → b.wr = true → b.pos < b.count → destFail s (.s (.s k)) = none →
        t.me.stream k.val = { b with pos := b.pos + 1 }))

/-- A word that has issued on a slot that is not traced leaves the slot running, its stall counter loaded and its position
where the word sends it, and changes nothing else (R52, R55, R79). -/
def Obligations.ControlMovesOnAndNothingElse : Prop :=
  ∀ (s : State) (stall : Nat) (p : Pos), s.me.trace = false → p ≠ .gone →
    let t := finish s .none stall .none p false
    t.me.st = .running ∧ t.me.stall = stall ∧
    (match p with
      | .seq => t.me.hdr = s.me.hdr ∧ t.me.idx = s.me.idx + 1
      | .skip c => t.me.hdr = s.me.hdr ∧ t.me.idx = s.me.idx + 1 + c
      | .jump a => t.me.hdr = a ∧ t.me.idx = 1 ∧ t.me.entering = true
      | .at_ h i => t.me.hdr = h ∧ t.me.idx = i
      | .gone => True) ∧
    t.me.q = s.me.q ∧ t.me.n = s.me.n ∧ t.me.v = s.me.v ∧ t.me.streams = s.me.streams ∧ t.me.m = s.me.m ∧
    t.me.fmt = s.me.fmt ∧ t.me.status = s.me.status ∧ t.me.tvec = s.me.tvec ∧ t.me.tcause = s.me.tcause ∧
    t.me.tepc = s.me.tepc ∧ t.me.cldser = s.me.cldser ∧ t.me.record = s.me.record ∧ t.me.fetcher = s.me.fetcher ∧
    OutsideUnchanged s t

namespace Sys2Proof.Rules

/-- The words that compute a scalar from scalars alone, with their operand forms. -/
def scalarForm : Instr → Option Form
  | .add x | .sub x | .mul x | .mulh x | .mulhu x | .div x | .divu x | .rem x | .remu x | .and x | .or x | .xor x
  | .andn x | .shl x | .shr x | .sra x | .rot x | .min x | .max x | .minu x | .maxu x => some (formAB x.a x.b x.d)
  | .addImm x | .subImm x | .mulImm x | .mulhImm x | .mulhuImm x | .divImm x | .divuImm x | .remImm x | .remuImm x
  | .andImm x | .orImm x | .xorImm x | .andnImm x | .shlImm x | .shrImm x | .sraImm x | .rotImm x | .minImm x | .maxImm x
  | .minuImm x | .maxuImm x => some (formI x.a x.d (extImm x.zx x.imm))
  | .clz x | .ctz x | .popc x | .brev x | .sext x | .zext x | .abs x | .neg x => some (formA x.a x.d)
  | .bext x | .bins x => some (formABC x.a x.b x.c x.d)
  | .cmpeq x | .cmpne x | .cmplt x | .cmple x | .cmpltu x | .cmpleu x => some (formAB x.a x.b x.d)
  | .sel x => some (formABC x.a x.b x.c x.d)
  | .li x => some { noOperands with d := .s x.d }
  | .lih x => some (formI x.a x.d (x.imm.signExtend 64))
  | .lea x => some (formAB x.a x.b x.d)
  | .fadd x | .fsub x | .fmul x | .fdiv x => some (formAB x.a x.b x.d)
  | .fmin x | .fmax x | .fceq x | .fclt x | .fcle x | .fcun x => some (formAB x.a x.b x.d)
  | .fsqrt x | .frcp x | .frsq x | .flog2 x | .fexp2 x => some (formA x.a x.d)
  | .fma x | .fms x | .fnma x => some (formABC x.a x.b x.c x.d)
  | .fclass x => some (formA x.a x.d)
  | _ => none

/-- The words that compute one vector register from registers, with their operand forms. -/
def vectorForm : Instr → Option Form
  | .vadd x | .vsub x | .vmul x | .vdiv x => some (formVV x.a x.b x.d x.k)
  | .vmin x | .vmax x => some (formVV x.a x.b x.d x.k)
  | .vsqrt x | .vrcp x | .vrsq x | .vlog2 x | .vexp2 x => some (formV x.a x.d x.k)
  | .vfma x | .vfms x => some (formVVV x.a x.b x.c x.d x.k)
  | .viadd x | .visub x | .vimul x | .vand x | .vor x | .vxor x | .vshl x | .vshr x | .vimin x | .vimax x =>
    some (formVV x.a x.b x.d x.k)
  | .vsel x => some { formVV x.a x.b x.d x.k with c := .s x.c }
  | .vscan x => some (formV x.a x.d x.k)
  | .vsplat x => some { noOperands with a := .s x.a, k := .s x.k, d := .v x.d }
  | .vins x => some { a := .v x.a, b := .s x.b, c := .s x.c, k := .s x.k, d := .v x.d, imm := 0 }
  | .vperm x => some (formVV x.a x.b x.d x.k)
  | .vmaxi x | .vcmpr x => some (formVV x.a x.b x.d x.k)
  | _ => none

end Sys2Proof.Rules

/-- The frame of the scalar words: where D is z, q0 or a named register and no source is taken away, a word leaves the other
named registers, the vector registers, the rest of the slot, every other slot, all memory and every other agent as they were;
of the status only the sticky bit of R63 may be set (R42, R80, R88). -/
def Obligations.ScalarWordsChangeOnlyTheirDestination : Prop :=
  ∀ (i : Instr) (f : Form) (s : State) (v : Vals), scalarForm i = some f → Poised s f v → f.isPlain = true →
    s.me.trace = false → (f.d = .s .z ∨ f.d = .s .push ∨ ∃ j, f.d = .s (.n j)) →
    ∃ t, exec i s = .next t ∧ (∃ stall, NextWord s.me t.me stall) ∧
      (f.d = .s .z → NothingPushed s.me t.me ∧ t.me.n = s.me.n) ∧
      (f.d = .s .push → (∃ r lat, Pushed s.me t.me r lat) ∧ t.me.n = s.me.n) ∧
      (∀ j : Fin 24, f.d = .s (.n j) →
        (∃ r lat, Pushed s.me t.me r lat ∧ t.me.nCell j.val = issuedCell (s.me.nCell j.val).val r lat) ∧
        ∀ k ≠ j.val, t.me.nCell k = s.me.nCell k) ∧
      t.me.v = s.me.v ∧ SlotKept s.me t.me ∧ (∃ sn, t.me.status = statusAfter s.me.status sn) ∧ OutsideUnchanged s t

/-- The frame of the vector words: only the vector register that D names changes, nothing is pushed, and of the status only
the sticky bit of R63 may be set (R42, R80, R88, R118). -/
def Obligations.VectorWordsChangeOnlyTheirRegister : Prop :=
  ∀ (i : Instr) (f : Form) (s : State) (v : Vals), vectorForm i = some f → Poised s f v → f.isPlain = true →
    s.me.trace = false →
    ∃ t, ∃ d : VReg, f.d = .v d ∧ exec i s = .next t ∧ (∃ stall, NextWord s.me t.me stall) ∧
      t.me.q = s.me.q ∧ t.me.n = s.me.n ∧ (∃ r lat, t.me.vCell d.val = issuedCell (s.me.vCell d.val).val r lat) ∧
      (∀ j ≠ d.val, t.me.vCell j = s.me.vCell j) ∧ SlotKept s.me t.me ∧
      (∃ sn, t.me.status = statusAfter s.me.status sn) ∧ OutsideUnchanged s t

/-! ### Traps -/

namespace Sys2Proof.Rules

/-- The trap registers written, and the MBT records of the end of a wait and of the delivery where the slot is traced (R90,
R345). -/
def trapWritten (s : State) (tr : Trap) : State :=
  let cause := BitVec.ofNat 64 (tr.detail % 2 ^ 48 * 2 ^ 16 + tr.dk % 4 * 2 ^ 14 + s.me.idx % 128 * 2 ^ 7 + tr.code % 128)
  let epc := s.me.hdr + 8 * BitVec.ofNat 64 s.me.idx
  let u := traceUnpark s s.cur.1 s.cur.2
  traceRec (u.setMe { u.me with
    st := .running, tepc := epc, tcause := cause, retry := false, suspect := false, held := none, entryRead := none }) s.cur.1 s.cur.2 0x5
    (cause.toNat % 2 ^ 32) epc.toNat

end Sys2Proof.Rules

/-- A trap saves the word's address in `sys.tepc` and its cause, index and detail in `sys.tcause`, and sets tin and enters the
handler's block where `sys.tvec` is set, tin is 0 and a header stands there; else it escalates: the slot is faulted and a
fault message of kind 0x10 with the cause's low half goes to the receiver of its cluster (R90, R200, R201). -/
def Obligations.TrapEntersItsHandlerOrEscalates : Prop :=
  (∀ (s : State) (tr : Trap) (h : W64), s.me.tvec ≠ 0 → s.me.tin = false →
    fetchAt (trapWritten s tr) s.me.tvec = .word h → h.toNat / 2 ^ 56 = 0xFE →
    let t := trapHere s tr
    t.cur = s.cur ∧ t.me.st = .running ∧ t.me.tepc = s.me.hdr + 8 * BitVec.ofNat 64 s.me.idx ∧
    t.me.tcause = BitVec.ofNat 64
      (tr.detail % 2 ^ 48 * 2 ^ 16 + tr.dk % 4 * 2 ^ 14 + s.me.idx % 128 * 2 ^ 7 + tr.code % 128) ∧
    t.me.status = s.me.status ||| 0x20 ∧ t.me.hdr = s.me.tvec ∧ t.me.idx = 1 ∧ t.me.entering = true ∧
    t.me.q = s.me.q ∧ t.me.n = s.me.n ∧ t.me.v = s.me.v ∧ t.me.streams = s.me.streams ∧ t.me.m = s.me.m ∧
    t.me.stall = s.me.stall) ∧
  (∀ (s : State) (tr : Trap),
    s.me.tvec = 0 ∨ s.me.tin = true ∨
      (∃ h, fetchAt (trapWritten s tr) s.me.tvec = .word h ∧ h.toNat / 2 ^ 56 ≠ 0xFE) ∨
      (∃ e, fetchAt (trapWritten s tr) s.me.tvec = .fail (.trap e)) →
    let t := trapHere s tr
    let u := trapWritten s tr
    t.me.st = .faulted ∧ t.me.faultedBy = some .trap ∧ t.me.tepc = s.me.hdr + 8 * BitVec.ofNat 64 s.me.idx ∧
    t.me.status = s.me.status ∧ t.me.hdr = s.me.hdr ∧ t.me.idx = s.me.idx ∧
    FaultSent u t s.cur.1 s.cur.2 s.me.thread 0x10 (s.me.hdr + 8 * BitVec.ofNat 64 s.me.idx) 0
      (t.me.tcause.toNat % 2 ^ 32) (s.me.hdr + 8 * BitVec.ofNat 64 s.me.idx) ∧
    t.agenda = s.agenda ∧ t.posted = s.posted)

/-- TRAP raises code 0x0B with its immediate as detail, a word that is no instruction raises ILLEGAL, and neither issues; the
trap of a word that is none passes the checker like another (R47, R112, R133). -/
def Obligations.TrapAndUnassignedWordsTrap : Prop :=
  (∀ (x : TrapI) (s : State) (v : Vals), Poised s noOperands v →
    exec (.trap x) s = .next (trapHere s { code := 0x0B, dk := 0, detail := x.imm.toNat })) ∧
  (∀ (w : W64) (s : State), s.me.mayIssue = true →
    (s.me.suspect = false → exec (.illegalWord w) s = .next (trapHere s { code := 0x01, dk := 0, detail := 0 })) ∧
    (s.me.suspect = true → exec (.illegalWord w) s = .next (rejectWord s)))

/-- ERET clears tin and resumes at the position that `sys.tepc` and idx give, or raises BADTGT where no such position exists
(R113). -/
def Obligations.EretResumesAtTheSavedPosition : Prop :=
  ∀ (x : BareI) (s : State) (v : Vals), Poised s noOperands v →
    let idx := s.me.tcause.toNat / 2 ^ 7 % 2 ^ 7
    let hdr := s.me.tepc - 8 * BitVec.ofNat 64 idx
    (∀ h, idx ≠ 0 → hdr.toNat % 8 = 0 → fetchAt s hdr = .word h → h.toNat / 2 ^ 56 = 0xFE → idx ≤ hdrLen h + 2 →
      exec (.eret x) s = .next (finish (s.setMe { s.me with status := s.me.status &&& ~~~0x20#64 }) .none x.stall.toNat
        .none (.at_ hdr idx) false)) ∧
    (idx = 0 ∨ hdr.toNat % 8 ≠ 0 ∨ (∃ h, fetchAt s hdr = .word h ∧ (h.toNat / 2 ^ 56 ≠ 0xFE ∨ hdrLen h + 2 < idx)) →
      exec (.eret x) s = .next (trapHere s { code := 0x02, dk := 0, detail := hdr.toNat % 2 ^ 48 }))

/-! ### System registers -/

namespace Sys2Proof.Rules

/-- SYSRD of a register delivers a value and pushes it (R110). -/
def Reads (reg : Nat) (val : State → W64) : Prop :=
  ∀ (x : SysrdI) (s : State) (v : Vals), x.reg.toNat = reg → Poised s { noOperands with d := .s x.d } v →
    exec (.sysrd x) s = .next (delivers s { noOperands with d := .s x.d } x.stall (.one (val s) 0) .seq false)

/-- SYSWR of a register changes the slot by the register's writable fields and pushes nothing; where its slot was parked, the unpark
record is written with the trace bit as it was (R8, R110, R345). -/
def Writes (reg : Nat) (eff : W64 → Slot → Slot) : Prop :=
  ∀ (x : SyswrI) (s : State) (v : Vals), x.reg.toNat = reg →
    let g : Form := { formSrc x.a with imm := x.reg.signExtend 64 }
    Poised s g v →
    let u := leavePark (consumeAll s g)
    exec (.syswr x) s = .next (finish (u.setMe (eff v.a u.me)) .none x.stall.toNat .none .seq false)

end Sys2Proof.Rules

namespace Sys2Proof.Rules

/-- The value of n bytes of a memory, little-endian (R6). -/
def num (m : Memory) (a n : Nat) : Nat := ((List.range n).map (fun i => (cellGet m (a + i)).toNat * 256 ^ i)).sum

/-- The sides of the current core whose neighbour has sealed (R178). -/
def sealedSides (s : State) : List Dir :=
  [Dir.dn, .de, .ds, .dw].filter (fun d => ((linkPeer s s.cur.1 s.me.thread d).map (fun n => (s.core n).isSealed)).getD false)

/-- No line of an L1 holds bytes that are not yet at home. -/
def Clean (u : State) : Prop := ∀ e ∈ u.cores, ∀ l ∈ e.2.l1, l.dirty = 0

/-- No line of n bytes of physical memory is read as poisoned (R298). -/
def Unspoilt (u : State) (a n : Nat) : Prop := ∀ l, l * 64 < a + n → a < l * 64 + 64 → u.poisoned (l * 64) = false

/-- A word that issues without a result. -/
def goesOn (w : State) (stall : BitVec 3) : State := finish w .none stall.toNat .none .seq false

/-- The same where a condition holds. -/
def ReadsIf (p : State → Prop) (reg : Nat) (val : State → W64) : Prop :=
  ∀ (x : SysrdI) (s : State) (v : Vals), x.reg.toNat = reg → p s → Poised s { noOperands with d := .s x.d } v →
    exec (.sysrd x) s = .next (delivers s { noOperands with d := .s x.d } x.stall (.one (val s) 0) .seq false)

/-- The current core is a service core (R340). -/
def onService (s : State) : Prop := s.isSvc s.cur.1 = true

/-- The form of SYSWR. -/
def syswrForm (x : SyswrI) : Form := { formSrc x.a with imm := x.reg.signExtend 64 }

/-- The congestion level of a cluster (R219). -/
def level (s : State) (p : Nat) : Nat := min 255 ((s.cluster p).lastDefl / 16)

/-- The mean level of the sixteen clusters of a die (R219). -/
def meanLevel (s : State) (d : Nat) : Nat := ((List.range 16).map (fun i => level s (16 * d + i))).sum / 16

/-- The step that a command of a code starts, or the reason for which it is refused at once (R340, R341). -/
def startsAs (code : Nat) (sub : W64) : Sum Instr Nat :=
  match code with
  | 1 => .inl .asrec
  | 2 => .inl .faultdest
  | 3 => if sub = 0 then .inl .cereplyResume else if sub = 1 then .inl .cereplyEnd else .inr 2
  | 4 => if sub = 0 then .inl .redreplyResume else if sub = 1 then .inl .redreplyDrop else .inr 2
  | 5 => .inl .migpool
  | 6 => .inl .decwin
  | 7 => .inl .objtab
  | 8 => .inl .faqpop
  | 9 => .inl .thrtab
  | 10 => .inl .policy
  | 11 => .inl .lend
  | 12 => if sub = 0 then .inl .coreRestart else if sub = 1 then .inl .coreHold
    else if sub = 2 then .inl .coreRelease else .inr 2
  | 13 => .inl .tracebuf
  | 14 => .inl .traceptr
  | 15 => .inl .partset
  | 16 => .inl .hostsvc
  | _ => .inr 1

end Sys2Proof.Rules

/-- SYSRD copies the register: status, trap registers, format registers, placement, location, clock, partition, network load,
throttle, clearing, `sys.cldser` and the service registers, each in its layout; SYSWR writes a register's fields and leaves its
reserved bits zero. A SYSWR of `svc.cmd` waits for the slot's accesses, takes the arguments, starts the command's step and parks
until it completes; one of `svc.coll` binds a collective whose record keeps the table (R8, R64, R76, R77, R110, R111, R219, R258,
R340, R341, R350, R351; the class of the barrier's page is found as log 38 says). -/
def Obligations.SystemRegistersReadAndWriteTheirState : Prop :=
  (Reads 0x000 (fun s => s.me.status) ∧ Reads 0x001 (fun s => s.me.tvec) ∧ Reads 0x002 (fun s => s.me.tcause) ∧
  Reads 0x003 (fun s => s.me.tepc) ∧
  (∀ i < 8, Reads (0x008 + i) (fun s => BitVec.ofNat 64 (s.me.fmtReg i).toNat)) ∧
  Reads 0x010 (fun s => BitVec.ofNat 64 (s.me.thread.launch % 2 ^ 16 * 2 ^ 32 + s.me.thread.gang % 2 ^ 32)) ∧
  Reads 0x011 (fun s => BitVec.ofNat 64 (s.me.thread.j % 16 * 2 ^ 20 + s.me.thread.y % 4 * 2 ^ 18 +
    s.me.thread.x % 4 * 2 ^ 16 + s.me.thread.index % 256)) ∧
  Reads 0x012 (fun s => BitVec.ofNat 64 (s.me.thread.prio % 8 * 2 ^ 8 + s.me.thread.stage % 16)) ∧
  Reads 0x013 (fun s => BitVec.ofNat 64 (s.loc s.cur.1 s.cur.2)) ∧
  Reads 0x014 (fun s => s.clk) ∧ Reads 0x015 (fun s => BitVec.ofNat 64 s.me.thread.part)) ∧
  (Writes 0x000 (fun a x => { x with status := a &&& 0xFF3D }) ∧
  Writes 0x001 (fun a x => { x with tvec := BitVec.ofNat 64 (a.toNat / 8 * 8) }) ∧
  Writes 0x002 (fun a x => { x with tcause := a }) ∧ Writes 0x003 (fun a x => { x with tepc := a }) ∧
  (∀ i < 8, Writes (0x008 + i) (fun a x => { x with fmt := mapSet x.fmt i (a.setWidth 32 &&& 0xFF03777F) }))) ∧
  (Reads 0x020 (fun s => BitVec.ofNat 64 ((s.cluster (clusterOf s.cur.1)).lastDefl * 2 ^ 16 +
    meanLevel s (dieOf s.cur.1) * 2 ^ 8 + level s (clusterOf s.cur.1))) ∧
  Reads 0x021 (fun s => BitVec.ofNat 64 (s.cluster (clusterOf s.cur.1)).rate) ∧
  Reads 0x022 (fun s => BitVec.ofNat 64 ((s.die (dieOf s.cur.1)).clearings % 256 * 2 ^ 16 +
    ((List.range 16).map (fun i => if (s.cluster (16 * dieOf s.cur.1 + i)).clearing then 2 ^ i else 0)).sum)) ∧
  ReadsIf (fun s => s.me.thread.debug = true) 0x030 (fun s => s.me.cldser) ∧
  (∀ (x : SyswrI) (s : State) (v : Vals), x.reg.toNat = 0x030 → s.me.thread.debug = true → Poised s (syswrForm x) v →
    let u := leavePark (consumeAll s (syswrForm x))
    exec (.syswr x) s = .next (goesOn (u.setMe { u.me with cldser := v.a }) x.stall))) ∧
  (ReadsIf onService 0x100 (fun s => s.myCore.svcCmd) ∧
  (∀ i < 6, ReadsIf onService (0x101 + i) (fun s => mapGet 0 s.myCore.svcArg i)) ∧
  ReadsIf onService 0x108 (fun s => s.myCore.svcRes0) ∧ ReadsIf onService 0x109 (fun s => s.myCore.svcRes1) ∧
  ReadsIf onService 0x10A (fun s => BitVec.ofNat 64 s.faqOvf) ∧
  ReadsIf onService 0x110 (fun s => (s.coll.map (fun k => k.addr)).getD 0) ∧
  (∀ p < 16, ReadsIf onService (0x120 + p) (fun s => let x := s.port p
    BitVec.ofNat 64 (x.repairs * 2 ^ 32 + x.replays * 2 ^ 16 + x.retrain.toNat * 2 ^ 5 + x.down.toNat * 2 ^ 4 +
      if x.down then 0 else x.lanes))) ∧
  (∀ (x : SyswrI) (s : State) (v : Vals) (i : Nat), i < 6 → x.reg.toNat = 0x101 + i → onService s →
    Poised s (syswrForm x) v → let u := leavePark (consumeAll s (syswrForm x))
    exec (.syswr x) s = .next (goesOn (u.setCore u.cur.1 { u.myCore with svcArg := mapSet u.myCore.svcArg i v.a })
      x.stall))) ∧
  (∀ (x : SyswrI) (s : State) (v : Vals), x.reg.toNat = 0x100 → onService s → Poised s (syswrForm x) v →
    let u := within s (syswrForm x)
    let code := v.a.toNat % 256
    (s.me.asked = false → s.myCore.svcBusy = false → NoRed u → Unfenced u →
      ∃ t, exec (.syswr x) s = .next t ∧ t.me.st = .parked .result ∧ t.me.asked = true ∧ t.myCore.svcCmd.toNat = code ∧
        t.myCore.svcBusy = true ∧ t.myCore.cmdArgs = s.myCore.svcArg ∧
        (∀ i, startsAs code (mapGet 0 s.myCore.svcArg (if code = 12 then 1 else 2)) = .inl i →
          i ∈ t.agenda ∧ s.cur.1 ∈ t.commands ∧ t.myCore.svcDone = false) ∧
        (∀ r, startsAs code (mapGet 0 s.myCore.svcArg (if code = 12 then 1 else 2)) = .inr r →
          t.myCore.svcDone = true ∧ t.myCore.svcRes0 = BitVec.ofNat 64 (2 ^ 63 + r * 2 ^ 56))) ∧
    (s.myCore.svcDone = false → s.me.asked = true ∨ s.myCore.svcBusy = true →
      exec (.syswr x) s = .next (parkHere s .result)) ∧
    (s.me.asked = true → s.myCore.svcDone = true → ∃ w, exec (.syswr x) s = .next (goesOn w x.stall) ∧
      w.myCore.svcBusy = false ∧ w.myCore.svcDone = false ∧ ∀ l ∈ w.myCore.l1, l.cls ≠ 1)) ∧
  (∀ (x : SyswrI) (s : State) (v : Vals) (m : Nat), x.reg.toNat = 0x110 → onService s → Poised s (syswrForm x) v →
    let u := within s (syswrForm x)
    let f (i n : Nat) : Nat := num u.mem (v.a.toNat + i) n
    let n := narrowOf (BitVec.ofNat 32 (f 44 4))
    let keeps : Prop := imageValid (BitVec.ofNat 32 (f 44 4)) = true ∧ n.scale = 1 ∧ (n.width = 2 ∨ n.width = 4 ∨ n.width = 8) ∧
      1 ≤ f 40 4 ∧ f 40 4 ≤ 65536 ∧ f 54 10 = 0 ∧ f 32 8 % 64 = 0 ∧ (∃ k, regionOf (f 32 8) = .hbm k) ∧
      lineClass u (f 32 8) = 0
    NoRed u → Unfenced u → Clean u → regionOf v.a.toNat = .hbm m → Unspoilt u v.a.toNat 64 →
    ∃ w, exec (.syswr x) s = .next (goesOn w x.stall) ∧ (u.coll ≠ none ∨ ¬ keeps → w.coll = u.coll) ∧
      (u.coll = none → keeps → f 48 2 ≠ 0 → Instr.collectiveBind ∈ w.agenda ∧ w.coll = some { addr := v.a, src := f 0 8, dst := f 8 8, stage := f 16 8, status := f 24 8, bar := f 32 8, nblk := f 40 4, image := BitVec.ofNat 32 (f 44 4), inPorts := BitVec.ofNat 16 (f 48 2), outPorts := BitVec.ofNat 16 (f 50 2), id := f 52 2, masks := [], enq := [], queue := [], claims := 0, anyInc := false, since := u.clk.toNat }))

/-- A service register on another core is PRIV, whether or not it is assigned; a number that the table does not list is
ILLEGAL, on a service core a service number that is not assigned too, and so is a write of a read-only register; `sys.cldser`
needs the debug flag (R110, R340, R350). -/
def Obligations.SystemRegisterAccessIsChecked : Prop :=
  ∀ (s : State), s.me.mayIssue = true → s.me.suspect = false →
    (∀ r : SysrdI, 0x100 ≤ r.reg.toNat → r.reg.toNat ≤ 0x1FF → s.isSvc s.cur.1 = false →
      exec (.sysrd r) s = .next (trapHere s { code := 6, dk := 0, detail := r.reg.toNat })) ∧
    (∀ w : SyswrI, 0x100 ≤ w.reg.toNat → w.reg.toNat ≤ 0x1FF → s.isSvc s.cur.1 = false →
      exec (.syswr w) s = .next (trapHere s { code := 6, dk := 0, detail := w.reg.toNat })) ∧
    (∀ r : SysrdI, 0x200 ≤ r.reg.toNat ∨ (4 ≤ r.reg.toNat ∧ r.reg.toNat < 8) ∨
        (0x16 ≤ r.reg.toNat ∧ r.reg.toNat < 0x20) ∨ (0x23 ≤ r.reg.toNat ∧ r.reg.toNat < 0x30) ∨
        (0x31 ≤ r.reg.toNat ∧ r.reg.toNat < 0x100) →
      exec (.sysrd r) s = .next (trapHere s { code := 1, dk := 0, detail := 0 })) ∧
    (∀ w : SyswrI, (0x10 ≤ w.reg.toNat ∧ w.reg.toNat < 0x16) ∨ (0x20 ≤ w.reg.toNat ∧ w.reg.toNat < 0x23) ∨
        0x200 ≤ w.reg.toNat ∨ (4 ≤ w.reg.toNat ∧ w.reg.toNat < 8) ∨ (0x16 ≤ w.reg.toNat ∧ w.reg.toNat < 0x20) ∨
        (0x23 ≤ w.reg.toNat ∧ w.reg.toNat < 0x30) ∨ (0x31 ≤ w.reg.toNat ∧ w.reg.toNat < 0x100) →
      exec (.syswr w) s = .next (trapHere s { code := 1, dk := 0, detail := 0 })) ∧
    (s.isSvc s.cur.1 = true →
      let unassigned (n : Nat) : Prop := n = 0x107 ∨ (0x10B ≤ n ∧ n < 0x110) ∨ (0x111 ≤ n ∧ n < 0x120) ∨ (0x130 ≤ n ∧ n < 0x200)
      (∀ r : SysrdI, unassigned r.reg.toNat → exec (.sysrd r) s = .next (trapHere s { code := 1, dk := 0, detail := 0 })) ∧
      (∀ w : SyswrI, unassigned w.reg.toNat ∨ (0x108 ≤ w.reg.toNat ∧ w.reg.toNat ≤ 0x10A) ∨
          (0x120 ≤ w.reg.toNat ∧ w.reg.toNat ≤ 0x12F) →
        exec (.syswr w) s = .next (trapHere s { code := 1, dk := 0, detail := 0 }))) ∧
    (s.me.thread.debug = false →
      (∀ r : SysrdI, r.reg.toNat = 0x30 → exec (.sysrd r) s = .next (trapHere s { code := 6, dk := 0, detail := 0x30 })) ∧
      (∀ w : SyswrI, w.reg.toNat = 0x30 → exec (.syswr w) s = .next (trapHere s { code := 6, dk := 0, detail := 0x30 })))

/-- TRACE completes, and where the slot's trace bit is 1 it writes a marker record: on a core whose ring has room, 16 bytes at the
write offset, type 0xC and the slot in byte 0, the clk since the core's previous record in bytes 1–3, the tag in bytes 4–7 and A
in bytes 8–15, the write offset goes on by 16, and nothing else of memory, the ring or the registers changes; in a full ring the
record is dropped and counted. Where the bit is 0 it writes nothing. Its operand A is read either way (R114, R345; that the
operand is read whatever the bit, and `imm` as A the tag sign-extended, are the model's choices of log 38; that the record is
written at once that of log 36). -/
def Obligations.TraceWritesAMarkerOnlyWhenTraced : Prop :=
  ∀ (x : TraceI) (s : State) (v : Vals), let g : Form := { formSrc x.a with imm := x.tag.signExtend 64 }
    Poised s g v → let u := consumeAll s g
    let r := u.myCore.ring
    let p := r.base + r.wr
    exec (.trace x) s = .next (finish (traceRec (leavePark u) s.cur.1 s.cur.2 0xC x.tag.toNat v.a.toNat) .none
      x.stall.toNat .none .seq false) ∧
    (u.me.trace = false → exec (.trace x) s = .next (delivers s g x.stall .none .seq false)) ∧
    (∀ m, u.me.trace = true → s.me.st = .running → s.cur.2 < 16 → r.bound = true → r.lost = 0 → r.size ≠ 0 →
      u.clk.toNat - r.lastClk ≤ 0xFFFFFE → Clean u → regionOf p = .hbm m →
      ∃ t, exec (.trace x) s = .next t ∧ t.me.hdr = s.me.hdr ∧ t.me.idx = s.me.idx + 1 ∧ t.me.n = u.me.n ∧ t.me.q = u.me.q ∧
        t.me.v = u.me.v ∧ t.me.status = u.me.status ∧
        ((r.wr + 16) % r.size ≠ r.rd → num t.mem p 1 = 0xC + 16 * s.cur.2 ∧ num t.mem (p + 1) 3 = u.clk.toNat - r.lastClk ∧
          num t.mem (p + 4) 4 = x.tag.toNat ∧ num t.mem (p + 8) 8 = v.a.toNat ∧
          (∀ a, a < p ∨ p + 16 ≤ a → cellGet t.mem a = cellGet u.mem a) ∧
          t.myCore.ring = { r with wr := (r.wr + 16) % r.size, lastClk := u.clk.toNat }) ∧
        ((r.wr + 16) % r.size = r.rd → t.mem = u.mem ∧ t.myCore.ring = { r with lost := 1 }))

/-! ### Encoding -/

/-- Every word of R46 is read back from its encoding, with every operand and modifier at every value that the encoding
admits (R36–R47). -/
def Obligations.EncodedWordsDecodeToThemselves : Prop :=
  ∀ (i : Instr) (w : Nat), i.wf = true → encode i = some w → w < 2 ^ 64 ∧ decodeWord w = .ok i

namespace Sys2Proof.Rules

/-- The opcodes that R46 assigns to instructions. -/
def assigned : List Nat :=
  [0x01, 0x02, 0x03, 0x04, 0x05, 0x06, 0x07, 0x10, 0x11, 0x12, 0x13, 0x20, 0x21, 0x22, 0x23, 0x30, 0x31, 0x32, 0x33, 0x34,
   0x35, 0x36, 0x37, 0x40, 0x41, 0x42, 0x43, 0x44, 0x45, 0x48, 0x49, 0x4A, 0x4B, 0x50, 0x58, 0x59, 0x5A, 0x5B, 0x60, 0x61,
   0x62, 0x63, 0x64, 0x65, 0x68, 0x69, 0x70, 0x71, 0x72, 0x73, 0x78, 0x79, 0x7C, 0x7D, 0x80, 0x81, 0x82, 0x83]

end Sys2Proof.Rules

/-- Exactly the words of R46 have an encoding; what the decoder accepts is a word of R46 within its limits; opcodes absent from
the map, 0x00, 0xFF and block headers are no instruction (R46, R47, R52). -/
def Obligations.TheWordMapAndTheEncoderAgree : Prop :=
  (∀ i : Instr, i.isWord = true ↔ ∃ w, encode i = some w) ∧
  ((∀ (w : Nat) (i : Instr), decodeWord w = .ok i → i.wf = true ∧ i.isWord = true) ∧
  (∀ w < 2 ^ 64, w / 2 ^ 56 ∉ assigned → ∀ i, decodeWord w ≠ .ok i))

/-- Words written out bit by bit in the manual are the instructions that the manual says they are (R36, R37, R41, R43,
R45, R46). -/
def Obligations.WordsOfTheManualDecode : Prop :=
  decodeWord 0x0109A29000000000 = .ok (.add { stall := 0, d := .n 3, a := .n 1, b := .n 2, w := .d }) ∧
  decodeWord 0x0209A204FFFFFFF9 =
    .ok (.addImm { stall := 0, d := .n 3, a := .n 1, w := .w, zx := false, imm := 0xFFFFFFF9 }) ∧
  decodeWord 0x400A260300000010 =
    .ok (.ld { stall := 0, d := .n 4, a := .n 3, off := 0x10, w := .w, sx := true, sp := .glb, pol := .nrm, ord := .rlx }) ∧
  decodeWord 0x11002A20FFFFFFFE = .ok (.brnz { stall := 0, a := .n 5, disp := 0xFFFFFFFE }) ∧
  decodeWord 0x120A001200000004 = .ok (.iter { stall := 0, d := 4, cnt := .two, disp := 4 }) ∧
  decodeWord 0x210AA29260200000 =
    .ok (.fma { stall := 0, d := .n 5, a := .n 1, b := .n 2, c := .n 3, ty := .f64, rm := .rne, ftz := false }) ∧
  decodeWord 0x3100841820019000 =
    .ok (.vfma { stall := 0, d := 1, a := 2, b := 3, c := 1, ty := .f32, rm := .rne, ftz := false, k := .n 9 }) ∧
  decodeWord 0x640AA80000000000 = .ok (.barr { stall := 0, d := .n 5, a := .n 4 }) ∧
  decodeWord 0x680028A800400000 = .ok (.send { stall := 0, a := .n 4, b := .n 5, mreg := 2 }) ∧
  decodeWord 0x810A000000000010 = .ok (.sysrd { stall := 0, d := .n 4, reg := 0x10 }) ∧
  (∀ i, decodeWord 0x020AAA1800000001 ≠ .ok i) ∧ (∀ i, decodeWord 0x0109A29000000001 ≠ .ok i) ∧
  (∀ i, decodeWord 0x0101A29000000000 ≠ .ok i)

/-! ### Reset and the step -/

/-- After reset every slot is empty with its system registers and progress record at their reset values, no clk has passed,
no line is poisoned, no reservation is held and every byte of memory reads zero (R64, R76, R77, R86, R111, R151, R259). -/
def Obligations.ResetLeavesTheGivenValues : Prop :=
  let s := State.reset
  (∀ c k, (s.slot c k).st = .empty ∧ (s.slot c k).status = 0 ∧ (s.slot c k).tvec = 0 ∧ (s.slot c k).tcause = 0 ∧
    (s.slot c k).tepc = 0 ∧ (s.slot c k).record.state = .none ∧ (∀ i, (s.slot c k).fmtReg i = 0)) ∧
  s.clk = 0 ∧ s.poison = [] ∧ s.res = [] ∧ (∀ a, cellGet s.mem a = 0)

/-- The memories of the machine right after reset are in canonical form: HBM4E and the host's memory, and those of the cores and
dies. -/
def Obligations.ResetMemoryIsCanonical : Prop := State.reset.memWf = true ∧ State.reset.arraysWf = true

/-- Every step keeps the memories in canonical form: addresses rising, no byte or word listed that equals what an unlisted address
reads as; in HBM4E and the host's memory, and in scratchpads, lane slices, accumulator tiles and chip scratchpads. -/
def Obligations.StepKeepsMemoryCanonical : Prop :=
  ∀ s t : State, step s = .next t → (s.memWf = true → t.memWf = true) ∧ (s.arraysWf = true → t.arraysWf = true)

/-- A slot at its turn, with no other agent's step under way, runs the instruction that its word decodes to, and then the
turn passes on; a core that has written back an uncorrectable line seals instead, at the end of the turn, which is the model's
timing (log 31); a slot whose gang is being saved issues only a word in checker retry (R47, R52, R78, R163, R254). -/
def Obligations.StepRunsTheDecodedWord : Prop :=
  ∀ (s : State) (w : W64), s.agenda = [] → (s.me.st = .running ∧ s.me.stall = 0 ∨ ∃ r, s.me.st = .parked r) →
    s.stopped s.me.thread = false ∨ s.me.retry = true → s.me.entering = false →
    1 ≤ s.me.idx → s.me.idx ≤ hdrLen (s.me.block.headD 0) + 1 → s.me.block[s.me.idx]? = some w →
    (s.myCore.sealDue = false →
      (∀ i t, decodeWord w.toNat = .ok i → exec i s = .next t → step s = .next (nextTurn t)) ∧
      ((∀ i, decodeWord w.toNat ≠ .ok i) →
        (s.me.suspect = false → step s = .next (nextTurn (trapHere s trapIllegal))) ∧
        (s.me.suspect = true → step s = .next (nextTurn (rejectWord s))))) ∧
    (s.myCore.sealDue = true → ∃ t, step s = .next (nextTurn t) ∧ (t.core s.cur.1).isSealed = true)

/-- A slot that has reached the header of a block enters it at no cost of a turn and runs its first word, where the header can be
fetched and names at most 16 live entries; 17 to 31 live entries are ILLEGAL with index 0, whose turn is that of the block's first
word, and a header that is misaligned or has gone is BADTGT, both the model's choices (log 38); a slot enters at the end of the turn
that reaches the header, by a transfer or past the last word of a block; a running slot whose stall counter is not zero issues
nothing and counts down; an empty, faulted or sealed slot, and one whose gang is being saved, does nothing else (R48, R52–R54, R78,
R254). -/
def Obligations.TurnsEnterBlocksOrCountDown : Prop :=
  (∀ s : State, s.agenda = [] → s.me.st = .running → s.me.stall = 0 → s.me.entering = true →
    s.stopped s.me.thread = false ∨ s.me.retry = true → s.myCore.sealDue = false →
    (∀ h w : W64, s.me.hdr.toNat % 8 = 0 → fetchAt s s.me.hdr = .word h → h.toNat / 2 ^ 56 = 0xFE →
      h.toNat / 2 ^ 29 % 2 ^ 5 ≤ 16 → s.me.trace = false → fetchAt s (s.me.hdr + 8) = .word w →
      ∃ ws : List W64, (∀ j : Nat, j ≤ hdrLen h → (∀ i ≤ j, ∃ x, fetchAt s (s.me.hdr + 8 * BitVec.ofNat 64 (i + 1)) = .word x) →
          ∃ x, fetchAt s (s.me.hdr + 8 * BitVec.ofNat 64 (j + 1)) = .word x ∧ ws[j]? = some x) ∧
        let u := s.setMe { s.me with idx := 1, block := h :: ws, entering := false, passed := 0, lastIdx := 0 }
        (∀ i t, decodeWord w.toNat = .ok i → exec i u = .next t → step s = .next (nextTurn t)) ∧
        ((∀ i, decodeWord w.toNat ≠ .ok i) → s.me.suspect = false → step s = .next (nextTurn (trapHere u trapIllegal)))) ∧
    (∀ h : W64, s.me.hdr.toNat % 8 = 0 → fetchAt s s.me.hdr = .word h → h.toNat / 2 ^ 56 = 0xFE →
      16 < h.toNat / 2 ^ 29 % 2 ^ 5 → step s = .next (nextTurn (deliverTrap s s.me.hdr 0 trapIllegal))) ∧
    (noHeaderAt s s.me.hdr → step s = .next (nextTurn (deliverTrap s s.me.hdr 0 (trapBadtgt s.me.hdr))))) ∧
  (∀ (s : State) (h a : W64), s.me.st = .running → s.me.trace = false →
    (s.me.entering = true ∧ a = s.me.hdr ∨ (s.me.entering = false ∧ s.me.block ≠ [] ∧
      s.me.idx = hdrLen (s.me.block.headD 0) + 2 ∧ a = s.me.hdr + 8 * BitVec.ofNat 64 s.me.idx)) →
    a.toNat % 8 = 0 → fetchAt s a = .word h → h.toNat / 2 ^ 56 = 0xFE → h.toNat / 2 ^ 29 % 2 ^ 5 ≤ 16 →
    (∀ t, nextTurn t = passTurn (sealsDue (reachNext t))) ∧
    (reachNext s).me.hdr = a ∧ (reachNext s).me.idx = 1 ∧ (reachNext s).me.block.head? = some h ∧
    (reachNext s).me.entering = false ∧ (reachNext s).me.stall = s.me.stall) ∧
  (∀ s : State,
    exec .turn s = .next (if s.me.st = .running ∧ s.me.stall ≠ 0 then s.setMe { s.me with stall := s.me.stall - 1 } else s) ∧
    (s.agenda = [] → (s.me.st = .running ∧ s.me.stall ≠ 0 ∨ s.me.st = .empty ∨ s.me.st = .faulted ∨ s.me.st = .sealed ∨
        (s.stopped s.me.thread = true ∧ s.me.retry = false)) →
      ∀ t, exec .turn s = .next t → step s = .next (nextTurn t)))

namespace Sys2Proof.Rules

/-- The outcome of a step, after which what is due to seal has sealed (R163). -/
def sealing (o : Host.Outcome State Fault Refusal) : Host.Outcome State Fault Refusal :=
  match o with
  | .next s => .next (sealsDue s)
  | .fault f => .fault f
  | .refused r => .refused r

end Sys2Proof.Rules

/-- Where other agents have steps under way, the free choice of log 5 says whether the current slot's turn or which of them comes
next: the model's own choice of an order, over which the manual leaves agents free, but for the accesses of one function of the
host, whose first comes first (R336); a turn, or the first step under way, that has waited longer than log 5's bound comes next.
After such a step every core that has written back an uncorrectable line seals (R163, R177; at the end of the step is the model's
timing, log 31). -/
def Obligations.AgendaStepsRunAsChosen : Prop :=
  (∀ s : State,
    (∀ c ∈ s.coreKeys, (s.core c).sealDue = true → ((sealsDue s).core c).isSealed = true) ∧
    ((∀ c ∈ s.coreKeys, (s.core c).sealDue = false) → sealsDue s = s)) ∧
  ∀ s : State, s.agenda ≠ [] →
    (Config.patience < s.turnWait → step s = turnStep { s with turnWait := 0, headWait := s.headWait + 1 }) ∧
    (s.turnWait ≤ Config.patience → Config.patience < s.headWait → ∃ i rest, s.agenda = i :: rest ∧
      step s = sealing (exec i { s with agenda := rest, turnWait := s.turnWait + 1, headWait := 0 })) ∧
    (s.turnWait ≤ Config.patience → s.headWait ≤ Config.patience →
      let n := Config.freeNat s.free % (s.agenda.length + 1)
      let u := { s with free := s.free + 1 }
      (n = 0 ∧ step s = turnStep { u with turnWait := 0, headWait := s.headWait + 1 }) ∨
        ∃ i j, 0 < n ∧ s.agenda[j]? = some i ∧ (j ≠ n - 1 → ∃ i', s.agenda[n - 1]? = some i' ∧ hostFunc i' = hostFunc i) ∧
          (hostFunc i ≠ none → ∀ j' < j, ∀ i', s.agenda[j']? = some i' → hostFunc i' ≠ hostFunc i) ∧
          (hostFunc i = none → j = n - 1) ∧
          step s = sealing (exec i { u with
            agenda := dropAt s.agenda j, turnWait := s.turnWait + 1, headWait := if n = 1 then 0 else s.headWait + 1 }))

/-! ### Memory -/

namespace Sys2Proof.Rules

/-- Effective address of an M-format word: A plus the sign-extended offset, modulo 2^64 (R40). -/
def ea (off : BitVec 24) (a : W64) : W64 := BitVec.ofInt 64 (a.toNat + off.toInt)

/-- What n bytes at a location hold: scratchpad, chip scratchpad, a line of the own L1, the host's memory, or HBM4E; none
where they carry an uncorrectable error or the line is poisoned (R160, R162, R163, R292, R298). -/
def valueAt (u : State) (loc : Loc) (n : Nat) : Option Nat :=
  match loc with
  | .spd k o => if (u.core k).flawIn .spd o n then none else some (num (u.core k).spd o n)
  | .chip d o => some (num (u.die d).chip o n)
  | .hit vline off =>
    (l1Find u u.cur.1 u.me.thread.part u.me.thread.asid vline).bind (fun l =>
      if l.flawed then none else some (l.data.toNat / 2 ^ (8 * off) % 2 ^ (8 * n)))
  | .mem pa _ =>
    match regionOf pa with
    | .hbm _ => if u.poisoned pa then none else some (num u.mem pa n)
    | .host => some (num u.hostMem (pa % 2 ^ 49) n)
    | _ => none

/-- An access that is aligned, neither traps nor faults, and has its place in a space; the word has nothing to wait for: no RED
of the thread, no ordering of its slot, no walk (R160, R161, R189, R264, R273). `hits`: a line of the own L1 may answer. -/
structure Reaches (s : State) (f : Form) (sp : Space) (need : Need) (hits : Bool) (e : W64) (n : Nat) (loc : Loc) : Prop where
  /-- the address is a multiple of the size -/
  aligned : e.toNat % n = 0
  /-- it resolves before the sources are read -/
  before : ∃ l, resolve s s.cur.1 s.me.thread sp need hits e n = .ok l
  /-- and within the word, at this location -/
  found : resolve (within s f) (within s f).cur.1 (within s f).me.thread sp need hits e n = .ok loc
  /-- no RED of the thread is outstanding -/
  noRed : NoRed (within s f)
  /-- no ordering of the slot and no walk is outstanding -/
  free : Free (within s f) sp e

/-- The home of a location holds its newest bytes: no L1 holds the 64-byte line dirty (R190, R236). -/
def Current (u : State) (loc : Loc) : Prop :=
  ∀ pa leaf, loc = .mem pa leaf → ∀ e ∈ u.cores, ∀ l ∈ e.2.l1, l.pline / 2 = pa / 64 → l.dirty = 0

/-- No L1 holds bytes that are not yet at home, and the lines of the own L1 hold what their homes hold, without an error. -/
def Settled (u : State) : Prop :=
  Clean u ∧ ∀ l ∈ u.myCore.l1, l.flawed = false ∧ u.poisoned (l.pline * 32) = false ∧ l.data.toNat = num u.mem (l.pline * 32) 32

/-- The bytes of a location carry an uncorrectable error (R163, R298). -/
def Damaged (u : State) (loc : Loc) (n : Nat) : Prop :=
  (∃ k o, loc = .spd k o ∧ (u.core k).flawIn .spd o n = true) ∨
  (∃ pa leaf k, loc = .mem pa leaf ∧ regionOf pa = .hbm k ∧ u.poisoned pa = true) ∨
  (∃ vline off l, loc = .hit vline off ∧ l1Find u u.cur.1 u.me.thread.part u.me.thread.asid vline = some l ∧ l.flawed = true)

/-- The state after a word that issued with a result owed to its destination (R82). -/
def owes (w : State) (d : Dest) (stall : BitVec 3) (val : OwedVal) : State :=
  let o := owe w val
  finish o.2 d stall.toNat (.owed o.1 false) .seq false

/-- The same with a status and a datum (R80). -/
def owesPair (w : State) (d : Dest) (stall : BitVec 3) (val : OwedVal) : State :=
  let o := owe w val
  finish o.2 d stall.toNat (.owed o.1 true) .seq false

/-- The same with a vector register. -/
def owesVec (w : State) (d : Dest) (stall : BitVec 3) (val : OwedVal) : State :=
  let o := owe w val
  finish o.2 d stall.toNat (.owedVec o.1) .seq false

/-- The slots, scratchpads, chip scratchpads, lane slices and tiles are as they were, but for monitors that woke (R244). -/
def CoresKept (u w : State) : Prop :=
  w.cur = u.cur ∧ (∀ c k, { w.slot c k with monitor := Monitor.reset } = { u.slot c k with monitor := Monitor.reset }) ∧
  (∀ c, (w.core c).spd = (u.core c).spd ∧ (w.core c).lanes = (u.core c).lanes ∧ (w.core c).tiles = (u.core c).tiles) ∧
  (∀ d, w.die d = u.die d)

/-- Home address in HBM4E or the host's memory of a location, or of a line of the own L1 that it hits. -/
def HomeAt (u : State) (loc : Loc) (p : Nat) : Prop :=
  (∃ leaf, loc = .mem p leaf) ∨
  (∃ vline off, loc = .hit vline off ∧ ∃ l ∈ (u.core u.cur.1).l1, l.part = u.me.thread.part ∧
    l.asid = u.me.thread.asid ∧ l.vline = vline ∧ p = l.pline * 32 + off)

/-- Every byte outside the n bytes at the named locations reads as it did (R165, R166). -/
def OnlyPlaces (u w : State) (at_ : Loc → Prop) (n : Nat) : Prop :=
  (Clean u →
    (∀ a, (∀ loc p, at_ loc → HomeAt u loc p → a < p ∨ p + n ≤ a) → cellGet w.mem a = cellGet u.mem a) ∧
    (∀ a, (∀ loc p, at_ loc → HomeAt u loc p → a < p % 2 ^ 49 ∨ p % 2 ^ 49 + n ≤ a) →
      cellGet w.hostMem a = cellGet u.hostMem a)) ∧
  (∀ c a, (∀ o, at_ (.spd c o) → a < o ∨ o + n ≤ a) → cellGet (w.core c).spd a = cellGet (u.core c).spd a) ∧
  (∀ d a, (∀ o, at_ (.chip d o) → a < o ∨ o + n ≤ a) → cellGet (w.die d).chip a = cellGet (u.die d).chip a)

/-- Every byte outside the n bytes at a location reads as it did (R165). -/
def OnlyBytesAt (u w : State) (loc : Loc) (n : Nat) : Prop := OnlyPlaces u w (· = loc) n

/-- A store of n bytes of value b at a location has been performed: in a scratchpad, in the host's memory, at the home of a
line of an HC page or one that no L1 takes, or in the line that the own L1 holds or fills (R162, R165, R176, R236). -/
def StoredAt (u w : State) (pol : Policy) (o : Ord) (va : W64) (loc : Loc) (n b : Nat) : Prop :=
  (∀ c q, loc = .spd c q → num (w.core c).spd q n = b) ∧
  (∀ d q, loc = .chip d q → num (w.die d).chip q n = b) ∧
  (Clean u →
    (∀ pa leaf, loc = .mem pa leaf → regionOf pa = .host → num w.hostMem (pa % 2 ^ 49) n = b) ∧
    (∀ pa leaf k, loc = .mem pa leaf → regionOf pa = .hbm k →
      leafClass leaf = 0 ∨ pol = .noal ∨ u.poisoned pa = true → num w.mem pa n = b) ∧
    (∀ pa leaf k, loc = .mem pa leaf → regionOf pa = .hbm k → leafClass leaf ≠ 0 → pol ≠ .noal →
      u.poisoned pa = false → o = .rlx → ∃ l ∈ (w.core u.cur.1).l1, l.vline = va.toNat / 32 ∧
        l.pline = pa / 32 ∧ l.data.toNat / 2 ^ (8 * (pa % 32)) % 2 ^ (8 * n) = b) ∧
    (∀ vline off l, loc = .hit vline off → o = .rlx →
      l1Find u u.cur.1 u.me.thread.part u.me.thread.asid vline = some l →
      l.cls ≠ 0 ∨ (∃ k, regionOf (l.pline * 32 + off) = .hbm k) →
      (∃ m ∈ (w.core u.cur.1).l1, m.vline = vline ∧ m.pline = l.pline ∧
        m.data.toNat / 2 ^ (8 * off) % 2 ^ (8 * n) = b) ∧
      (l.cls = 0 → num w.mem (l.pline * 32 + off) n = b)))

/-- Every slot is as it was, but for monitors that woke (R244). -/
def SlotsAsTheyWere (u w : State) : Prop :=
  w.cur = u.cur ∧ ∀ c k, { w.slot c k with monitor := Monitor.reset } = { u.slot c k with monitor := Monitor.reset }

end Sys2Proof.Rules

/-- LD yields the bytes at its effective address, zero- or sign-extended, as a variable-latency result; bytes with an
uncorrectable error in memory, the scratchpad or a dirty line of the own L1 yield a reply marked so. No register, no
scratchpad and, where no L1 line is dirty, no byte of memory changes (R40, R82, R162, R163, R165). -/
def Obligations.LoadsYieldTheBytesAtTheirAddress : Prop :=
  ∀ (x : LdM) (s : State) (v : Vals) (loc : Loc),
    let u := within s (formA x.a x.d)
    let n := width4 x.w / 8
    Poised s (formA x.a x.d) v → Reaches s (formA x.a x.d) x.sp needLoad true (ea x.off v.a) n loc →
    ∃ w, (∃ val, exec (.ld x) s = .next (owes w (.s x.d) x.stall val)) ∧
      (Current u loc →
        (∀ b, valueAt u loc n = some b → exec (.ld x) s = .next (owes w (.s x.d) x.stall
          (.scalar 0 (if x.sx then wrap (8 * n) b else BitVec.ofNat 64 b)))) ∧
        (Damaged u loc n → exec (.ld x) s = .next (owes w (.s x.d) x.stall .poison))) ∧
      CoresKept u w ∧ (Clean u → w.mem = u.mem ∧ w.hostMem = u.hostMem)

/-- ST writes the low bytes of B at its effective address and nothing else: in a scratchpad, in the host's memory, at the
home of a line of an HC page or one that no L1 takes, or in the line that the own L1 holds or fills (R162, R165, R176, R236).
-/
def Obligations.StoresChangeOnlyTheirBytes : Prop :=
  ∀ (x : StM) (s : State) (v : Vals) (loc : Loc), let g : Form := { noOperands with a := .s x.a, b := .s x.b }
    let u := within s g
    let n := width4 x.w / 8
    Poised s g v → Reaches s g x.sp needStore true (ea x.off v.a) n loc →
    (∃ l, resolve (orderBefore u u.cur.1 x.ord) u.cur.1 u.me.thread x.sp needStore true (ea x.off v.a) n = .ok l) →
    ∃ w, exec (.st x) s = .next (goesOn w x.stall) ∧ SlotsAsTheyWere u w ∧
      StoredAt u w x.pol x.ord (ea x.off v.a) loc n (v.b.toNat % 2 ^ (8 * n)) ∧ (Clean u → OnlyBytesAt u w loc n)

/-! ### Streams, links and messages as operands -/

/-- A read stream yields its next element once it has arrived and counts on, a word that pops it parks with reason stream
before, and meets its failure or error; a write stream takes the result at its next element; past the
count, or unbound, a pop yields 0 and an append is dropped, and send[k] says so. SBIND binds at position 0 and clears
send[k], SUNB unbinds, SSTAT gives the send bits (R169, R170). -/
def Obligations.StreamsPopAndAppendElements : Prop :=
  (∀ (s : State) (k : Fin 8) (imm : W64), let b := s.me.stream k.val
    (b.bound = true ∧ b.wr = false ∧ b.pos < b.count →
      let at_ := resolve s s.cur.1 s.me.thread b.sp needLoad true (b.base + BitVec.ofNat 64 b.pos * b.stride) (2 ^ b.size)
      (∀ e es, b.buf = e :: es → srcGot s imm (.s k) 0 = .ready e) ∧
      (∀ loc val, b.buf = [] → at_ = .ok loc → Current s loc → valueAt s loc (2 ^ b.size) = some val →
        srcGot s imm (.s k) 0 = .park .stream) ∧
      (∀ loc, b.buf = [] → at_ = .ok loc → Current s loc → Damaged s loc (2 ^ b.size) → srcGot s imm (.s k) 0 = .poison) ∧
      (∀ f, b.buf = [] → at_ = .error f → srcGot s imm (.s k) 0 = .fail f) ∧
      consume s (.s (.s k)) = s.setMe { s.me with
        streams := mapSet s.me.streams k.val { b with pos := b.pos + 1, buf := b.buf.drop 1 } }) ∧
    (b.bound = false ∨ b.wr = true ∨ b.count ≤ b.pos →
      srcGot s imm (.s k) 0 = .ready 0 ∧
      consume s (.s (.s k)) = s.setMe { s.me with status := s.me.status ||| BitVec.ofNat 64 (2 ^ (8 + k.val)) })) ∧
  (∀ (s : State) (k : Fin 8) (r : W64) (lat : Nat), let b := s.me.stream k.val
    let n := 2 ^ b.size
    let t := writeResult s (.s (.s k)) (.one r lat)
    Pushed s.me t.me r lat ∧ t.me.n = s.me.n ∧
    (∀ c o, b.bound = true → b.wr = true → b.pos < b.count →
      resolve s s.cur.1 s.me.thread b.sp needStore true (b.base + BitVec.ofNat 64 b.pos * b.stride) n = .ok (.spd c o) →
      num (t.core c).spd o n = r.toNat % 2 ^ (8 * n) ∧ t.me.stream k.val = { b with pos := b.pos + 1 } ∧
      t.me.status = s.me.status ∧ OnlyBytesAt s t (.spd c o) n ∧ t.mem = s.mem ∧ t.hostMem = s.hostMem) ∧
    (∀ loc, let e := b.base + BitVec.ofNat 64 b.pos * b.stride
      b.bound = true → b.wr = true → b.pos < b.count → e.toNat % n = 0 →
      resolve s s.cur.1 s.me.thread b.sp needStore true e n = .ok loc →
      StoredAt s t .nrm .rlx e loc n (r.toNat % 2 ^ (8 * n)) ∧ (Clean s → OnlyBytesAt s t loc n) ∧
      t.me.stream k.val = { b with pos := b.pos + 1 } ∧ t.me.status = s.me.status) ∧
    (b.bound = false ∨ b.wr = false ∨ b.count ≤ b.pos →
      t.me.status = s.me.status ||| BitVec.ofNat 64 (2 ^ (8 + k.val)) ∧ t.me.streams = s.me.streams ∧ t.mem = s.mem)) ∧
  (∀ (x : SbindR) (s : State) (v : Vals), let g : Form := { noOperands with a := .s x.a, b := .s x.b, c := .s x.c }
    let u := within s g
    let n := 2 ^ x.es.toNat
    Poised s g v → v.a.toNat % n = 0 → v.b.toNat % n = 0 →
    v.c = 0 ∨ (x.sp = .glb ∧ canonical v.a = true) ∨
      (x.sp ≠ .glb ∧ ∃ l, resolve s s.cur.1 s.me.thread x.sp needLoad false v.a n = .ok l) →
    (x.wr = true ∨ v.c = 0 ∨ Unfenced (consumeAll s g) → ∃ w, exec (.sbind x) s = .next (goesOn w x.stall) ∧
      w.me = { u.me with
        status := u.me.status &&& ~~~(BitVec.ofNat 64 (2 ^ (8 + x.s.val))),
        streams := mapSet u.me.streams x.s.val { bound := true, wr := x.wr, size := x.es.toNat, sp := x.sp, base := v.a, stride := v.b, count := v.c.toNat, pos := 0, buf := [] } } ∧
      w.mem = u.mem ∧ w.cur = u.cur ∧
      (x.wr = false → v.c ≠ 0 → Instr.streamPrefetch s.cur.1 s.cur.2 x.s.val ∈ w.agenda)) ∧
    (x.wr = false → v.c ≠ 0 → ¬ Unfenced (consumeAll s g) → exec (.sbind x) s = .next (parkHere s .result))) ∧
  (∀ (x : SunbR) (s : State) (v : Vals), Poised s noOperands v →
    ∃ w, exec (.sunb x) s = .next (goesOn w x.stall) ∧ (w.me.stream x.s.val).bound = false ∧
      (∀ j ≠ x.s.val, w.me.stream j = s.me.stream j) ∧ w.me.status = s.me.status ∧ w.mem = s.mem) ∧
  (∀ (x : DR) (s : State) (v : Vals), let g : Form := { noOperands with d := .s x.d }
    Poised s g v → exec (.sstat x) s = .next (delivers s g x.stall
      (.one (BitVec.ofNat 64 (s.me.status.toNat / 2 ^ 8 % 2 ^ 8)) 0) .seq false))

/-- A word written to a link joins the FIFO toward the neighbour and comes to it later, one toward a sealed core is
discarded; reading a link takes the neighbour's oldest word; reading a message register empties it and lets the inbox's
oldest entry for it in (R178, R180, R182, R220). -/
def Obligations.LinksAndMessagesHandWordsOn : Prop :=
  (∀ (s : State) (d : Dir) (r : W64) (lat n : Nat), neighbour s.cur.1 d = some n →
    let t := writeResult s (.s (.link d)) (.one r lat)
    let old := linkFifo s s.cur.1 d s.me.thread
    let new := linkFifo t s.cur.1 d s.me.thread
    Pushed s.me t.me r lat ∧ t.me.n = s.me.n ∧
    ((s.core n).isSealed = false → new.fifo = old.fifo ∧ new.wire = old.wire ++ [r] ∧
      t.agenda = s.agenda ++ [.linkWordArrival s.cur.1 d s.me.thread.launch s.me.thread.gang s.me.thread.j]) ∧
    ((s.core n).isSealed = true → new = old ∧ t.agenda = s.agenda)) ∧
  (∀ (s : State) (d : Dir) (n : Nat) (imm r : W64) (rest : List W64), linkPeer s s.cur.1 s.me.thread d = some n →
    (linkFifo s n (opposite d) s.me.thread).fifo = r :: rest →
    (s.me.fence = none → srcGot s imm (.link d) 0 = .ready r) ∧ (s.me.fence ≠ none → srcGot s imm (.link d) 0 = .park .result) ∧
    (linkFifo (consume s (.s (.link d))) n (opposite d) s.me.thread).fifo = rest ∧
    (consume s (.s (.link d))).me = s.me) ∧
  (∀ (s : State) (k : Fin 8) (imm : W64), (s.me.mreg k.val).full = true →
    let t := consume s (.s (.m k))
    srcGot s imm (.m k) 0 = .ready (s.me.mreg k.val).val ∧
    ((∀ e ∈ s.myCore.inbox, ¬ (e.slot = s.cur.2 ∧ e.reg = k.val)) →
      (t.me.mreg k.val).full = false ∧ t.myCore.inbox = s.myCore.inbox) ∧
    (∀ e, s.myCore.inbox.find? (fun e => e.slot == s.cur.2 && e.reg == k.val) = some e →
      t.me.mreg k.val = { val := e.value, full := true, topx := e.topx } ∧ t.myCore.inbox = s.myCore.inbox.erase e) ∧
    (∀ j ≠ k.val, t.me.mreg j = s.me.mreg j) ∧ t.me.n = s.me.n ∧ t.me.q = s.me.q)

/-! ### Vector memory -/

namespace Sys2Proof.Rules

/-- Every enabled lane's address is a multiple of 4 and neither traps nor faults, before the sources are read and within the
word, which has nothing to wait for. -/
def LanesReach (s : State) (g : Form) (sp : Space) (need : Need) (k : Src) (m : W64) (addr : Nat → W64) : Prop :=
  NoRed (within s g) ∧ Unfenced (within s g) ∧ ∀ e, enables k m e → (addr e).toNat % 4 = 0 ∧ Free (within s g) sp (addr e) ∧
    (∃ l, resolve s s.cur.1 s.me.thread sp need true (addr e) 4 = .ok l) ∧
    ∃ l, resolve (within s g) (within s g).cur.1 (within s g).me.thread sp need true (addr e) 4 = .ok l

/-- The place of a lane's word within the word that accesses it. -/
def placeOf (u : State) (sp : Space) (need : Need) (a : W64) (n : Nat) (loc : Loc) : Prop :=
  resolve u u.cur.1 u.me.thread sp need true a n = .ok loc

/-- A vector load: each enabled lane takes the word at its address, each disabled lane keeps its bits and accesses nothing;
the register is owed; a lane whose bytes carry an error makes the reply one marked so (R83, R117, R166, R298). In .GLB the
values are stated for a word with one enabled lane whose home is current, and for every lane where the L1s hold what their
homes hold, since lanes that share L1 lines may fill and write back one another's. -/
def VLoads (i : Instr) (s : State) (g : Form) (stall : BitVec 3) (d : VReg) (sp : Space) (k : Src) (m : W64)
    (addr : Nat → W64) : Prop :=
  LanesReach s g sp needLoad k m addr →
  let u := within s g
  let old := (s.me.vCell d.val).val
  let one : Prop := ∀ e e', enables k m e → enables k m e' → e' = e
  ∃ w, (∃ t, exec i s = .next t) ∧ CoresKept u w ∧ (Clean u → w.mem = u.mem ∧ w.hostMem = u.hostMem) ∧
    (exec i s = .next (owesVec w (.v d) stall .poison) ∨
      ∃ r : VImage, exec i s = .next (owesVec w (.v d) stall (.vector r)) ∧
        ∀ e < 32, ¬ enables k m e → held 32 r e = held 32 old e) ∧
    (sp ≠ .glb ∨ Settled u ∨ (one ∧ ∀ e loc, enables k m e → placeOf u sp needLoad (addr e) 4 loc → Current u loc) →
      ((∃ e loc, enables k m e ∧ placeOf u sp needLoad (addr e) 4 loc ∧ Damaged u loc 4) →
        exec i s = .next (owesVec w (.v d) stall .poison)) ∧
      ∀ val : Nat → Nat, (∀ e, enables k m e → ∃ loc, placeOf u sp needLoad (addr e) 4 loc ∧ valueAt u loc 4 = some (val e)) →
        ∃ r : VImage, exec i s = .next (owesVec w (.v d) stall (.vector r)) ∧
          (∀ e, enables k m e → held 32 r e = val e) ∧ ∀ e < 32, ¬ enables k m e → held 32 r e = held 32 old e)

/-- A vector store: the word of each enabled lane takes its lane, the higher-numbered lane's where two name one word, and no
other byte changes (R166). In .GLB the bytes are stated for a word with one enabled lane, and for lanes that all go to HC pages
and miss the own L1. -/
def VStores (i : Instr) (s : State) (g : Form) (stall : BitVec 3) (sp : Space) (pol : Policy) (o : Ord) (k : Src) (m : W64)
    (addr : Nat → W64) (val : VImage) : Prop :=
  LanesReach s g sp needStore k m addr →
  let u := within s g
  ∃ w, exec i s = .next (goesOn w stall) ∧ SlotsAsTheyWere u w ∧
    (∀ e c q, enables k m e → (∀ e', e < e' → enables k m e' → addr e' ≠ addr e) →
      placeOf u sp needStore (addr e) 4 (.spd c q) → num (w.core c).spd q 4 = held 32 val e) ∧
    (∀ e d q, enables k m e → (∀ e', e < e' → enables k m e' → addr e' ≠ addr e) →
      placeOf u sp needStore (addr e) 4 (.chip d q) → num (w.die d).chip q 4 = held 32 val e) ∧
    (∀ e loc, enables k m e → (∀ e', enables k m e' → e' = e) → placeOf u sp needStore (addr e) 4 loc →
      StoredAt u w pol o (addr e) loc 4 (held 32 val e)) ∧
    (∀ pa : Nat → Nat, Clean u → (∀ e, enables k m e → ∃ leaf c, placeOf u sp needStore (addr e) 4 (.mem (pa e) leaf) ∧
        leafClass leaf = 0 ∧ regionOf (pa e) = .hbm c) →
      ∀ e, enables k m e → (∀ e', e < e' → enables k m e' → pa e' ≠ pa e) → num w.mem (pa e) 4 = held 32 val e) ∧
    OnlyPlaces u w (fun loc => ∃ e, enables k m e ∧ placeOf u sp needStore (addr e) 4 loc) 4

/-- The conditions of a block-scaled word beside its lanes: a valid format register whose scale kind matches C (R167). -/
def BlockFits (s : State) (fmt : Fin 8) (c : Src) : Prop :=
  let n := narrowOf (s.me.fmtReg fmt.val)
  imageValid (s.me.fmtReg fmt.val) = true ∧ (n.scale = 0 ↔ c = .z)

/-- Elements that share a scale: 32 under E8M0, 16 under E4M3, none without a scale kind (R65, R69). -/
def block (n : Narrow) : Nat := match n.scale with | 1 => 32 | 2 => 16 | _ => 0

/-- Number of scale bytes of 32 elements. -/
def scales (n : Narrow) : Nat := match n.scale with | 1 => 1 | 2 => 2 | _ => 0

/-- A byte at an address of a space, without an error, is b. -/
def ByteIs (u : State) (sp : Space) (a : W64) (b : Nat) : Prop := ∃ loc, placeOf u sp needLoad a 1 loc ∧ valueAt u loc 1 = some b

/-- The word has nothing to wait for at any byte of the elements at a and of the scales at c. -/
def BlockFree (u : State) (sp : Space) (n : Narrow) (a c : W64) : Prop :=
  NoRed u ∧ Unfenced u ∧ (∀ i < 4 * n.width, Free u sp (a + BitVec.ofNat 64 i)) ∧
    ∀ i < scales n, Free u sp (c + BitVec.ofNat 64 i)

/-- Every byte of the elements at a and of the scales at c resolves. -/
def BlockReach (u : State) (sp : Space) (need : Need) (n : Narrow) (a c : W64) : Prop :=
  (∀ i < 4 * n.width, ∃ l, resolve u u.cur.1 u.me.thread sp need true (a + BitVec.ofNat 64 i) 1 = .ok l) ∧
  (∀ i < scales n, ∃ l, resolve u u.cur.1 u.me.thread sp need true (c + BitVec.ofNat 64 i) 1 = .ok l)

/-- Byte i from an address on of the current core's scratchpad. -/
def spdByte (u : State) (a : W64) (i : Nat) : Nat := (cellGet u.myCore.spd (a + BitVec.ofNat 64 i).toNat).toNat

/-- Code e of elements packed from an address on (R68). -/
def packed (byte : Nat → Nat) (w e : Nat) : Nat := (byte (w * e / 8) + 256 * byte (w * e / 8 + 1)) / 2 ^ (w * e % 8) % 2 ^ w

end Sys2Proof.Rules

/-- Vector loads and stores act on the enabled lanes at A + 4i, A + i × C, and A plus a lane's offset (R166). -/
def Obligations.VectorMemoryActsOnEnabledLanes : Prop :=
  (∀ (x : VldR) (s : State) (v : Vals), let g : Form := { noOperands with a := .s x.a, k := .s x.k, d := .v x.d }
    Poised s g v → VLoads (.vld x) s g x.stall x.d x.sp x.k v.k (fun e => v.a + 4 * BitVec.ofNat 64 e)) ∧
  (∀ (x : VldsR) (s : State) (v : Vals),
    let g : Form := { noOperands with a := .s x.a, c := .s x.c, k := .s x.k, d := .v x.d }
    Poised s g v → VLoads (.vlds x) s g x.stall x.d x.sp x.k v.k (fun e => v.a + BitVec.ofInt 64 (e * v.c.toInt))) ∧
  (∀ (x : VgthR) (s : State) (v : Vals),
    let g : Form := { noOperands with a := .s x.a, b := .v x.b, k := .s x.k, d := .v x.d }
    Poised s g v → VLoads (.vgth x) s g x.stall x.d x.sp x.k v.k (fun e => v.a + BitVec.ofNat 64 (held 32 v.vb e))) ∧
  (∀ (x : VstR) (s : State) (v : Vals), let g : Form := { noOperands with a := .s x.a, b := .v x.b, k := .s x.k }
    Poised s g v → VStores (.vst x) s g x.stall x.sp x.pol x.ord x.k v.k (fun e => v.a + 4 * BitVec.ofNat 64 e) v.vb) ∧
  (∀ (x : VstsR) (s : State) (v : Vals),
    let g : Form := { noOperands with a := .s x.a, b := .v x.b, c := .s x.c, k := .s x.k }
    Poised s g v →
    VStores (.vsts x) s g x.stall x.sp x.pol x.ord x.k v.k (fun e => v.a + BitVec.ofInt 64 (e * v.c.toInt)) v.vb) ∧
  (∀ (x : VsctR) (s : State) (v : Vals),
    let g : Form := { noOperands with a := .s x.a, b := .v x.b, c := .v x.c, k := .s x.k }
    Poised s g v →
    VStores (.vsct x) s g x.stall x.sp x.pol x.ord x.k v.k (fun e => v.a + BitVec.ofNat 64 (held 32 v.vc e)) v.vb)

/-- VLDB yields FP32 lanes of the scaled elements, VSTB writes the codes of the enabled lanes under the scales that R70
chooses, code 0 for a disabled one; VLDL and VSTL move the words at one offset of the lane slices; PREF changes no value
(R132, R167, R168). -/
def Obligations.BlockScaledAndSliceWordsMoveLanes : Prop :=
  (∀ (x : VldbR) (s : State) (v : Vals),
    let g : Form := { noOperands with a := .s x.a, c := .s x.c, k := .s x.k, d := .v x.d }
    let u := within s g
    let n := narrowOf (s.me.fmtReg x.fmt.val)
    let old := (s.me.vCell x.d.val).val
    Poised s g v → BlockFits s x.fmt x.c → v.a.toNat % 4 = 0 → BlockReach s x.sp needLoad n v.a v.c →
    BlockReach u x.sp needLoad n v.a v.c → BlockFree u x.sp n v.a v.c →
    ∃ w, (∃ t, exec (.vldb x) s = .next t) ∧ CoresKept u w ∧ (Clean u → w.mem = u.mem ∧ w.hostMem = u.hostMem) ∧
      (exec (.vldb x) s = .next (owesVec w (.v x.d) x.stall .poison) ∨
        ∃ r : VImage, exec (.vldb x) s = .next (owesVec w (.v x.d) x.stall (.vector r)) ∧
          ∀ e < 32, ¬ enables x.k v.k e → held 32 r e = held 32 old e) ∧
      ∀ A C : Nat → Nat, x.sp ≠ .glb ∨ Settled u → (∀ i < 4 * n.width, ByteIs u x.sp (v.a + BitVec.ofNat 64 i) (A i)) →
        (∀ i < scales n, ByteIs u x.sp (v.c + BitVec.ofNat 64 i) (C i)) →
        ∃ r : VImage, exec (.vldb x) s = .next (owesVec w (.v x.d) x.stall (.vector r)) ∧
          (∀ e < 32, ¬ enables x.k v.k e → held 32 r e = held 32 old e) ∧
          ∀ e, enables x.k v.k e → held 32 r e = pack fmt32 .rne false (scaledRead n s.me.topx
            (if block n = 0 then 0 else C (e / block n)) (packed A n.width e))) ∧
  (∀ (x : VstbR) (s : State) (v : Vals),
    let g : Form := { noOperands with a := .s x.a, b := .v x.b, c := .s x.c, k := .s x.k }
    let u := within s g
    let n := narrowOf (s.me.fmtReg x.fmt.val)
    let value (e : Nat) : Machine.Num := unpack fmt32 false (held 32 v.vb e)
    let scale (b : Nat) : Nat := scaleChoose n s.me.topx (blockMax (maskOf x.k v.k) value (block n * b) (block n))
    let holds (A C : Nat → Nat) : Prop :=
      (∀ b < scales n, C b = scale b) ∧
      (∀ e, enables x.k v.k e → packed A n.width e =
        if block n = 0 then n.write s.me.topx .rne (value e)
        else scaledWrite n s.me.topx .rne (scale (e / block n)) (value e)) ∧
      ∀ e < 32, ¬ enables x.k v.k e → packed A n.width e = 0
    Poised s g v → BlockFits s x.fmt x.c → v.a.toNat % 4 = 0 → BlockReach s x.sp needStore n v.a v.c →
    BlockReach u x.sp needStore n v.a v.c → BlockFree u x.sp n v.a v.c →
    ∃ w sn, exec (.vstb x) s = .next (finish w .none x.stall.toNat .none .seq sn) ∧
      (sn = true ↔ anySignals fmt32 x.k v.k v.vb) ∧ SlotsAsTheyWere u w ∧
      (x.sp = .spd → (∀ i < 4 * n.width, ∀ j < scales n, v.a + BitVec.ofNat 64 i ≠ v.c + BitVec.ofNat 64 j) →
        holds (spdByte w v.a) (spdByte w v.c)) ∧
      (∀ pa pc : Nat → Nat, Clean u →
        (∀ i < 4 * n.width, (∃ leaf k, placeOf u x.sp needStore (v.a + BitVec.ofNat 64 i) 1 (.mem (pa i) leaf) ∧
          leafClass leaf = 0 ∧ regionOf (pa i) = .hbm k) ∧ (∀ j < scales n, pa i ≠ pc j) ∧ ∀ j < i, pa i ≠ pa j) →
        (∀ i < scales n, (∃ leaf k, placeOf u x.sp needStore (v.c + BitVec.ofNat 64 i) 1 (.mem (pc i) leaf) ∧
          leafClass leaf = 0 ∧ regionOf (pc i) = .hbm k) ∧ ∀ j < i, pc i ≠ pc j) →
        holds (fun i => if i < 4 * n.width then (cellGet w.mem (pa i)).toNat else 0) (fun j => (cellGet w.mem (pc j)).toNat)) ∧
      OnlyPlaces u w (fun loc => (∃ i < 4 * n.width, placeOf u x.sp needStore (v.a + BitVec.ofNat 64 i) 1 loc) ∨
        ∃ j < scales n, placeOf u x.sp needStore (v.c + BitVec.ofNat 64 j) 1 loc) 1) ∧
  (∀ (x : VldlR) (s : State) (v : Vals) (gg : Gang),
    let g : Form := { noOperands with a := .s x.a, k := .s x.k, d := .v x.d }
    let u := consumeAll s g
    Poised s g v → v.a.toNat % 4 = 0 → v.a.toNat ≤ 4092 → s.gangOf s.me.thread = some gg → gg.lanes = true →
    gg.covers s.cur.1 = true →
    let flawed (e : Nat) : Bool := u.myCore.flawIn .slice (4096 * e + v.a.toNat) 4
    ((∀ e, enables x.k v.k e → flawed e = false) →
      ∃ r : VImage, exec (.vldl x) s = .next (owesVec u (.v x.d) x.stall (.vector r)) ∧
        Lanes 32 x.k v.k (s.me.vCell x.d.val).val r (fun e => num s.myCore.lanes (4096 * e + v.a.toNat) 4)) ∧
    ((∃ e, enables x.k v.k e ∧ flawed e = true) →
      exec (.vldl x) s = .next (owesVec u (.v x.d) x.stall .poison))) ∧
  (∀ (x : VstlR) (s : State) (v : Vals) (gg : Gang),
    let g : Form := { noOperands with a := .s x.a, b := .v x.b, k := .s x.k }
    let u := consumeAll s g
    Poised s g v → v.a.toNat % 4 = 0 → v.a.toNat ≤ 4092 → s.gangOf s.me.thread = some gg → gg.lanes = true →
    gg.covers s.cur.1 = true →
    ∃ m : Memory, exec (.vstl x) s = .next (goesOn (u.setCore u.cur.1 { u.myCore with lanes := m }) x.stall) ∧
      (∀ e, enables x.k v.k e → num m (4096 * e + v.a.toNat) 4 = held 32 v.vb e) ∧
      (∀ a, (∀ e, enables x.k v.k e → a < 4096 * e + v.a.toNat ∨ 4096 * e + v.a.toNat + 4 ≤ a) →
        cellGet m a = cellGet s.myCore.lanes a)) ∧
  (∀ (x : PrefM) (s : State) (v : Vals), Poised s (formSrc x.a) v →
    ∃ w, exec (.pref x) s = .next (goesOn w x.stall) ∧ CoresKept (consumeAll s (formSrc x.a)) w ∧
      (Clean (consumeAll s (formSrc x.a)) → w.mem = (consumeAll s (formSrc x.a)).mem) ∧
      (x.sp ≠ .glb → w = consumeAll s (formSrc x.a)))

/-! ### Atomic words -/

namespace Sys2Proof.Rules

/-- The word of HBM4E that an atomic word acts on at the home of its line: its page permits it before the sources are read
and within the word, and the word has nothing to wait for (R175, R189, R273, R301). -/
structure AtHome (s : State) (f : Form) (need : Need) (e : W64) (n : Nat) (pa : Nat) (leaf : W64) : Prop where
  aligned : e.toNat % n = 0
  before : ∃ l, resolve s s.cur.1 s.me.thread .glb need false e n = .ok l
  found : translate (within s f) (within s f).cur.1 (within s f).me.thread need e = .ok (pa, leaf)
  noRed : NoRed (within s f)
  free : Free (within s f) .glb e

/-- Whether a word's full/empty bit says full (R174). -/
def isFullAt (u : State) (pa : Nat) : Bool := u.full.contains (pa / 4)

/-- The thread that waits or holds, as a reservation queue names it: serial, gang index, thread index (R201, R300). -/
def tid (u : State) : W64 :=
  BitVec.ofNat 64 (u.me.thread.launch % 2 ^ 16 * 2 ^ 40 + u.me.thread.gang % 2 ^ 32 * 2 ^ 8 + u.me.thread.index % 2 ^ 8)

/-- The queue of a line: the threads in it, in order (R300). -/
def queueOf (u : State) (line : Nat) : List W64 := (u.res.filter (fun e => e.line == line)).map (·.tid)

/-- One read-modify-write of R239 on w bits, from the old value and B. -/
def amo (op : AmoOp) (w old b : Nat) : Nat :=
  let sg (x : Nat) : Int := Int.bmod x (2 ^ w)
  let two (o : FpOp2) : Nat := fp2 o fmtBf .rne false (old % 2 ^ 16) (b % 2 ^ 16) +
    2 ^ 16 * fp2 o fmtBf .rne false (old / 2 ^ 16) (b / 2 ^ 16)
  match op with
  | .add => (old + b) % 2 ^ w
  | .min => if sg b < sg old then b else old
  | .max => if sg old < sg b then b else old
  | .minu => min old b
  | .maxu => max old b
  | .and => old &&& b
  | .or => old ||| b
  | .xor => old ^^^ b
  | .swap => b
  | .fadd => fp2 .add fmt32 .rne false old b
  | .fmin => fp2 .min fmt32 .rne false old b
  | .fmax => fp2 .max fmt32 .rne false old b
  | .badd => two .add
  | .bmin => two .min
  | .bmax => two .max

/-- The FP operations, which take 32 bits (R239). -/
def isFp : AmoOp → Bool
  | .fadd | .fmin | .fmax | .badd | .bmin | .bmax => true
  | _ => false

/-- The old value as D receives it: sign-extended at .W unless the operation is an FP one (R239). -/
def oldValue (fp : Bool) (w old : Nat) : W64 := if fp then BitVec.ofNat 64 old else wrap w old

/-- The n bytes at a location after a read-modify-write. -/
def written (w : State) (loc : Loc) (n : Nat) : Option Nat :=
  match loc with
  | .spd k o => some (num (w.core k).spd o n)
  | .chip d o => some (num (w.die d).chip o n)
  | .mem pa _ => some (num w.mem pa n)
  | .hit _ _ => none

/-- The slots are as they were, but for monitors that woke and for the sticky bit of the issuing slot, set where a signalling NaN
was read. -/
def SlotsKept (u w : State) (snan : Bool) : Prop :=
  w.cur = u.cur ∧ w.me.status = statusAfter u.me.status snan ∧
  ∀ c k, { w.slot c k with monitor := Monitor.reset, status := 0 } = { u.slot c k with monitor := Monitor.reset, status := 0 }

end Sys2Proof.Rules

/-- AMO and CAS read and write their location in one step and yield the old value, or a reply marked uncorrectable where it
is; RED does so without a result, in .GLB
later, when its translation is done (R238, R239, R240). -/
def Obligations.AtomicsReadAndWriteAtOnce : Prop :=
  (∀ (x : AmoR) (s : State) (v : Vals) (loc : Loc) (old : Nat),
    let u := within s (formAB x.a x.b x.d)
    let n := width x.w / 8
    Poised s (formAB x.a x.b x.d) v → Reaches s (formAB x.a x.b x.d) x.sp needAtomic false v.a n loc → Clean u →
    (isFp x.op = true → x.w = .w) → valueAt u loc n = some old →
    ∃ w, exec (.amo x) s = .next (owes w (.s x.d) x.stall (.scalar 0 (oldValue (isFp x.op) (8 * n) old))) ∧
      written w loc n = some (amo x.op (8 * n) old (low (8 * n) v.b)) ∧ SlotsKept u w (amoSnan x.op v.b) ∧ OnlyBytesAt u w loc n) ∧
  (∀ (x : CasR) (s : State) (v : Vals) (loc : Loc) (old : Nat),
    let u := within s (formABC x.a x.b x.c x.d)
    let n := width x.w / 8
    Poised s (formABC x.a x.b x.c x.d) v → Reaches s (formABC x.a x.b x.c x.d) x.sp needAtomic false v.a n loc →
    Clean u → valueAt u loc n = some old →
    ∃ w, exec (.cas x) s = .next (owes w (.s x.d) x.stall (.scalar 0 (wrap (8 * n) old))) ∧
      written w loc n = some (if old = low (8 * n) v.b then low (8 * n) v.c else old) ∧ SlotsKept u w false ∧
      OnlyBytesAt u w loc n) ∧
  (∀ (x : AmoR) (s : State) (v : Vals) (loc : Loc),
    let u := within s (formAB x.a x.b x.d)
    let n := width x.w / 8
    Poised s (formAB x.a x.b x.d) v → Reaches s (formAB x.a x.b x.d) x.sp needAtomic false v.a n loc → Damaged u loc n →
    ∃ w, exec (.amo x) s = .next (owes w (.s x.d) x.stall .poison) ∧ SlotsKept u w (amoSnan x.op v.b) ∧
      (Clean u → w.mem = u.mem)) ∧
  (∀ (x : CasR) (s : State) (v : Vals) (loc : Loc),
    let u := within s (formABC x.a x.b x.c x.d)
    let n := width x.w / 8
    Poised s (formABC x.a x.b x.c x.d) v → Reaches s (formABC x.a x.b x.c x.d) x.sp needAtomic false v.a n loc →
    Damaged u loc n →
    ∃ w, exec (.cas x) s = .next (owes w (.s x.d) x.stall .poison) ∧ SlotsKept u w false ∧
      (Clean u → w.mem = u.mem)) ∧
  (∀ (x : RedR) (s : State) (v : Vals), let g : Form := { noOperands with a := .s x.a, b := .s x.b }
    let u := if ordIsRelease x.ord then within s g else consumeAll s g
    let n := width x.w / 8
    Poised s g v → v.a.toNat % n = 0 → (ordIsRelease x.ord = true → NoRed u) → Unfenced u → (isFp x.op = true → x.w = .w) →
    (x.sp = .glb → canonical v.a = true → NoClaim u →
      ∃ w id, exec (.red x) s = .next (goesOn w x.stall) ∧ Instr.redTranslation id ∈ w.agenda ∧
        w.reds = u.reds ++ [{ id := id, core := s.cur.1, slot := s.cur.2, thr := s.me.thread, op := x.op, w := x.w, addr := v.a, val := v.b, word := s.me.hdr + 8 * BitVec.ofNat 64 s.me.idx, failed := false }]) ∧
    (∀ loc old, x.sp ≠ .glb → resolve s s.cur.1 s.me.thread x.sp needAtomic false v.a n = .ok loc → Clean u →
      valueAt u loc n = some old →
      ∃ w, exec (.red x) s = .next (goesOn w x.stall) ∧
        written w loc n = some (amo x.op (8 * n) old (low (8 * n) v.b)) ∧ SlotsKept u w (amoSnan x.op v.b) ∧ OnlyBytesAt u w loc n))

/-- LDC waits until its word is full, takes it and leaves it empty; STF waits until it is empty, writes it and leaves it
full; no other word's bit changes (R174, R175). -/
def Obligations.FullEmptyWordsHandDataOver : Prop :=
  (∀ (x : LdcM) (s : State) (v : Vals) (pa : Nat) (leaf : W64), let f := formA x.a x.d
    let u := within s f
    Poised s f v → AtHome s f needLdc (ea x.off v.a) 4 pa leaf → Clean u → u.poisoned pa = false →
    (isFullAt u pa = false → exec (.ldc x) s = .next (parkHere s .fullempty)) ∧
    (isFullAt u pa = true →
      ∃ w, exec (.ldc x) s = .next (owes w (.s x.d) x.stall (.scalar 0 (BitVec.ofNat 64 (num u.mem pa 4)))) ∧
        isFullAt w pa = false ∧ (∀ q, q / 4 ≠ pa / 4 → isFullAt w q = isFullAt u q) ∧ CoresKept u w ∧ w.mem = u.mem)) ∧
  (∀ (x : StfM) (s : State) (v : Vals) (pa : Nat) (leaf : W64),
    let g : Form := { noOperands with a := .s x.a, b := .s x.b }
    let u := within s g
    Poised s g v → AtHome s g needStf (ea x.off v.a) 4 pa leaf → Clean u → u.poisoned pa = false →
    (isFullAt u pa = true → exec (.stf x) s = .next (parkHere s .fullempty)) ∧
    (isFullAt u pa = false →
      ∃ w, exec (.stf x) s = .next (goesOn w x.stall) ∧ isFullAt w pa = true ∧
        (∀ q, q / 4 ≠ pa / 4 → isFullAt w q = isFullAt u q) ∧ num w.mem pa 4 = low 32 v.b ∧ CoresKept u w ∧
        (∀ a, a < pa ∨ pa + 4 ≤ a → cellGet w.mem a = cellGet u.mem a)))

/-- LRW takes its word when its thread holds the line, writing back what it reads, joins the line's queue and waits otherwise; SCH
stores and releases for the holder, and yields 1 and stores nothing for another thread, and for a holder past its tenure; RREL
gives the holder's place up (R300, R301, R302). -/
def Obligations.ReservationsPassInOrder : Prop :=
  (∀ (x : LrwR) (s : State) (v : Vals) (pa : Nat) (leaf : W64), let f := formA x.a x.d
    let u := within s f
    let n := width x.w / 8
    Poised s f v → AtHome s f needLrw v.a n pa leaf → Clean u → u.poisoned pa = false →
    ((queueOf u (pa / 64)).head? = some (tid u) ∨
        (queueOf u (pa / 64) = [] ∧ s.me.asked = false ∧
          (u.res.filter (fun e => bankOf e.line == bankOf (pa / 64))).length < 64) →
      ∃ w, exec (.lrw x) s = .next (owes w (.s x.d) x.stall (.scalar 0 (BitVec.ofNat 64 (num u.mem pa n)))) ∧
        (queueOf w (pa / 64)).head? = some (tid u) ∧ CoresKept u w ∧ (∀ a, cellGet w.mem a = cellGet u.mem a)) ∧
    (queueOf u (pa / 64) ≠ [] → tid u ∉ queueOf u (pa / 64) → s.me.asked = false → s.me.trace = false →
      (u.res.filter (fun e => bankOf e.line == bankOf (pa / 64))).length < 64 →
      ∃ t, exec (.lrw x) s = .next t ∧ t.me.st = .parked .reservation ∧
        queueOf t (pa / 64) = queueOf s (pa / 64) ++ [tid s] ∧ t.mem = s.mem) ∧
    (queueOf u (pa / 64) ≠ [] → tid u ∉ queueOf u (pa / 64) → s.me.asked = false →
      64 ≤ (u.res.filter (fun e => bankOf e.line == bankOf (pa / 64))).length →
      ∃ t, exec (.lrw x) s = .next t ∧ t.me.st = .parked .reservation ∧ t.res = s.res ∧ t.me.sleepLeft = some 16)) ∧
  (∀ (x : SchR) (s : State) (v : Vals) (pa : Nat) (leaf : W64), let f := formAB x.a x.b x.d
    let u := within s f
    let n := width x.w / 8
    Poised s f v → AtHome s f needLrw v.a n pa leaf → Clean u → u.poisoned pa = false →
    ((queueOf u (pa / 64)).head? = some (tid u) → tenureOver u (pa / 64) = false →
      ∃ w, exec (.sch x) s = .next (owes w (.s x.d) x.stall (.scalar 0 0)) ∧ num w.mem pa n = low (8 * n) v.b ∧
        (∀ a, a < pa ∨ pa + n ≤ a → cellGet w.mem a = cellGet u.mem a) ∧
        queueOf w (pa / 64) = (queueOf u (pa / 64)).filter (· != tid u) ∧ CoresKept u w) ∧
    ((queueOf u (pa / 64)).head? ≠ some (tid u) ∨ tenureOver u (pa / 64) = true →
      ∃ w, exec (.sch x) s = .next (owes w (.s x.d) x.stall (.scalar 0 1)) ∧ w.mem = u.mem ∧ w.res = u.res ∧
        CoresKept u w)) ∧
  (∀ (x : RrelR) (s : State) (v : Vals) (pa : Nat) (leaf : W64), let g := formSrc x.a
    let u := within s g
    Poised s g v → AtHome s g needLrw v.a (width x.w / 8) pa leaf → Clean u →
    ∃ w, exec (.rrel x) s = .next (goesOn w x.stall) ∧ w.mem = u.mem ∧ CoresKept u w ∧
      ((queueOf u (pa / 64)).head? = some (tid u) →
        queueOf w (pa / 64) = (queueOf u (pa / 64)).filter (· != tid u)) ∧
      ((queueOf u (pa / 64)).head? ≠ some (tid u) → w.res = u.res))

/-! ### Tensor words -/

namespace Sys2Proof.Rules

/-- The current thread, which has not migrated, has an accumulator tile of its gang on its core (R141, R226). -/
def HoldsTile (s : State) (k : Nat) : Prop :=
  s.me.thread.rect = true ∧ ∃ g, s.gangOf s.me.thread = some g ∧ g.covers s.cur.1 = true ∧ g.tiles.getLsbD k = true

/-- The record of the current slot's load is running or faulted (R151). -/
def loads (x : Slot) : Prop := x.record.state = .running ∨ x.record.state = .faulted

/-- Some load of the current core that is running or faulted satisfies a test. -/
def SomeLoad (s : State) (p : Record → Prop) : Prop := ∃ e ∈ s.myCore.slots, loads e.2 ∧ p e.2.record

/-- Word i of a tile of the current core. -/
def tileWord (u : State) (k i : Nat) : BitVec 32 := cellGet u.myCore.tiles (k * 4096 + i)

/-- A field of bits of a word. -/
def bits (w : W64) (lo n : Nat) : Nat := w.toNat / 2 ^ lo % 2 ^ n

/-- Only the named things of the current core changed: slots, memories and other cores are as they were. -/
def CoreOnly (u w : State) : Prop :=
  w.cur = u.cur ∧ (∀ c k, w.slot c k = u.slot c k) ∧ (∀ c, c ≠ u.cur.1 → w.core c = u.core c) ∧
  (∀ c, (w.core c).spd = (u.core c).spd ∧ (w.core c).lanes = (u.core c).lanes) ∧ w.mem = u.mem ∧ w.hostMem = u.hostMem

end Sys2Proof.Rules

/-- ODEF binds an operand slot under a new generation, SPFENCE leaves the slots it names no older value that a use could still
read; CZERO clears a tile, CRD reads a row and CWR writes one (R138, R140, R142). That a load which is running reads no older value
after SPFENCE either, where R140 allows the earlier value too, is the model's choice (log 38). -/
def Obligations.OperandSlotsAndTilesAreWritten : Prop :=
  (∀ (x : OdefR) (s : State) (v : Vals), let g : Form := { noOperands with a := .s x.a, b := .s x.b, c := .s x.c }
    let u := consumeAll s g
    let o := s.myCore.opslot x.os.val
    let gen := (o.gen + 1) % 256
    Poised s g v → v.a.toNat % 32 = 0 → v.a.toNat < 262144 → 1 ≤ v.b.toNat → v.b.toNat ≤ 128 → 1 ≤ v.c.toNat →
    v.c.toNat ≤ 1048576 → o.owner = none ∨ o.owner = some (s.me.thread.launch, s.me.thread.gang) →
    (SomeLoad s (fun r => r.oslot = x.os.val ∧ r.gen = gen) → exec (.odef x) s = .next (parkHere s .cld)) ∧
    (¬ SomeLoad s (fun r => r.oslot = x.os.val ∧ r.gen = gen) →
      ∃ w, exec (.odef x) s = .next (goesOn w x.stall) ∧ CoreOnly u w ∧ (∀ k i, tileWord w k i = tileWord u k i) ∧
        w.myCore.opslot x.os.val = { owner := some (s.me.thread.launch, s.me.thread.gang), base := v.a.toNat, rows := v.b.toNat, cols := v.c.toNat, layout := x.layout, image := s.me.fmtReg x.fmt.val, gen := gen } ∧
        ∀ j ≠ x.os.val, w.myCore.opslot j = s.myCore.opslot j)) ∧
  (∀ (x : SpfI) (s : State) (v : Vals), Poised s noOperands v →
    ∃ w, exec (.spfence x) s = .next (goesOn w x.stall) ∧ CoreOnly s w ∧
      (∀ k i, tileWord w k i = tileWord s k i) ∧
      ∀ k, (x.mask = 0 ∨ x.mask.getLsbD k = true → w.myCore.opslot k = { s.myCore.opslot k with seen := [] }) ∧
        (¬ (x.mask = 0 ∨ x.mask.getLsbD k = true) → w.myCore.opslot k = s.myCore.opslot k)) ∧
  (∀ (x : TileR) (s : State) (v : Vals), Poised s noOperands v → HoldsTile s x.tile.val →
    (SomeLoad s (fun r => r.tile = x.tile.val) → exec (.czero x) s = .next (parkHere s .cld)) ∧
    (¬ SomeLoad s (fun r => r.tile = x.tile.val) →
      ∃ w, exec (.czero x) s = .next (goesOn w x.stall) ∧ CoreOnly s w ∧
        (∀ i < 4096, tileWord w x.tile.val i = 0) ∧
        ∀ k ≠ x.tile.val, ∀ i < 4096, tileWord w k i = tileWord s k i)) ∧
  (∀ (x : CrdR) (s : State) (v : Vals), let g : Form := { noOperands with a := .s x.a, d := .v x.d }
    let flawed := (consumeAll s g).myCore.flawIn .tile (4 * (4096 * x.tile.val + 32 * (v.a.toNat % 128))) 128
    Poised s g v → HoldsTile s x.tile.val →
    (flawed = false → ∃ r : VImage, exec (.crd x) s = .next (delivers s g x.stall (.vec r 1) .seq false) ∧
      ∀ j < 32, held 32 r j = (tileWord s x.tile.val (32 * (v.a.toNat % 128) + j)).toNat) ∧
    (flawed = true → ∃ t, exec (.crd x) s = .next t ∧ (t.core s.cur.1).isSealed = true)) ∧
  (∀ (x : CwrR) (s : State) (v : Vals), let g : Form := { noOperands with a := .s x.a, b := .v x.b }
    let u := consumeAll s g
    Poised s g v → HoldsTile s x.tile.val →
    (SomeLoad s (fun r => r.tile = x.tile.val) → exec (.cwr x) s = .next (parkHere s .cld)) ∧
    (¬ SomeLoad s (fun r => r.tile = x.tile.val) →
      ∃ w, exec (.cwr x) s = .next (goesOn w x.stall) ∧ CoreOnly u w ∧
        (∀ j < 32, (tileWord w x.tile.val (32 * (v.a.toNat % 128) + j)).toNat = held 32 v.vb j) ∧
        ∀ k i, i < 4096 → (k ≠ x.tile.val ∨ i / 32 ≠ v.a.toNat % 128) → tileWord w k i = tileWord s k i))

/-- CLD starts its slot's load with what it captures, once no earlier one is under way for the slot or the tile; CWAIT waits
for the load of its tile, CQRY tells how far it has come, CABORT ends it (R146, R147, R151, R153, R154). -/
def Obligations.ContractingLoadsAreStartedAndWatched : Prop :=
  (∀ (x : CldR) (s : State) (v : Vals), let g : Form := { noOperands with a := .s x.a, b := .s x.b, c := .s x.c }
    let o := s.myCore.opslot x.os.val
    let row := bits v.b 0 10
    Poised s g v → (cldCheck x).pre s (avail s g) = none → (cldCheck x).mid s (avail s g) = none → Unfenced s →
    (loads s.me ∨ SomeLoad s (fun r => r.tile = x.tile.val) → exec (.cld x) s = .next (parkHere s .cld)) ∧
    (¬ loads s.me → ¬ SomeLoad s (fun r => r.tile = x.tile.val) →
      ∃ t, exec (.cld x) s = .next t ∧ t.cur = s.cur ∧ NextWord s.me t.me x.stall.toNat ∧
        Instr.sectorRequest s.cur.1 s.cur.2 ∈ t.agenda ∧
        t.me.record = { Record.reset with
          state := .running,
          sectors := if 32 ≤ row then bits v.b 16 24 * (row / 32) else (bits v.b 16 24 * row + 31) / 32,
          tile := x.tile.val, oslot := x.os.val, topx := s.me.status.getLsbD 0, kind := x.kind, layout := o.layout,
          sImage := s.me.fmtReg x.fmt.val, rImage := o.image, rows := o.rows, rbase := o.base, rK := o.cols, gen := o.gen,
          a := v.a, geo := v.b, c := v.c, cldser := s.me.cldser, word := s.me.hdr + 8 * BitVec.ofNat 64 s.me.idx })) ∧
  (∀ (x : TileR) (s : State) (v : Vals), Poised s noOperands v → HoldsTile s x.tile.val →
    (loads s.me ∧ s.me.record.tile = x.tile.val → exec (.cwait x) s = .next (parkHere s .cld)) ∧
    (¬ (loads s.me ∧ s.me.record.tile = x.tile.val) →
      exec (.cwait x) s = .next (delivers s noOperands x.stall .none .seq false))) ∧
  (∀ (x : CqryR) (s : State) (v : Vals), let g : Form := { noOperands with d := .s x.d }
    let r := s.me.record
    let code := match r.state with
      | .none => 0
      | .running => 1
      | .faulted => 2
      | .done => 3
      | .aborted => 4
    let faddr := match r.state with
      | .faulted => r.faddr.toNat % 2 ^ 48
      | .aborted => r.faddr.toNat % 2 ^ 48
      | _ => 0
    Poised s g v → HoldsTile s x.tile.val →
    (r.state ≠ .none ∧ r.tile = x.tile.val →
      exec (.cqry x) s = .next (owesPair s (.s x.d) x.stall (.scalar
        (BitVec.ofNat 64 (faddr * 2 ^ 16 + r.err.toNat * 2 ^ 7 + r.sat.toNat * 2 ^ 6 + code)) (BitVec.ofNat 64 r.base)))) ∧
    (¬ (r.state ≠ .none ∧ r.tile = x.tile.val) →
      exec (.cqry x) s = .next (owesPair s (.s x.d) x.stall (.scalar 0 0)))) ∧
  (∀ (x : TileR) (s : State) (v : Vals), let r := s.me.record
    Poised s noOperands v → HoldsTile s x.tile.val →
    ∃ w, exec (.cabort x) s = .next (goesOn w x.stall) ∧
      (¬ loads s.me ∨ r.tile ≠ x.tile.val → w = leavePark s) ∧
      (r.state = .running → r.tile = x.tile.val → r.base ≠ r.sectors → r.inflight = [] → w.me.record.state = .aborted) ∧
      (r.state = .running → r.tile = x.tile.val → r.base ≠ r.sectors → r.inflight ≠ [] →
        w.me.record = { r with aborting := true }) ∧
      (r.state = .faulted → r.tile = x.tile.val → w.me.record.state = .aborted ∧ w.me.record.bitmap = r.bitmap ∧
        w.me.record.base = r.base))

/-! ### Circular buffers -/

namespace Sys2Proof.Rules

/-- The current thread's gang owns a buffer of its core (R172). -/
def OwnsBuffer (s : State) (k : Nat) : Prop := (s.myCore.cbuf k).owner = some (s.me.thread.launch, s.me.thread.gang)

/-- A buffer without the list of those who wait for it. -/
def plainBuf (b : CBuf) : CBuf := { b with waiters := [] }

/-- The other buffers of the core are as they were, but for who waits. -/
def OtherBuffersKept (u w : State) (k : Nat) : Prop := ∀ j ≠ k, plainBuf (w.myCore.cbuf j) = plainBuf (u.myCore.cbuf j)

end Sys2Proof.Rules

/-- A buffer is defined empty; a reservation takes a free slot and yields its address, a publication fills it, a take yields
the address of the oldest filled one, a release frees it; a slot waits while there is none, and a publication or release
without one does nothing (R172, R173). -/
def Obligations.CircularBuffersCountTheirSlots : Prop :=
  (∀ (x : CbdefR) (s : State) (v : Vals), let g : Form := { noOperands with a := .s x.a, b := .s x.b, c := .s x.c }
    let u := consumeAll s g
    let sp : Space := match x.sp with
      | .spd => .spd
      | .cls => .cls
    Poised s g v → v.a.toNat % 32 = 0 → v.b.toNat % 32 = 0 → 32 ≤ v.b.toNat → v.b.toNat ≤ 65536 → 1 ≤ v.c.toNat →
    v.c.toNat ≤ 256 → (s.myCore.cbuf x.cb.val).owner = none ∨ OwnsBuffer s x.cb.val →
    (∃ l, resolve s s.cur.1 s.me.thread sp needStore false v.a (v.b.toNat * v.c.toNat) = .ok l) →
    ∃ w, exec (.cbdef x) s = .next (goesOn w x.stall) ∧ CoreOnly u w ∧ OtherBuffersKept u w x.cb.val ∧
      plainBuf (w.myCore.cbuf x.cb.val) = { CBuf.reset with
        owner := some (s.me.thread.launch, s.me.thread.gang), sp := x.sp, base := v.a.toNat, size := v.b.toNat,
        count := v.c.toNat, free := v.c.toNat }) ∧
  (∀ (x : CbdR) (s : State) (v : Vals), let g : Form := { noOperands with d := .s x.d }
    let k := x.cb.val
    let b := s.myCore.cbuf k
    Poised s g v → OwnsBuffer s k →
    (waitersBefore s.myCore b s.cur.2 false < b.free →
      ∃ w, exec (.cbrsv x) s = .next (owes w (.s x.d) x.stall (.scalar 0 (BitVec.ofNat 64 (b.base + b.rsv * b.size)))) ∧
        CoreOnly s w ∧ OtherBuffersKept s w k ∧ plainBuf (w.myCore.cbuf k) =
          plainBuf { b with free := b.free - 1, reserved := b.reserved + 1, rsv := (b.rsv + 1) % b.count }) ∧
    (b.free = 0 → s.me.trace = false →
      ∃ t, exec (.cbrsv x) s = .next t ∧ t.me.st = .parked .buffer ∧ plainBuf (t.myCore.cbuf k) = plainBuf b)) ∧
  (∀ (x : CbdR) (s : State) (v : Vals), let g : Form := { noOperands with d := .s x.d }
    let k := x.cb.val
    let b := s.myCore.cbuf k
    Poised s g v → OwnsBuffer s k →
    (waitersBefore s.myCore b s.cur.2 true < b.filled → Unfenced s →
      ∃ w, exec (.cbtake x) s = .next (owes w (.s x.d) x.stall (.scalar 0 (BitVec.ofNat 64 (b.base + b.take * b.size)))) ∧
        CoresKept s w ∧ OtherBuffersKept s w k ∧ plainBuf (w.myCore.cbuf k) =
          plainBuf { b with filled := b.filled - 1, taken := b.taken + 1, take := (b.take + 1) % b.count }) ∧
    (b.filled = 0 → s.me.trace = false →
      ∃ t, exec (.cbtake x) s = .next t ∧ t.me.st = .parked .buffer ∧ plainBuf (t.myCore.cbuf k) = plainBuf b)) ∧
  (∀ (x : CbR) (s : State) (v : Vals), let k := x.cb.val
    let b := s.myCore.cbuf k
    Poised s noOperands v → OwnsBuffer s k → NoRed (settle s) →
    (b.reserved = 0 → exec (.cbpub x) s = .next (goesOn s x.stall)) ∧
    (b.reserved ≠ 0 → Unfenced s → ∃ w, exec (.cbpub x) s = .next (goesOn w x.stall) ∧ OtherBuffersKept s w k ∧
      CoresKept (settle s) w ∧ plainBuf (w.myCore.cbuf k) =
        plainBuf { b with reserved := b.reserved - 1, filled := b.filled + 1, pub := (b.pub + 1) % b.count }) ∧
    (b.taken = 0 → exec (.cbrel x) s = .next (goesOn s x.stall)) ∧
    (b.taken ≠ 0 → Unfenced s → ∃ w, exec (.cbrel x) s = .next (goesOn w x.stall) ∧ OtherBuffersKept s w k ∧
      CoresKept (settle s) w ∧ plainBuf (w.myCore.cbuf k) =
        plainBuf { b with taken := b.taken - 1, free := b.free + 1, rel := (b.rel + 1) % b.count }))

/-! ### Messages, migration and ranges of lines -/

namespace Sys2Proof.Rules

/-- The core that a `sys.loc` image names: a gateway core where bit 1 is set (R111). -/
def locCore (a : W64) : Nat := if bits a 1 1 = 1 then 1024 + bits a 6 4 else bits a 6 10

/-- Flits of a plane that wait for injection at the current core. -/
def waiting (u : State) (plane : Nat) : Nat := (u.myCore.inject.filter (fun f => f.plane == plane)).length

/-- Set bits of a 16-bit mask. -/
def ones (m : Nat) : Nat := ((List.range 16).filter m.testBit).length

end Sys2Proof.Rules

/-- SEND sends B to a message register of the slot that A names, and its turn passes while the injection queue is full;
LBSEND delivers within the core; MPEEK yields a full register without emptying it, MCLR empties it; INBX hands the spill
thread the inbox's oldest entry (R220, R221, R224). That a SEND to a gateway core issues for every partition is the model's
choice (log 13): R338 gives a partition no gateway cores. -/
def Obligations.MessageWordsSendPeekAndClear : Prop :=
  (∀ (x : SendR) (s : State) (v : Vals), let g : Form := { noOperands with a := .s x.a, b := .s x.b }
    let u := consumeAll s g
    let c := locCore v.a
    let k := bits v.a 2 4
    Poised s g v → Unfenced s → ¬ (bits v.a 1 1 = 1 ∧ bits v.a 10 4 ≠ 0) →
    c ≥ 1024 ∨ s.ownsCluster s.me.thread.part (c / 16) = true →
    (8 ≤ waiting u ((c + k) % 4) → exec (.send x) s = .next s) ∧
    (waiting u ((c + k) % 4) < 8 →
      ∃ w fl, exec (.send x) s = .next (goesOn w x.stall) ∧ w.myCore.inject = u.myCore.inject ++ [fl] ∧ fl.kind = 1 ∧
        fl.plane = (c + k) % 4 ∧ fl.dcore = c ∧ fl.part = s.me.thread.part ∧ w.me = u.me ∧ w.mem = u.mem ∧
        fl.payload = .reg { core := c, slot := k, reg := x.mreg.val, value := v.b, topx := s.me.status.getLsbD 0, svc := s.svcCores.contains s.cur.1, srcCore := s.cur.1, srcSlot := s.cur.2, notice := false, tid := tid s })) ∧
  (∀ (x : SendR) (s : State) (v : Vals), let g : Form := { noOperands with a := .s x.a, b := .s x.b }
    let u := consumeAll s g
    let k := bits v.a 2 4
    Poised s g v → Unfenced s → waiting u ((s.cur.1 + k) % 4) < 8 →
    ∃ w, exec (.lbsend x) s = .next (goesOn w x.stall) ∧ w = { u with agenda := u.agenda ++ [.registerMessage { core := s.cur.1, slot := k, reg := x.mreg.val, value := v.b, topx := v.a.getLsbD 0, svc := v.a.getLsbD 1, srcCore := s.cur.1, srcSlot := s.cur.2, notice := false, tid := tid s }] }) ∧
  (∀ (x : MpeekR) (s : State) (v : Vals), let g : Form := { noOperands with d := .s x.d }
    let r := s.me.mreg x.mreg.val
    Poised s g v →
    (r.full = true → r.topx = s.me.status.getLsbD 0 →
      exec (.mpeek x) s = .next (owes s (.s x.d) x.stall (.scalar 0 r.val))) ∧
    (r.full = true → r.topx ≠ s.me.status.getLsbD 0 →
      exec (.mpeek x) s = .next (trapHere s { code := 8, dk := 0, detail := 0xFF })) ∧
    (r.full = false → exec (.mpeek x) s = .next (parkHere s .message))) ∧
  (∀ (x : MclrR) (s : State) (v : Vals), Poised s noOperands v →
    ∃ w, exec (.mclr x) s = .next (goesOn w x.stall) ∧ ((s.me.mreg x.mreg.val).full = false → w = s) ∧
      ((s.me.mreg x.mreg.val).full = true → (∀ e ∈ s.myCore.inbox, ¬ (e.slot = s.cur.2 ∧ e.reg = x.mreg.val)) →
        (w.me.mreg x.mreg.val).full = false ∧ (∀ j ≠ x.mreg.val, w.me.mreg j = s.me.mreg j) ∧ w.me.n = s.me.n)) ∧
  (∀ (x : DlR) (s : State) (v : Vals), let g : Form := { noOperands with d := .s x.d }
    let y := s.myCore
    Poised s g v → s.cur.2 = 15 → s.me.thread.spill = true →
    ((s.me.mreg 6).full = true → exec (.inbx x) s = .next (owes s (.s x.d) x.stall
      (.scalar 0 (BitVec.ofNat 64 (2 ^ 62 + y.lost * 2 ^ 16 + y.inbox.length * 2 ^ 11))))) ∧
    ((s.me.mreg 6).full = false → y.inbox = [] →
      exec (.inbx x) s = .next (owes s (.s x.d) x.stall (.scalar 0 (BitVec.ofNat 64 (y.lost * 2 ^ 16))))) ∧
    (∀ e es, (s.me.mreg 6).full = false → y.inbox = e :: es →
      ∃ w, exec (.inbx x) s = .next (owes w (.s x.d) x.stall (.scalar 0 (BitVec.ofNat 64 (2 ^ 63 + y.lost * 2 ^ 16 +
          es.length * 2 ^ 11 + e.topx.toNat * 2 ^ 10 + e.reg * 2 ^ 7 + e.slot * 2 ^ 3)))) ∧
        w.myCore.inbox = es ∧ w.me.mreg 6 = { val := e.value, full := true, topx := e.topx }))

namespace Sys2Proof.Rules

/-- The byte string of a migrating context, for a slot, the address of its target block, the mask of the vectors it takes and the
header of its block (R227). -/
def Packed (bs : List Byte) (x : Slot) (l : W64) (mask : Nat) (h : W64) : Prop :=
  let t := x.thread
  let regs := (List.range 16).filter (bits h 34 16).testBit ++ (List.range 8).map (· + 16)
  let vecs := (List.range 16).filter mask.testBit
  let liveq := bits h 29 5
  bs.length = 64 + 8 * regs.length + 8 * liveq + 128 * vecs.length ∧
  field bs 0 8 = l.toNat ∧ field bs 8 8 = x.tvec.toNat ∧
  field bs 16 6 = t.launch % 2 ^ 16 * 2 ^ 32 + t.gang % 2 ^ 32 ∧ field bs 22 1 = liveq ∧ field bs 23 1 = x.status.toNat % 256 ∧
  field bs 24 3 = t.j % 16 * 2 ^ 20 + t.y % 4 * 2 ^ 18 + t.x % 4 * 2 ^ 16 + t.index % 256 ∧
  field bs 27 1 = t.prio % 8 * 16 + t.stage % 16 ∧ field bs 28 2 = mask ∧ field bs 30 2 = bits h 34 16 ∧
  (∀ i < 8, field bs (32 + 4 * i) 4 = (x.fmtReg i).toNat) ∧
  (∀ i r, regs[i]? = some r → field bs (64 + 8 * i) 8 = (cellFinal (x.nCell r)).toNat) ∧
  (∀ i < liveq, field bs (64 + 8 * regs.length + 8 * (liveq - 1 - i)) 8 = (cellFinal (x.qCell i)).toNat) ∧
  (∀ i r, vecs[i]? = some r →
    field bs (64 + 8 * regs.length + 8 * liveq + 128 * i) 128 = (cellFinal (x.vCell r)).toNat)

end Sys2Proof.Rules

/-- MIGRATE asks for a slot, waits, and once it is granted sends its context there, packed in flits of 64 bytes, and leaves its
slot empty; a FENCE that waits goes with its thread; HOMEC yields the home of a line (R225–R229). The core that the request goes
to, the first one of the destination cluster, is the model's choice (log 38). -/
def Obligations.MigratingThreadsLeaveTheirSlot : Prop :=
  (∀ (x : MigC) (s : State) (v : Vals), let u := within s (formSrc x.a)
    let h := s.me.block.headD 0
    let size := 64 + 8 * (ones (bits h 34 16) + 8) + 8 * bits h 29 5 + 128 * ones (bits v.a 16 16)
    Poised s (formSrc x.a) v → bits h 27 1 = 1 → s.me.tin = false → v.a.toNat < 2 ^ 32 → bits v.a 6 10 = 0 →
    ones (bits v.a 16 16) ≤ 4 → size ≤ 768 → s.ownsCluster s.me.thread.part (v.a.toNat % 64) = true → ¬ loads s.me →
    s.me.anyPending = false →
    (∀ c k, s.me.granted = some (c, k) → s.me.trace = false → s.me.fetcher.claiming = false → Clean u →
      ∃ t, exec (.migrate x) s = .next t ∧ t.cur = s.cur ∧ t.me.st = .empty ∧ t.mem = u.mem ∧
        (∀ o, u.me.fence = some o → (tid u, o) ∈ t.fences) ∧
        ∃ (fs : List Flit) (bs : List Byte), t.myCore.inject = u.myCore.inject ++ fs ∧ fs.length = (size + 63) / 64 ∧
          (∀ f ∈ fs, f.kind = 5 ∧ f.dcore = c ∧ f.plane = (c + k) % 4 ∧ f.scoreId = s.cur.1 ∧ f.sslot = s.cur.2 ∧
            f.part = s.me.thread.part ∧ f.nfl = fs.length - 1 ∧ f.msgid = u.myCore.msgid % 2 ^ 16) ∧
          Packed bs u.me (s.me.hdr + 8 * BitVec.ofNat 64 s.me.idx + 8 * x.disp.signExtend 64) (bits v.a 16 16) h ∧
          ∀ i f, fs[i]? = some f → f.seq = i ∧ ∃ b, f.payload = .chunk k b ∧ b.length = 64 ∧
            ∀ j < 64, b.getD j 0 = bs.getD (64 * i + j) 0) ∧
    (s.me.granted = none → s.me.asked = false → s.me.trace = false →
      ∃ t fl, exec (.migrate x) s = .next t ∧ t.me.st = .parked .grant ∧ t.me.asked = true ∧
        t.myCore.inject = s.myCore.inject ++ [fl] ∧ fl.kind = 3 ∧ fl.dcore = 16 * (v.a.toNat % 64) ∧
        fl.payload = .request { srcCore := s.cur.1, srcSlot := s.cur.2, dest := v.a.toNat % 64 })) ∧
  (∀ (x : HomeC) (s : State) (v : Vals) (pa : Nat) (leaf : W64), let f := formA x.a x.d
    let u := consumeAll s f
    let n := (pa / 2 ^ 8 % 64) ^^^ (pa / 2 ^ 14 % 64) ^^^ (pa / 2 ^ 20 % 64)
    Poised s f v → (∃ l, resolve s s.cur.1 s.me.thread .glb needLoad false v.a 1 = .ok l) →
    translate u u.cur.1 u.me.thread needLoad v.a = .ok (pa, leaf) → Cached u v.a →
    ∃ w, CoresKept u w ∧ w.mem = u.mem ∧
      (leaf.getLsbD 9 = true → exec (.homec x) s = .next (owes w (.s x.d) x.stall
        (.scalar 0 (BitVec.ofNat 64 (2 ^ 6 + pa / 2 ^ 20 % 4 * 2 ^ 4 + pa / 2 ^ 16 % 16))))) ∧
      (∀ k, leaf.getLsbD 9 = false → regionOf pa = .hbm k → exec (.homec x) s = .next (owes w (.s x.d) x.stall
        (.scalar 0 (BitVec.ofNat 64 (pa / 2 ^ 36 % 16 / 3 * 2 ^ 4 + 4 * (n / 16) + n % 8 / 2))))) ∧
      (∃ t, exec (.homec x) s = .next t))

namespace Sys2Proof.Rules

/-- Whether a line of the own L1 overlaps n bytes of the thread's address space at an address (R235). -/
def covered (u : State) (a : W64) (n : Nat) (l : L1Line) : Prop :=
  l.part = u.me.thread.part ∧ l.asid = u.me.thread.asid ∧ 0 < n ∧ l.vline * 32 < a.toNat + n ∧
  a.toNat < l.vline * 32 + 32

/-- The dirty bytes of covered lines stand at home; those of HC lines have stood there since they were written. -/
def BytesHome (u w : State) (a : W64) (n : Nat) : Prop :=
  ∀ l ∈ u.myCore.l1, covered u a n l → l.cls ≠ 0 → (∀ m ∈ u.myCore.l1, m.pline = l.pline → m = l) →
    ∀ i < 32, l.dirty.getLsbD i = true → (∃ k, regionOf (l.pline * 32 + i) = .hbm k) →
      (cellGet w.mem (l.pline * 32 + i)).toNat = l.data.toNat / 2 ^ (8 * i) % 256

end Sys2Proof.Rules

/-- CWB writes the dirty bytes of a range home and keeps the lines, CINV invalidates them as well, ALINV writes the core's
own stores and those of every core to CP pages home and invalidates the alias lines of a range, each once the slot's earlier
accesses are performed; a range above 2^32 bytes is ILLEGAL (R235, R270). -/
def Obligations.RangeWordsCleanAndInvalidate : Prop :=
  (∀ (x : RngM) (s : State) (v : Vals), let g : Form := { noOperands with a := .s x.a, b := .s x.b }
    let u := within s g
    let n := v.b.toNat
    let e := ea x.off v.a
    Poised s g v → NoRed u → Unfenced u → n ≤ 2 ^ 32 → e.toNat + n ≤ 2 ^ 64 → (∀ l ∈ u.myCore.l1, l.vline < 2 ^ 59) →
    (∃ w, exec (.cwb x) s = .next (goesOn w x.stall) ∧ CoresKept u w ∧ BytesHome u w e n ∧
      w.myCore.l1.length = u.myCore.l1.length ∧ (∀ l ∈ w.myCore.l1, covered u e n l → l.dirty = 0) ∧
      (∀ l, ¬ covered u e n l → (l ∈ w.myCore.l1 ↔ l ∈ u.myCore.l1))) ∧
    (∃ w, exec (.cinv x) s = .next (goesOn w x.stall) ∧ CoresKept u w ∧ BytesHome u w e n ∧
      ∀ l, l ∈ w.myCore.l1 ↔ l ∈ u.myCore.l1 ∧ ¬ covered u e n l)) ∧
  (∀ (x : RngM) (s : State) (v : Vals) (large : Bool) (leaf : W64),
    let g : Form := { noOperands with a := .s x.a, b := .s x.b }
    let u := within s g
    let n := v.b.toNat
    let e := ea x.off v.a
    let pa := leafAddr large leaf (e.toNat % 2 ^ 55)
    Poised s g v → NoRed u → Unfenced u → 0 < n → e.toNat % 2 ^ 16 + n ≤ 2 ^ 16 → canonical e = true →
    lookup u u.cur.1 u.me.thread.part u.me.thread.asid e.toNat = .leaf large leaf →
    ∃ w, exec (.alinv x) s = .next (goesOn w x.stall) ∧ (Clean u → w.mem = u.mem) ∧ CoresKept u w ∧
      (∀ l ∈ w.myCore.l1, l.cls = 1 → l.dirty = 0) ∧ (∀ c, ∀ l ∈ (w.core c).l1, l.cls = 2 → l.dirty = 0) ∧ (regionOf pa ≠ .aliased → w.aliases = u.aliases) ∧
      (regionOf pa = .aliased → ∀ l, l ∈ w.aliases ↔ l ∈ u.aliases ∧ (l.1 * 64 + 64 ≤ pa ∨ pa + n ≤ l.1 * 64))) ∧
  (∀ (x : RngM) (s : State), let g : Form := { noOperands with a := .s x.a, b := .s x.b }
    s.me.mayIssue = true → s.me.suspect = false → (∃ b, (avail s g).b.val? = some b ∧ 2 ^ 32 < b.toNat) →
    exec (.cwb x) s = .next (trapHere s trapIllegal) ∧ exec (.cinv x) s = .next (trapHere s trapIllegal) ∧
    exec (.alinv x) s = .next (trapHere s trapIllegal))

/-! ### Barriers, fences and launches -/

namespace Sys2Proof.Rules

/-- The barrier object at pa after an arrival: count, err and phase, and the summary cleared where the phase changed (R242). -/
def ArrivedAt (u w : State) (pa : Nat) : Prop :=
  let expected := num u.mem pa 4
  let count := num u.mem (pa + 4) 4
  let st := num u.mem (pa + 8) 4
  (expected = 0 → num w.mem (pa + 4) 4 = count ∧ num w.mem (pa + 8) 4 = st % 2 ^ 31 + 2 ^ 31) ∧
  (expected ≠ 0 → (count + 1) % 2 ^ 32 < expected →
    num w.mem (pa + 4) 4 = (count + 1) % 2 ^ 32 ∧ num w.mem (pa + 8) 4 = st) ∧
  (expected ≠ 0 → expected ≤ (count + 1) % 2 ^ 32 →
    num w.mem (pa + 4) 4 = 0 ∧ num w.mem (pa + 8) 4 = st / 2 ^ 31 * 2 ^ 31 + (st + 1) % 2 ^ 31 ∧
    num w.mem (pa + 16) 10 = 0)

/-- The same, with nothing else in memory changed. -/
def Arrived (u w : State) (pa : Nat) : Prop :=
  ArrivedAt u w pa ∧ ∀ a, a < pa + 4 ∨ pa + 26 ≤ a → cellGet w.mem a = cellGet u.mem a

/-- The arrival word: the err bit after the arrival and the phase before it (R242). -/
def arrivalValue (u : State) (pa : Nat) : Nat :=
  let st := num u.mem (pa + 8) 4
  if num u.mem pa 4 = 0 then 2 ^ 31 + st % 2 ^ 31 else st

end Sys2Proof.Rules

/-- BARR arrives and yields the arrival word; BARW goes on when the phase is no longer B; BARA arrives once and goes on when
the phase has changed; a slot that waits parks (R242, R243). MWAIT goes on when its monitored line has been written (R244). -/
def Obligations.BarriersCountArrivalsAndWait : Prop :=
  (∀ (x : DlA) (s : State) (v : Vals) (pa : Nat) (leaf : W64), let f := formA x.a x.d
    let u := within s f
    Poised s f v → AtHome s f needArrive v.a 64 pa leaf → Clean u → u.poisoned pa = false →
    ∃ w, exec (.barr x) s = .next (owes w (.s x.d) x.stall (.scalar 0 (BitVec.ofNat 64 (arrivalValue u pa)))) ∧
      Arrived u w pa ∧ CoresKept u w) ∧
  (∀ (x : AB) (s : State) (v : Vals) (pa : Nat) (leaf : W64),
    let g : Form := { noOperands with a := .s x.a, b := .s x.b }
    let u := within s g
    Poised s g v → AtHome s g needWaitBar v.a 64 pa leaf → Clean u → u.poisoned pa = false →
    (num u.mem (pa + 8) 4 % 2 ^ 31 ≠ v.b.toNat % 2 ^ 31 →
      ∃ w, exec (.barw x) s = .next (goesOn w x.stall) ∧ CoresKept u w ∧ w.mem = u.mem) ∧
    (num u.mem (pa + 8) 4 % 2 ^ 31 = v.b.toNat % 2 ^ 31 → ∃ t, exec (.barw x) s = .next t ∧ t.me.st = .parked .barrier)) ∧
  (∀ (x : DlA) (s : State) (v : Vals) (pa : Nat) (leaf : W64), let f := formA x.a x.d
    let u := within s f
    let st := num u.mem (pa + 8) 4
    Poised s f v → AtHome s f needArrive v.a 64 pa leaf → Clean u → u.poisoned pa = false →
    (s.me.arrived = none → num u.mem pa 4 ≠ 0 → num u.mem pa 4 ≤ (num u.mem (pa + 4) 4 + 1) % 2 ^ 32 →
      ∃ w, exec (.bara x) s = .next (owes w (.s x.d) x.stall
          (.scalar 0 (BitVec.ofNat 64 (st / 2 ^ 31 * 2 ^ 31 + (st + 1) % 2 ^ 31)))) ∧ Arrived u w pa) ∧
    (s.me.arrived = none → num u.mem pa 4 = 0 ∨ (num u.mem (pa + 4) 4 + 1) % 2 ^ 32 < num u.mem pa 4 →
      ∃ t, exec (.bara x) s = .next t ∧ t.me.st = .parked .barrier ∧ t.me.arrived = some (st % 2 ^ 31)) ∧
    (∀ p, s.me.arrived = some p → st % 2 ^ 31 ≠ p →
      ∃ w, exec (.bara x) s = .next (owes w (.s x.d) x.stall (.scalar 0 (BitVec.ofNat 64 st))) ∧ w.mem = u.mem)) ∧
  (∀ (x : UnR) (s : State) (v : Vals), let u := consumeAll s (formSrc x.a)
    Poised s (formSrc x.a) v → s.me.monitor.armed = true → s.me.monitor.woken = true →
    exec (.mwait x) s = .next (goesOn (u.setMe { u.me with monitor := Monitor.reset }) x.stall)) ∧
  (∀ (x : UnR) (s : State) (v : Vals) (pa : Nat) (leaf : W64), let u := consumeAll s (formSrc x.a)
    let m := s.me.monitor
    Poised s (formSrc x.a) v → (∃ l, resolve s s.cur.1 s.me.thread .glb needMonitor false v.a 1 = .ok l) →
    translate u u.cur.1 u.me.thread needMonitor v.a = .ok (pa, leaf) → Unfenced s →
    (m.armed = true ∧ m.line = pa / 32 ∧ m.woken = false → exec (.mwait x) s = .next (parkHere s .monitor)) ∧
    (m.armed = false ∨ (m.line ≠ pa / 32 ∧ m.woken = false) → exec (.mwait x) s = .next (parkHere (s.setMe { s.me with
      monitor := { armed := true, woken := false, line := pa / 32 } }) .monitor)))

namespace Sys2Proof.Rules

/-- Every message that the thread sent, from whichever slot, and every word that it pushed to a link has arrived (R273). -/
def AllArrived (u : State) : Prop :=
  let t := u.me.thread
  let own (m : RegMsg) : Prop := m.tid = tid u ∧ m.notice = false
  (∀ f m, (f ∈ u.flits ∨ ∃ e ∈ u.cores, f ∈ e.2.inject) → f.payload = .reg m → ¬ own m) ∧
  (∀ e ∈ u.cores, ∀ f ∈ e.2.links, f.wire = [] ∨ f.gang ≠ (t.launch, t.gang) ∨ f.j ≠ t.j) ∧
  (∀ m, Instr.registerMessage m ∈ u.agenda → ¬ own m)

/-- A launch record keeps the limits of its fields (R246), the rules of a spill launch (R247), and asks of a core for no more
than one holds (R248). -/
def RecordKeeps (u : State) (bs : List Byte) : Prop :=
  let f := field bs
  let page (n : Nat) : Nat := (n + 4095) / 4096 * 4096
  let spill : Prop := f 53 1 / 8 % 2 = 1
  (f 16 8 % 64 = 0 ∧ f 24 8 % 64 = 0 ∧ 1 ≤ f 32 4 ∧ 1 ≤ f 36 1 ∧ f 36 1 ≤ 4 ∧ 1 ≤ f 37 1 ∧ f 37 1 ≤ 4 ∧ 1 ≤ f 38 1 ∧
    f 38 1 ≤ 16 ∧ f 39 1 < 128 ∧ f 40 4 < 2 ^ 17 ∧ f 44 4 ≤ 262144 ∧ f 48 4 ≤ 262144 ∧ f 52 1 ≤ 11 ∧ f 53 1 < 16 ∧
    f 54 2 ≤ 4095 ∧ mapFind u.asrec (f 52 1 * 4096 + f 54 2) ≠ none ∧ f 60 2 % 64 = 0 ∧ f 62 2 = 0) ∧
  (¬ spill → f 60 2 = 0) ∧ (spill → f 36 1 = 1 ∧ f 37 1 = 1 ∧ f 38 1 = 1 ∧ f 32 4 = 1) ∧
  page (f 44 4) + page (f 48 4) ≤ 262144

/-- A FENCE of an ordering still has accesses or messages of its thread to wait for (R273). -/
def StillOwes (u : State) (o : Ord) : Prop := (∃ sc, o = .rel sc ∨ o = .ar sc) ∧ ¬ (NoRed u ∧ AllArrived u)

end Sys2Proof.Rules

/-- FENCE issues at once, and with nothing to wait for, a release at .cl or wider leaves no dirty SC line in the core's L1, an
acquire none at all; while a RED or a message of the thread is under way, a release holds back its later stores, not the words
that touch no memory. QFENCE puts its marker behind what the named queues hold; LAUNCH yields the serial of the launch that it
queues, or why it refused it (R236, R241, R246, R248, R273, R275). -/
def Obligations.FencesJoinsAndLaunchesAreTaken : Prop :=
  (∀ (x : FenceI) (s : State) (v : Vals), let u := settle s
    Poised s noOperands v → Unfenced u →
    (¬ StillOwes u x.ord → ∃ w, exec (.fence x) s = .next (goesOn w x.stall) ∧ CoresKept u w ∧
      (∀ sc, sc ≠ .co → x.ord = .rel sc ∨ x.ord = .ar sc → ∀ l ∈ w.myCore.l1, l.cls = 1 → l.dirty = 0) ∧
      (∀ sc, sc ≠ .co → x.ord = .acq sc ∨ x.ord = .ar sc → ∀ l ∈ w.myCore.l1, l.cls ≠ 1) ∧
      (∀ l ∈ u.myCore.l1, l.cls ≠ 1 → l ∈ w.myCore.l1)) ∧
    (StillOwes u x.ord →
      exec (.fence x) s = .next (goesOn (u.setMe { u.me with fence := some x.ord }) x.stall))) ∧
  (∀ (x : StM) (s : State) (v : Vals), let g : Form := { noOperands with a := .s x.a, b := .s x.b }
    Poised s g v → (ea x.off v.a).toNat % (width4 x.w / 8) = 0 →
    (∃ l, resolve s s.cur.1 s.me.thread x.sp needStore true (ea x.off v.a) (width4 x.w / 8) = .ok l) →
    (within s g).me.fence ≠ none → exec (.st x) s = .next (parkHere s .result)) ∧
  (∀ (x : QfI) (s : State) (v : Vals), let p := clusterOf s.cur.1
    let queue (t : State) (q : Nat) : List CopyItem := ((t.cluster p).queue q).items
    Poised s noOperands v → Unfenced s →
    (∀ q < 4, x.mask.getLsbD q = true → (queue s q).length < 64) → (x.mask.getLsbD 4 = true → s.myCore.rdq.length < 16) →
    (x.mask.getLsbD 5 = true → s.myCore.rqq.length < 16) →
    ∃ w id, exec (.qfence x) s = .next (goesOn w x.stall) ∧ CoresKept s w ∧ w.mem = s.mem ∧
      (∀ q j, q < 4 → x.mask.getLsbD q = true → queue s q ≠ [] → (∀ g, (queue s q).head? ≠ some (.marker id g)) → j < 4 →
        queue w j = queue s j ++
          (if x.mask.getLsbD j then [.marker id (s.me.thread.launch, s.me.thread.gang)] else []))) ∧
  (∀ (x : DlA) (s : State) (v : Vals) (bs cs : List Byte) (bad : Bool), let f := formA x.a x.d
    let u := within s f
    Poised s f v → v.a.toNat % 64 = 0 → s.isSvc s.cur.1 = true → NoRed u → Free u .glb v.a →
    readGlobal s s.cur.1 s.me.thread needLoad v.a 64 = .ok (cs, bad) →
    readGlobal u u.cur.1 u.me.thread needLoad v.a 64 = .ok (bs, false) →
    ∃ w, CoresKept u w ∧
      (¬ RecordKeeps u bs →
        exec (.launch x) s = .next (owes w (.s x.d) x.stall (.scalar 0 0x8100000000000000)) ∧ w.launches = u.launches) ∧
      (RecordKeeps u bs →
        4096 ≤ (u.launches.filter (fun e => decide (e.2.next < e.2.gangs))).length →
        exec (.launch x) s = .next (owes w (.s x.d) x.stall (.scalar 0 0x8300000000000000)) ∧ w.launches = u.launches) ∧
      (RecordKeeps u bs →
        (u.launches.filter (fun e => decide (e.2.next < e.2.gangs))).length < 4096 →
        exec (.launch x) s = .next (owes w (.s x.d) x.stall (.scalar 0 (BitVec.ofNat 64 (u.accepted % 2 ^ 16)))) ∧
        w.accepted = u.accepted + 1 ∧ Instr.gangPlacement ∈ w.agenda ∧
        ∃ l, mapFind w.launches u.accepted = some l ∧ l.entry.toNat = field bs 0 8 ∧ l.params.toNat = field bs 8 8 ∧
          l.waiton.toNat = field bs 16 8 ∧ l.done.toNat = field bs 24 8 ∧ l.gangs = field bs 32 4 ∧ l.w = field bs 36 1 ∧
          l.h = field bs 37 1 ∧ l.t = field bs 38 1 ∧ l.part = field bs 52 1 ∧ l.asid = field bs 54 2 ∧ l.next = 0 ∧
          l.err = false ∧ l.stage = field bs 39 1 % 16 ∧ l.prio = field bs 39 1 / 16 ∧ l.tiles.toNat = field bs 40 2 ∧
          l.lanes.toNat = field bs 42 1 % 2 ∧ l.spd = field bs 44 4 ∧ l.cls = field bs 48 4 ∧
          l.layer.toNat = field bs 53 1 % 2 ∧ l.resident.toNat = field bs 53 1 / 2 % 2 ∧
          (l.debug).toNat = field bs 53 1 / 4 % 2 ∧ l.spill.toNat = field bs 53 1 / 8 % 2 ∧
          l.wph = field bs 56 4 % 2 ^ 31 ∧ l.spcore = field bs 60 2 ∧ l.since = u.clk.toNat))

/-! ### Engines and handles -/

namespace Sys2Proof.Rules

/-- A barrier operand of an engine word that its page permits, before the sources are read and within the word, which has
nothing to wait for (R189, R194, R273). -/
def BarrierReach (s : State) (g : Form) (b : W64) (bar : Nat) : Prop :=
  NoRed (within s g) ∧ Free (within s g) .glb b ∧ b.toNat % 64 = 0 ∧ (∃ l, resolve s s.cur.1 s.me.thread .glb needEngineBar false b 64 = .ok l) ∧
  ∃ leaf, translate (within s g) (within s g).cur.1 (within s g).me.thread needEngineBar b = .ok (bar, leaf)

/-- Every byte of a range translates for a need (R308). -/
def Opens (u : State) (need : Need) (a : W64) (n : Nat) : Prop :=
  ∀ d < n, ∃ pa leaf, translate u u.cur.1 u.me.thread need (a + BitVec.ofNat 64 d) = .ok (pa, leaf)

/-- No walk is due at a byte of a range (R189). -/
def CachedAt (u : State) (a : W64) (n : Nat) : Prop := ∀ d < n, Cached u (a + BitVec.ofNat 64 d)

/-- The physical bytes of captured pieces, in order, each with whether its page is HC. -/
def bytesOf (ps : List Piece) : List (Nat × Bool) := ps.flatMap (fun p => (List.range p.2.1).map (fun i => (p.1 + i, p.2.2)))

/-- The captured pieces of a range hold, byte by byte, where the range stood when the word issued (R308). -/
def Captures (u : State) (need : Need) (a : W64) (n : Nat) (ps : List Piece) : Prop :=
  (bytesOf ps).length = n ∧ ∀ d < n, ∃ pa leaf,
    translate u u.cur.1 u.me.thread need (a + BitVec.ofNat 64 d) = .ok (pa, leaf) ∧
      (bytesOf ps)[d]? = some (pa, leafClass leaf == 0)

/-- Bytes of an element of an RDX (R310). -/
def rdxWidth : RdxTy → Nat
  | .f32 => 4
  | .bf16 => 2

/-- Buffer i of an RDX descriptor is used (R309). -/
def rdxUses (bs : List Byte) (i : Nat) : Prop := i < 8 ∧ (field bs 76 1).testBit i = true

/-- An RDX descriptor keeps the rules of R309: a buffer is used, the count is in its range, every used address and the destination
are aligned, and the reserved bytes are zero. -/
def RdxKeeps (bs : List Byte) : Prop :=
  field bs 76 1 ≠ 0 ∧ 1 ≤ field bs 72 4 ∧ field bs 72 4 ≤ 1048576 ∧ field bs 64 8 % 64 = 0 ∧
    (∀ i, rdxUses bs i → field bs (8 * i) 8 % 64 = 0) ∧ ∀ i, 77 ≤ i → i < 128 → bs.getD i 0 = 0

/-- Every byte that an RDX with this descriptor reads or writes translates, and a test holds of its ranges (R308, R309). -/
def RdxOpens (u : State) (ty : RdxTy) (bs : List Byte) (test : W64 → Nat → Prop) : Prop :=
  let n := field bs 72 4 * rdxWidth ty
  RdxKeeps bs →
    (∀ i, rdxUses bs i → Opens u needEngineSrc (BitVec.ofNat 64 (field bs (8 * i) 8)) n ∧
      test (BitVec.ofNat 64 (field bs (8 * i) 8)) n) ∧
    Opens u needEngineDst (BitVec.ofNat 64 (field bs 64 8)) n ∧ test (BitVec.ofNat 64 (field bs 64 8)) n

/-- The operations of a copy queue of the current cluster. -/
def copyQueue (u : State) (q : Nat) : List CopyItem := ((u.cluster (clusterOf u.cur.1)).queue q).items

/-- The number of operations of a copy queue; a join's marker is none (R199). -/
def operations : List CopyItem → Nat
  | [] => 0
  | .marker _ _ :: l => operations l
  | .op .. :: l => 1 + operations l

/-- The object table of the current thread's partition, where it lies in HBM4E (R317). -/
def tableHome (u : State) (i : Nat) : Prop :=
  ∃ k, regionOf ((u.part u.me.thread.part).table + 32 * i) = .hbm k

/-- The live object that a handle names, with its entry (R319). -/
def Names (u : State) (h : W64) (i : Nat) (e : Entry) : Prop := liveObject u u.me.thread.part h = some (i, e)

/-- The line of the table entry that a handle names is not poisoned (R298). -/
def EntrySound (u : State) (h : W64) : Prop :=
  let p := u.part u.me.thread.part
  h.toNat / 2 ^ 59 % 16 = u.me.thread.part → h.toNat % 2 ^ 32 < p.capacity →
    u.poisoned (p.table + 32 * (h.toNat % 2 ^ 32)) = false

/-- Entry i of the current thread's table. -/
def entryNow (u : State) (i : Nat) : Entry := entryAt u (u.part u.me.thread.part) i

/-- The fields of the 32 bytes of a table entry (R318). -/
def entryFields (u : State) (a : Nat) : Entry :=
  { off := num u.mem a 8, size := num u.mem (a + 8) 8, strong := num u.mem (a + 16) 4, prio := num u.mem (a + 20) 1 % 16
    state := num u.mem (a + 20) 1 / 16 % 4, gen := num u.mem (a + 24) 4 % 2 ^ 27, own := num u.mem (a + 28) 4 }

/-- The bytes of the granules that an object of a size takes (R317). -/
def granules (size : Nat) : Nat := (size + 63) / 64 * 64

/-- The bytes of live objects' granules. -/
def usedBytes (u : State) (p : Partition) : Nat :=
  ((List.range p.capacity).map (fun i => if (entryAt u p i).state = 1 then granules (entryAt u p i).size else 0)).sum

/-- Heap bytes in no live object's granules (R317). -/
def freeBytes (u : State) (p : Partition) : Nat := p.hsize - usedBytes u p

/-- A run of free granules for a size: in the heap, and off every live object (R321). -/
def Fits (u : State) (p : Partition) (size o : Nat) : Prop :=
  o % 64 = 0 ∧ o + granules size ≤ p.hsize ∧ ∀ j < p.capacity, (entryAt u p j).state = 1 →
    o + granules size ≤ (entryAt u p j).off ∨ (entryAt u p j).off + granules (entryAt u p j).size ≤ o

/-- Entry i is the lowest free one, and o the lowest offset of a free run for a size (R321). -/
def LowestFree (u : State) (p : Partition) (size i o : Nat) : Prop :=
  (i < p.capacity ∧ (entryAt u p i).state = 0 ∧ ∀ j < i, (entryAt u p j).state ≠ 0) ∧
  Fits u p size o ∧ ∀ b < o, ¬ Fits u p size b

/-- No entry is free, no run fits, or free memory is below the low watermark: an HNEW waits for a pass (R321). -/
def MustWait (u : State) (p : Partition) (size : Nat) : Prop :=
  (∀ i < p.capacity, (entryAt u p i).state ≠ 0) ∨ (∀ o, ¬ Fits u p size o) ∨ freeBytes u p < p.low

/-- Live objects begin at granules (R318). -/
def OnGranules (u : State) (p : Partition) : Prop :=
  ∀ j < p.capacity, (entryAt u p j).state = 1 → (entryAt u p j).off % 64 = 0

end Sys2Proof.Rules

/-- CPY, CPYL, RDX and RQZ join their queue with what they captured — a CPY or CPYL its descriptor's address and its gang's
reservations, an RDX, byte by byte, where its used sources and its destination stand, or that its descriptor fails the rules of
R309, an RQZ where its entry stands, each its barrier — once the core's own stores are home, and wait while the queue is full; EQRY
tells how a copy queue stands (R193, R194, R199, R307, R308, R309, R313). That a join's marker takes a place of a copy queue is the
model's choice (log 38). -/
def Obligations.EngineWordsJoinTheirQueue : Prop :=
  (∀ (x : CpyR) (s : State) (v : Vals) (bar : Nat), let g : Form := { noOperands with a := .s x.a, b := .s x.b }
    let u := within s g
    Poised s g v → v.a.toNat % 64 = 0 → BarrierReach s g v.b bar →
    (64 ≤ (copyQueue u x.eq.val).length → exec (.cpy x) s = .next (parkHere s .buffer)) ∧
    ((copyQueue u x.eq.val).length < 64 →
      ∃ w, exec (.cpy x) s = .next (goesOn w x.stall) ∧ CoresKept u w ∧
        copyQueue w x.eq.val = copyQueue u x.eq.val ++
          [.op false v.a bar 0 s.cur.1 s.cur.2 s.me.thread 0 none (u.gangOf s.me.thread)] ∧
        (∀ l ∈ w.myCore.l1, l.cls = 1 ∨ l.cls = 2 → l.dirty = 0) ∧
        Instr.copyOperation (clusterOf s.cur.1) x.eq.val ∈ w.agenda)) ∧
  (∀ (x : CpylR) (s : State) (v : Vals) (bar : Nat),
    let g : Form := { noOperands with a := .s x.a, b := .s x.b, c := .s x.c }
    let u := within s g
    Poised s g v → v.a.toNat % 32 = 0 → v.c.toNat ≤ 2 ^ 32 - 1 → BarrierReach s g v.b bar →
    (64 ≤ (copyQueue u x.eq.val).length → exec (.cpyl x) s = .next (parkHere s .buffer)) ∧
    ((copyQueue u x.eq.val).length < 64 →
      ∃ w, exec (.cpyl x) s = .next (goesOn w x.stall) ∧ CoresKept u w ∧
        copyQueue w x.eq.val = copyQueue u x.eq.val ++
          [.op true v.a bar v.c.toNat s.cur.1 s.cur.2 s.me.thread 0 none (u.gangOf s.me.thread)] ∧
        (∀ l ∈ w.myCore.l1, l.cls = 1 ∨ l.cls = 2 → l.dirty = 0) ∧
        Instr.copyOperation (clusterOf s.cur.1) x.eq.val ∈ w.agenda)) ∧
  (∀ (x : EqryR) (s : State) (v : Vals), let g : Form := { noOperands with d := .s x.d }
    let q := (s.cluster (clusterOf s.cur.1)).queue x.eq.val
    Poised s g v → exec (.eqry x) s = .next (owes s (.s x.d) x.stall (.scalar 0 (BitVec.ofNat 64
      (q.done.toNat * 2 ^ 32 + operations q.items * 2 ^ 8 + q.faulted.toNat * 2 + q.bufwait.toNat))))) ∧
  (∀ (x : RdxR) (s : State) (v : Vals) (bs : List Byte) (bar : Nat) (leaf : W64),
    let g : Form := { noOperands with a := .s x.a, b := .s x.b }
    let u := within s g
    Poised s g v → v.a.toNat % 64 = 0 → v.b.toNat % 64 = 0 → NoRed u → Free u .glb v.a →
    (∀ z ∈ [settle s, u], readGlobal z z.cur.1 z.me.thread needLoad v.a 128 = .ok (bs, false)) →
    RdxOpens (settle s) x.ty bs (fun _ _ => True) → RdxOpens u x.ty bs (CachedAt u) →
    Opens s needEngineBar v.b 64 → Opens u needEngineBar v.b 64 → CachedAt u v.b 64 →
    translate u u.cur.1 u.me.thread needEngineBar v.b = .ok (bar, leaf) →
    (16 ≤ u.myCore.rdq.length → exec (.rdx x) s = .next (parkHere s .buffer)) ∧
    (u.myCore.rdq.length < 16 →
      let n := field bs 72 4 * rdxWidth x.ty
      ∃ w srcs dst failed, exec (.rdx x) s = .next (goesOn w x.stall) ∧ CoresKept u w ∧
        Instr.rdxOperation s.cur.1 ∈ w.agenda ∧ (∀ l ∈ w.myCore.l1, l.cls = 1 ∨ l.cls = 2 → l.dirty = 0) ∧
        w.myCore.rdq = u.myCore.rdq ++ [.rdx x.ty srcs dst (field bs 72 4) failed bar s.me.thread] ∧
        (failed = true ↔ ¬ RdxKeeps bs) ∧
        (RdxKeeps bs → Captures u needEngineDst (BitVec.ofNat 64 (field bs 64 8)) n dst ∧
          srcs.map (·.1) = (List.range 8).filter (field bs 76 1).testBit ∧
          ∀ i ps, mapFind srcs i = some ps → Captures u needEngineSrc (BitVec.ofNat 64 (field bs (8 * i) 8)) n ps))) ∧
  (∀ (x : ABC) (s : State) (v : Vals) (bar : Nat) (leaf : W64),
    let g : Form := { noOperands with a := .s x.a, b := .s x.b, c := .s x.c }
    let u := within s g
    Poised s g v → v.a.toNat % 16 = 0 → v.c.toNat % 64 = 0 → NoRed u → Unfenced u →
    (∀ z ∈ [s, u], Opens z needEngineEntry v.a 16 ∧ Opens z needEngineBar v.c 64) → CachedAt u v.a 16 → CachedAt u v.c 64 →
    translate u u.cur.1 u.me.thread needEngineBar v.c = .ok (bar, leaf) →
    (16 ≤ u.myCore.rqq.length → exec (.rqz x) s = .next (parkHere s .buffer)) ∧
    (u.myCore.rqq.length < 16 →
      ∃ w pa e, exec (.rqz x) s = .next (goesOn w x.stall) ∧ CoresKept u w ∧ Instr.rqzOperation s.cur.1 ∈ w.agenda ∧
        (∀ l ∈ w.myCore.l1, l.cls = 1 ∨ l.cls = 2 → l.dirty = 0) ∧
        translate u u.cur.1 u.me.thread needEngineEntry v.a = .ok (pa, e) ∧
        w.myCore.rqq = u.myCore.rqq ++ [.rqz (pa, 16, leafClass e == 0) v.b bar s.me.thread]))

/-- An entry holds the fields of R318, and a handle names a live object as R319 says. HNEW writes the lowest free entry for the
lowest run of free granules, under a strong handle, and starts a pass where free memory has fallen below the low watermark; it
yields null for a size that no heap holds, waits for a pass where no entry is free, no run fits or memory is short, and its reply
is marked where the entry's line is poisoned; HFREE and HDOWN give a strong reference up, HUP takes one, HPRIO sets the priority,
and a handle of no live object changes nothing (R298, R316–R321, R323). GQCLM claims the oldest complete block of the collective
(R353). -/
def Obligations.HandlesCountTheirReferences : Prop :=
  (∀ (u : State) (p : Partition) (i : Nat), entryAt u p i = entryFields u (p.table + 32 * i)) ∧
  (∀ (u : State) (part i : Nat) (h : W64) (e : Entry), liveObject u part h = some (i, e) ↔
    h.toNat / 2 ^ 59 % 16 = part ∧ i = h.toNat % 2 ^ 32 ∧ i < (u.part part).capacity ∧ e = entryAt u (u.part part) i ∧
      e.state = 1 ∧ e.gen = h.toNat / 2 ^ 32 % 2 ^ 27) ∧
  (∀ (x : HnewR) (s : State) (v : Vals), let f := formAB x.a x.b x.d
    let u := within s f
    let p := u.part u.me.thread.part
    Poised s f v → Unfenced u →
    (v.a.toNat = 0 ∨ p.hsize < v.a.toNat →
      ∃ w, exec (.hnew x) s = .next (owes w (.s x.d) x.stall (.scalar 0 0xFFFFFFFFFFFFFFFF)) ∧ CoresKept u w) ∧
    (∀ i o, 0 < v.a.toNat → v.a.toNat ≤ p.hsize → OnGranules u p → LowestFree u p v.a.toNat i o → p.low ≤ freeBytes u p →
      (u.poisoned (p.table + 32 * i) = false → tableHome u i → Clean u → o < 2 ^ 64 → u.me.thread.part < 16 → i < 2 ^ 32 →
        ∃ w h, exec (.hnew x) s = .next (owes w (.s x.d) x.stall (.scalar 0 h)) ∧ hStrong h = true ∧
          h.toNat / 2 ^ 59 % 16 = u.me.thread.part ∧ h.toNat / 2 ^ 32 % 2 ^ 27 = (entryNow u i).gen ∧ h.toNat % 2 ^ 32 = i ∧
          entryNow w i = { entryNow u i with off := o, size := v.a.toNat, strong := 1, prio := v.b.toNat % 16, state := 1 } ∧
          (freeBytes w p < p.low → (w.part u.me.thread.part).pass = true)) ∧
      (u.poisoned (p.table + 32 * i) = true →
        ∃ w, exec (.hnew x) s = .next (owes w (.s x.d) x.stall .poison) ∧ (Clean u → w.mem = u.mem))) ∧
    (0 < v.a.toNat → v.a.toNat ≤ p.hsize → OnGranules u p → MustWait u p v.a.toNat →
      ∃ t, exec (.hnew x) s = .next t ∧ (t.part u.me.thread.part).pass = true ∧
        ∃ tag, (s.cur.1, s.cur.2, tag, v.a.toNat, v.b.toNat % 16) ∈ (t.part u.me.thread.part).hnews ∧
          ∃ o ∈ t.me.owed, o.tag = tag ∧ o.val = .waiting)) ∧
  (∀ (x : UnR) (s : State) (v : Vals), let u := within s (formSrc x.a)
    Poised s (formSrc x.a) v → NoRed u → Unfenced u → Clean u → EntrySound u v.a →
    ∃ w, exec (.hfree x) s = .next (goesOn w x.stall) ∧ CoresKept u w ∧
      (hStrong v.a = false ∨ liveObject u u.me.thread.part v.a = none → w.mem = u.mem) ∧
      (∀ i e, hStrong v.a = true → Names u v.a i e → tableHome u i → 0 < e.strong →
        entryNow w i = { e with strong := e.strong - 1 })) ∧
  (∀ (x : DlA) (s : State) (v : Vals), let f := formA x.a x.d
    let u := within s f
    Poised s f v → NoRed u → Unfenced u → Clean u →
    (¬ EntrySound u v.a →
      ∃ w, exec (.hdown x) s = .next (owes w (.s x.d) x.stall .poison) ∧ CoresKept u w ∧ w.mem = u.mem) ∧
    (EntrySound u v.a → ∃ w, exec (.hdown x) s = .next (owes w (.s x.d) x.stall (.scalar 0 (v.a &&& 0x7FFFFFFFFFFFFFFF))) ∧ CoresKept u w ∧
      (hStrong v.a = false ∨ liveObject u u.me.thread.part v.a = none → w.mem = u.mem) ∧
      (∀ i e, hStrong v.a = true → Names u v.a i e → tableHome u i → 0 < e.strong →
        entryNow w i = { e with strong := e.strong - 1 }))) ∧
  (∀ (x : DlA) (s : State) (v : Vals), let f := formA x.a x.d
    let u := within s f
    Poised s f v → Unfenced u → Clean u →
    ∃ w, CoresKept u w ∧
      (¬ EntrySound u v.a → exec (.hup x) s = .next (owesPair w (.s x.d) x.stall .poison) ∧ w.mem = u.mem) ∧
      (EntrySound u v.a → liveObject u u.me.thread.part v.a = none →
        exec (.hup x) s = .next (owesPair w (.s x.d) x.stall (.scalar 1 0xFFFFFFFFFFFFFFFF)) ∧ w.mem = u.mem) ∧
      (∀ i e, EntrySound u v.a → Names u v.a i e → e.strong = 2 ^ 32 - 1 →
        exec (.hup x) s = .next (owesPair w (.s x.d) x.stall (.scalar 2 0xFFFFFFFFFFFFFFFF)) ∧ w.mem = u.mem) ∧
      (∀ i e, EntrySound u v.a → Names u v.a i e → e.strong ≠ 2 ^ 32 - 1 → tableHome u i →
        exec (.hup x) s = .next (owesPair w (.s x.d) x.stall (.scalar 0 (v.a ||| 0x8000000000000000))) ∧
        entryNow w i = { e with strong := e.strong + 1 })) ∧
  (∀ (x : AB) (s : State) (v : Vals), let g : Form := { noOperands with a := .s x.a, b := .s x.b }
    let u := consumeAll s g
    Poised s g v → Unfenced u → EntrySound u v.a →
    ∃ w, exec (.hprio x) s = .next (goesOn w x.stall) ∧ CoresKept u w ∧
      (liveObject u u.me.thread.part v.a = none → w = u) ∧
      (∀ i e, Names u v.a i e → tableHome u i → entryNow w i = { e with prio := v.b.toNat % 16 })) ∧
  (∀ (x : DlR) (s : State) (v : Vals) (k : Collective), let g : Form := { noOperands with d := .s x.d }
    Poised s g v → isGateway s.cur.1 = true →
    (s.coll = none → exec (.gqclm x) s = .next (owes s (.s x.d) x.stall (.scalar 0 0x8000000000000000))) ∧
    (∀ b m inc rest, s.coll = some k → k.queue = (b, m, inc) :: rest → k.claims + 1 ≠ k.nblk →
      ∃ w, exec (.gqclm x) s = .next (owes w (.s x.d) x.stall (.scalar 0 (BitVec.ofNat 64
          ((if inc then 2 ^ 62 else 0) + m.toNat * 2 ^ 32 + b)))) ∧
        w.coll = some { k with queue := rest, claims := k.claims + 1 } ∧ CoresKept s w) ∧
    (∀ b m inc rest, s.coll = some k → k.queue = (b, m, inc) :: rest → k.claims + 1 = k.nblk →
      ∃ w, exec (.gqclm x) s = .next (owes w (.s x.d) x.stall (.scalar 0 (BitVec.ofNat 64
          ((if inc then 2 ^ 62 else 0) + m.toNat * 2 ^ 32 + b)))) ∧ w.coll = none) ∧
    (s.coll = some k → k.queue = [] →
      ∃ t tag, exec (.gqclm x) s = .next t ∧ t.gqclms = s.gqclms ++ [(s.cur.1, s.cur.2, tag)] ∧ t.coll = s.coll ∧
        ∃ o ∈ t.me.owed, o.tag = tag ∧ o.val = .waiting)) ∧
  (∀ (x : DlR) (s : State) (v : Vals), Poised s { noOperands with d := .s x.d } v → isGateway s.cur.1 = false →
    exec (.gqclm x) s = .next (trapHere s (trapResource 0x500)))

namespace Sys2Proof.Rules

/-- Address of an access through a handle to an object: hbase + off + offset (R322). -/
def objectAddr (u : State) (e : Entry) (off : BitVec 24) : W64 :=
  BitVec.ofNat 64 ((u.part u.me.thread.part).hbase + e.off + off.toNat)

/-- The word on the slot has not yet read the entry that a handle names (R322). -/
def Unread (s : State) (h : W64) : Prop := ∀ r, s.me.entryRead = some (h, r) → r = .sent

/-- The word has read the entry of a strong handle and found a live object, and the access of n bytes at an aligned offset lies in
it and reaches its bytes at `a`, before the sources are read and within the word, which has nothing to wait for (R322). -/
structure ByHandle (s : State) (f : Form) (h : W64) (off : BitVec 24) (need : Need) (n : Nat) (a : W64) (loc : Loc) : Prop where
  /-- the handle is strong -/
  strong : hStrong h = true
  /-- the offset is not negative, and aligned -/
  offset : off.toNat < 2 ^ 23 ∧ off.toNat % n = 0
  /-- what its entry held, and the checks before the sources are read -/
  read : ∃ e, s.me.entryRead = some (h, .live e) ∧ off.toNat + n ≤ e.size ∧ (objectAddr s e off).toNat % n = 0 ∧
    (∃ l, resolve s s.cur.1 s.me.thread .glb need true (objectAddr s e off) n = .ok l) ∧ a = objectAddr (within s f) e off
  /-- its place -/
  found : placeOf (within s f) .glb need a n loc
  /-- no RED of the thread is outstanding -/
  noRed : NoRed (within s f)
  /-- no ordering of the slot and no walk is outstanding -/
  free : Free (within s f) .glb a

/-- The entry read of HLD and HST: HANDLE_KIND of a weak handle and ALIGN of an offset come first, the word then parks with reason
result and notes what the entry holds, and ACCESS of a stale handle or of an access outside its object comes with what was read; u
is the state within the word (R91, R322, R326). -/
def HandleRead (i : Instr) (s u : State) (h : W64) (off : BitVec 24) (n : Nat) : Prop :=
  (hStrong h = false → exec i s = .next (trapHere s (trapHandleKind h))) ∧
  (hStrong h = true → (off.signExtend 64 : W64).toNat % n ≠ 0 →
    exec i s = .next (trapHere s (trapAlign (off.signExtend 64)))) ∧
  (hStrong h = true → (off.signExtend 64 : W64).toNat % n = 0 → Unfenced u → Unread s h →
    ∃ t, exec i s = .next t ∧ t.me.st = .parked .result ∧ t.me.n = s.me.n ∧ t.me.q = s.me.q ∧ t.me.idx = s.me.idx ∧
      (¬ EntrySound s h → t.me.entryRead = some (h, .marked)) ∧
      (EntrySound s h → liveObject s s.me.thread.part h = none → t.me.entryRead = some (h, .gone)) ∧
      ∀ j e, EntrySound s h → Names s h j e → t.me.entryRead = some (h, .live e)) ∧
  (hStrong h = true → (off.signExtend 64 : W64).toNat % n = 0 →
    s.me.entryRead = some (h, .gone) ∨
      (∃ e, s.me.entryRead = some (h, .live e) ∧ (2 ^ 23 ≤ off.toNat ∨ e.size < off.toNat + n)) →
    exec i s = .next (trapHere s (trapHandleAccess h)))

/-- No array of a core carries an uncorrectable error, and no core is about to seal for one (R163). -/
def Flawless (s : State) : Prop :=
  ∀ e ∈ s.cores, e.2.flaws = [] ∧ e.2.sealDue = false ∧ ∀ l ∈ e.2.l1, l.flawed = false

/-- The sum of element i of two blocks of 4w element bytes and a scale byte (R65, R69, R354). -/
def blockTotal (n : Narrow) (topx : Bool) (B C : Nat → Nat) (i : Nat) : Machine.Num :=
  Machine.Num.add .rne (scaledRead n topx (B (4 * n.width)) (packed B n.width i))
    (scaledRead n topx (C (4 * n.width)) (packed C n.width i))

/-- The block that BADDQ writes: the codes of the sums under the scale of their largest, saturated, then the scale and three
zero bytes (R66, R70, R354). -/
def HoldsTotal (n : Narrow) (topx : Bool) (B C A : Nat → Nat) : Prop :=
  let n := { n with sat := true }
  let scale := scaleChoose n topx (blockMax (2 ^ 32 - 1) (blockTotal n topx B C) 0 32)
  A (4 * n.width) = scale ∧ A (4 * n.width + 1) = 0 ∧ A (4 * n.width + 2) = 0 ∧ A (4 * n.width + 3) = 0 ∧
    ∀ e < 32, packed (fun i => if i < 4 * n.width then A i else 0) n.width e =
      scaledWrite n topx .rne scale (blockTotal n topx B C e)

end Sys2Proof.Rules

/-- HADDR yields the address of a live object; HLD and HST read the entry of a strong handle, for which they park, and then reach
the bytes that it gave, at an aligned offset in its size, whatever has become of the object, or trap; HLDW, once it has parked for
the entry, yields them through any handle with a status, without a destination it is a prefetch that changes no byte; an entry
that is poisoned marks the reply; BADDQ replaces a block by the sum of two under a scale of its own (R65, R66, R70, R298, R321,
R322, R326, R354). -/
def Obligations.ObjectsAreReachedThroughHandles : Prop :=
  (∀ (x : DlA) (s : State) (v : Vals), let f := formA x.a x.d
    let u := consumeAll s f
    Poised s f v → Unfenced u →
    (¬ EntrySound u v.a → ∃ w, exec (.haddr x) s = .next (owes w (.s x.d) x.stall .poison) ∧ CoresKept u w ∧ w.mem = u.mem) ∧
    (EntrySound u v.a → ∀ i e, hStrong v.a = true → Names u v.a i e → exec (.haddr x) s = .next (owes u (.s x.d) x.stall
      (.scalar 0 (BitVec.ofNat 64 ((u.part u.me.thread.part).hbase + e.off))))) ∧
    (EntrySound u v.a → hStrong v.a = false ∨ liveObject u u.me.thread.part v.a = none →
      exec (.haddr x) s = .next (owes u (.s x.d) x.stall (.scalar 0 0)))) ∧
  (∀ (x : HldM) (s : State) (v : Vals), let f := formA x.a x.d
    let u := within s f
    let n := width4 x.w / 8
    Poised s f v → HandleRead (.hld x) s u v.a x.off n ∧
    (hStrong v.a = true → (x.off.signExtend 64 : W64).toNat % n = 0 → Unfenced u → s.me.entryRead = some (v.a, .marked) →
      exec (.hld x) s = .next (owes u (.s x.d) x.stall .poison)) ∧
    ∀ (a : W64) (loc : Loc), ByHandle s f v.a x.off needLoad n a loc →
    ∃ w, (∃ val, exec (.hld x) s = .next (owes w (.s x.d) x.stall val)) ∧
      (Current u loc →
        (∀ b, valueAt u loc n = some b → exec (.hld x) s = .next (owes w (.s x.d) x.stall
          (.scalar 0 (if x.sx then wrap (8 * n) b else BitVec.ofNat 64 b)))) ∧
        (Damaged u loc n → exec (.hld x) s = .next (owes w (.s x.d) x.stall .poison))) ∧
      CoresKept u w ∧ (Clean u → w.mem = u.mem ∧ w.hostMem = u.hostMem)) ∧
  (∀ (x : HstM) (s : State) (v : Vals), let g : Form := { noOperands with a := .s x.a, b := .s x.b }
    let u := within s g
    let n := width4 x.w / 8
    Poised s g v → HandleRead (.hst x) s u v.a x.off n ∧
    (hStrong v.a = true → (x.off.signExtend 64 : W64).toNat % n = 0 → Unfenced u → s.me.entryRead = some (v.a, .marked) →
      ∃ t, exec (.hst x) s = .next t ∧ (t.core s.cur.1).isSealed = true) ∧
    ∀ (a : W64) (loc : Loc), ByHandle s g v.a x.off needStore n a loc →
    ∃ w, exec (.hst x) s = .next (goesOn w x.stall) ∧ SlotsAsTheyWere u w ∧
      StoredAt u w .nrm .rlx a loc n (v.b.toNat % 2 ^ (8 * n)) ∧ (Clean u → OnlyBytesAt u w loc n)) ∧
  (∀ (x : HldM) (s : State) (v : Vals), let f := formA x.a x.d
    let u := within s f
    let n := width4 x.w / 8
    Poised s f v →
    ((x.off.signExtend 64 : W64).toNat % n ≠ 0 → exec (.hldw x) s = .next (trapHere s (trapAlign (x.off.signExtend 64)))) ∧
    ((x.off.signExtend 64 : W64).toNat % n = 0 → Unfenced u →
    (x.d = .z → ∃ w, exec (.hldw x) s = .next (finish w (.s x.d) x.stall.toNat .none .seq false) ∧ CoresKept u w ∧
      (Clean u → w.mem = u.mem) ∧
      (EntrySound u v.a → (∀ i e, Names u v.a i e → x.off.toNat < 2 ^ 23 → x.off.toNat + n ≤ e.size →
        u.poisoned ((u.part u.me.thread.part).hphys + e.off + x.off.toNat) = false) → w = u)) ∧
    (x.d ≠ .z → (∀ r, s.me.entryRead ≠ some (v.a, r)) → ∃ t, exec (.hldw x) s = .next t ∧ t.me.st = .parked .result ∧
      t.me.entryRead = some (v.a, .sent) ∧ t.me.n = s.me.n ∧ t.me.q = s.me.q) ∧
    (∀ r, x.d ≠ .z → s.me.entryRead = some (v.a, r) → ∃ w, CoresKept u w ∧ (Clean u → w.mem = u.mem) ∧
      (¬ EntrySound u v.a → exec (.hldw x) s = .next (owesPair w (.s x.d) x.stall .poison)) ∧
      (EntrySound u v.a → liveObject u u.me.thread.part v.a = none →
        exec (.hldw x) s = .next (owesPair w (.s x.d) x.stall (.scalar 1 0))) ∧
      (∀ i e, EntrySound u v.a → Names u v.a i e → 2 ^ 23 ≤ x.off.toNat ∨ e.size < x.off.toNat + n →
        exec (.hldw x) s = .next (owesPair w (.s x.d) x.stall (.scalar 2 0))) ∧
      (∀ i e, EntrySound u v.a → Names u v.a i e → x.off.toNat < 2 ^ 23 → x.off.toNat + n ≤ e.size → NoRed u →
        let pa := (u.part u.me.thread.part).hphys + e.off + x.off.toNat
        (∃ k, regionOf pa = .hbm k) →
        (u.poisoned pa = false → exec (.hldw x) s = .next (owesPair w (.s x.d) x.stall
          (.scalar 0 (if x.sx then wrap (8 * n) (num u.mem pa n) else BitVec.ofNat 64 (num u.mem pa n))))) ∧
        (u.poisoned pa = true → exec (.hldw x) s = .next (owesPair w (.s x.d) x.stall .poison)))))) ∧
  (∀ (x : BaddqR) (s : State) (v : Vals), let g : Form := { noOperands with a := .s x.a, b := .s x.b, c := .s x.c }
    let u := within s g
    let n := narrowOf (s.me.fmtReg x.fmt.val)
    let bb := 4 * n.width + 4
    let reach (need : Need) (a : W64) : Prop := ∀ i < bb, Cached u (a + BitVec.ofNat 64 i) ∧
      (∃ l, resolve s s.cur.1 s.me.thread .glb need true (a + BitVec.ofNat 64 i) 1 = .ok l) ∧
      ∃ l, placeOf u .glb need (a + BitVec.ofNat 64 i) 1 l
    Poised s g v → imageValid (s.me.fmtReg x.fmt.val) = true → n.scale = 1 → n.width = 2 ∨ n.width = 4 ∨ n.width = 8 →
    v.a.toNat % 4 = 0 → v.b.toNat % 4 = 0 → v.c.toNat % 4 = 0 → reach needStore v.a → reach needLoad v.b →
    reach needLoad v.c → NoRed u → Unfenced u → u.poison = [] → Flawless u →
    ∃ w, exec (.baddq x) s = .next (goesOn w x.stall) ∧ CoresKept u w ∧
      OnlyPlaces u w (fun loc => ∃ i < bb, placeOf u .glb needStore (v.a + BitVec.ofNat 64 i) 1 loc) 1 ∧
      ∀ B C pa : Nat → Nat, Settled u → (∀ i < bb, ByteIs u .glb (v.b + BitVec.ofNat 64 i) (B i)) →
        (∀ i < bb, ByteIs u .glb (v.c + BitVec.ofNat 64 i) (C i)) →
        (∀ i < bb, (∀ j < i, pa i ≠ pa j) ∧ ∃ leaf k,
          placeOf u .glb needStore (v.a + BitVec.ofNat 64 i) 1 (.mem (pa i) leaf) ∧ leafClass leaf = 0 ∧
          regionOf (pa i) = .hbm k) →
        HoldsTotal n s.me.topx B C (fun i => (cellGet w.mem (pa i)).toNat))

/-! ### Steps of other agents -/

namespace Sys2Proof.Rules

/-- A register after the arrival of a result owed under a tag (R82). -/
def Filled {α : Type} (tag : Nat) (val : Nat → α) (x y : Cell α) : Prop :=
  (∀ p, x.st = .pending tag p → y = { val := val p, st := .now }) ∧ ((∀ p, x.st ≠ .pending tag p) → y = x)

/-- 1 for 0, else the number (R100). -/
def orOne (n : Nat) : Nat := if n = 0 then 1 else n

/-- Size of the chunk that a claim takes when `claimed` reads c (R102). -/
def chunkSize (f : Fetcher) (c : Nat) : Nat :=
  let d := f.guided * orOne f.parties
  min (f.total - c) (if f.guided = 0 then orOne f.minc else max (orOne f.minc) ((f.total - c + d - 1) / d))

/-- The gang that a thread belongs to. -/
def gangId (x : Slot) : GangId := (x.thread.launch, x.thread.gang)

/-- No RED of a slot's thread is under way. -/
def NoRedOf (s : State) (c k : Nat) : Prop := ∀ x ∈ s.reds, threadId x.thr ≠ threadId (s.slot c k).thread

/-- No iteration claim of a slot waits for its answer. -/
def NoClaimOf (s : State) (c k : Nat) : Prop := (s.slot c k).fetcher.bound = true → (s.slot c k).fetcher.claiming = false

/-- Bytes of a page. -/
def pageBytes (large : Bool) : Nat := if large then 2 ^ 29 else 2 ^ 16

/-- A line of an L1 is held under a page of a partition and address space. -/
def heldUnder (l : L1Line) (part asid : Nat) (large : Bool) (va : W64) : Prop :=
  l.part = part ∧ l.asid = asid ∧ l.vline * 32 % 2 ^ 55 / pageBytes large = va.toNat % 2 ^ 55 / pageBytes large

/-- The page of a translation holds an address. -/
def pageHolds (e : TlbEntry) (va : W64) : Prop :=
  if e.large then e.vpage % 2 ^ 26 = va.toNat % 2 ^ 55 / 2 ^ 29 else e.vpage % 2 ^ 39 = va.toNat % 2 ^ 55 / 2 ^ 16

end Sys2Proof.Rules

/-- What arrives at a slot by itself: a result fills the registers that wait for it, a claim takes a chunk, a link word
joins the words to pop, a sector is requested and marked, a prefetched element waits in its stream, a RED is performed, a
parked slot runs on, a word, delivery or sector that the checker rejected is tried again from what it held, a translation is
cached, or shot down with its lines written back and invalidated, a refused reservation asks again and an overdue one passes on
(R82, R87, R102, R104, R133, R134, R147, R148, R152, R157, R163, R170, R182, R189, R190, R201, R240, R301, R302). The model's
choices: the checker rejects the word or the delivery that a free number names (log 5), a rejected delivery is made once more
(log 30), a seal at a result reports word and address 0 (log 31), a walk's failure is met by the access itself, and a sector, an
element or a claim waits for a RED or claim of its thread to the same bytes (log 7), and a shoot-down wakes every monitor on its
page (log 38). -/
def Obligations.ArrivalsComeToTheirSlots : Prop :=
  (∀ (s : State) (c k tag : Nat) (o : Owed), (s.slot c k).owed.find? (fun o => o.tag == tag) = some o →
    (∀ st d, o.val = .scalar st d → (s.core c).sealDue = false → ∃ t, exec (.resultDelivery c k tag) s = .next t ∧
      (∀ i, Filled tag (fun p => if p = 0 then st else d) ((s.slot c k).nCell i) ((t.slot c k).nCell i)) ∧
      (∀ i, Filled tag (fun p => if p = 0 then st else d) ((s.slot c k).qCell i) ((t.slot c k).qCell i)) ∧
      t.mem = s.mem) ∧
    (∀ d, o.val = .vector d → (s.core c).sealDue = false → ∃ t, exec (.resultDelivery c k tag) s = .next t ∧
      (∀ i, Filled tag (fun _ => d) ((s.slot c k).vCell i) ((t.slot c k).vCell i)) ∧ t.mem = s.mem) ∧
    (o.val = .poison ∨ (s.core c).sealDue = true → ∃ t, exec (.resultDelivery c k tag) s = .next t ∧ (t.core c).isSealed = true)) ∧
  (∀ (s : State) (c k : Nat) (pa : Nat) (leaf : W64), let f := (s.slot c k).fetcher
    let n := num s.mem pa 8
    f.bound = true → f.claiming = true → f.failed = false → f.total < 2 ^ 64 → Clean s → s.poisoned pa = false →
    NoRedOf s c k → latePlace s c (s.slot c k).thread (f.desc + 8) = .ok (pa, leaf) →
    ∃ t, exec (.iterationClaim c k) s = .next t ∧
      (f.total ≤ n → (t.slot c k).fetcher = { f with exhausted := true, claiming := false } ∧ t.mem = s.mem) ∧
      (n < f.total → (t.slot c k).fetcher = { f with next := some (n, n + chunkSize f n), claiming := false } ∧
        num t.mem pa 8 = n + chunkSize f n ∧ ∀ a, a < pa ∨ pa + 8 ≤ a → cellGet t.mem a = cellGet s.mem a)) ∧
  (∀ (s : State) (c k : Nat), let f := (s.slot c k).fetcher
    f.bound = true → f.claiming = true → (∃ x ∈ s.reds, threadId x.thr = threadId (s.slot c k).thread ∧ x.addr = f.desc + 8) →
    exec (.iterationClaim c k) s = .next { s with agenda := s.agenda ++ [.iterationClaim c k] }) ∧
  (∀ (s : State) (c k flags : Nat), let f := (s.slot c k).fetcher
    f.bound = true → f.claiming = true → f.failed = false → NoRedOf s c k → latePlace s c (s.slot c k).thread (f.desc + 8) = .error flags →
    ∃ t, exec (.iterationClaim c k) s = .next t ∧ (t.slot c k).fetcher = { f with failed := true } ∧
      FaultSent s t c k (s.slot c k).thread 6 (f.desc + 8) flags 0 f.word) ∧
  (∀ (s : State) (c : Nat) (d : Dir) (serial gang j : Nat) (v : W64) (vs : List W64),
    let thr : Thread := { Thread.none with launch := serial, gang := gang, j := j }
    (linkFifo s c d thr).wire = v :: vs → ∃ t, exec (.linkWordArrival c d serial gang j) s = .next t ∧
      (linkFifo t c d thr).wire = vs ∧ (linkFifo t c d thr).fifo = (linkFifo s c d thr).fifo ++ [v] ∧
      ∀ k, t.slot c k = s.slot c k) ∧
  (∀ (s : State) (c k i : Nat), let r := (s.slot c k).record
    (s.stopped (s.slot c k).thread = false → NoRedOf s c k → NoClaimOf s c k →
      nextSector r = some i → sectorFails s c (s.slot c k).thread r i = none →
      ∃ t, exec (.sectorRequest c k) s = .next t ∧ (t.slot c k).record = { r with inflight := r.inflight ++ [i] } ∧
        t.agenda = s.agenda ++ [.sectorArrival c k i, .sectorRequest c k]) ∧
    (s.stopped (s.slot c k).thread = true → exec (.sectorRequest c k) s = .next s) ∧
    (r.state = .running → i ∈ r.inflight → r.base ≤ i → i < r.base + 256 → Flawless s →
      (∃ data, mapFind r.data i = some data) ∨ (mapFind r.data i = none ∧ sectorFails s c (s.slot c k).thread r i = none ∧
        (sectorData s c (s.slot c k).thread r (sectorReads r i)).2.1 = false) →
      ∃ t, exec (.sectorArrival c k i) s = .next t ∧
        (i < (t.slot c k).record.base ∨ (t.slot c k).record.bitmap.testBit (i - (t.slot c k).record.base) = true) ∧
        (t.slot c k).record.inflight = r.inflight.erase i ∧
        ((∃ data, mapFind r.data i = some data) → (s.slot c k).trace = false → Clean s → t.mem = s.mem) ∧
        (t.slot c k).n = (s.slot c k).n ∧ (t.slot c k).q = (s.slot c k).q)) ∧
  (∀ (s : State) (c k : Nat) (addr : W64) (flags : BitVec 8), let r := (s.slot c k).record
    r.state = .running → r.failing = false → r.aborting = false → r.held = none → r.base ≠ r.sectors →
    ∃ t, exec (.loadFault c k addr flags) s = .next t ∧
      (t.slot c k).record = { r with faddr := addr, msgOut := true, failing := !r.inflight.isEmpty, state := if r.inflight = [] then .faulted else .running } ∧
      FaultSent s t c k (s.slot c k).thread 0x05 addr flags.toNat r.tile r.word) ∧
  (∀ (s : State) (c k r : Nat) (loc : Loc) (val : Nat), let b := (s.slot c k).stream r
    let p := b.pos + b.buf.length
    b.bound = true → b.wr = false → p < b.count → b.buf.length < 16 → Clean s → (∀ l o, loc ≠ .hit l o) →
    NoRedOf s c k → NoClaimOf s c k →
    resolve s c (s.slot c k).thread b.sp needLoad true (b.base + BitVec.ofNat 64 p * b.stride) (2 ^ b.size) = .ok loc →
    valueAt s loc (2 ^ b.size) = some val →
    ∃ t, exec (.streamPrefetch c k r) s = .next t ∧
      (t.slot c k).stream r = { b with buf := b.buf ++ [BitVec.ofNat 64 val] } ∧ t.mem = s.mem ∧
      Instr.streamPrefetch c k r ∈ t.agenda) ∧
  (∀ (s : State) (r : DefRed) (pa : Nat) (leaf : W64), let n := width r.w / 8
    s.reds.find? (fun x => x.id == r.id) = some r → r.failed = false →
    (∀ x ∈ s.reds, threadId x.thr = threadId r.thr → x.id = r.id) → (isFp r.op = true → r.w = .w) → Clean s →
    latePlace s r.core r.thr r.addr = .ok (pa, leaf) → s.poisoned pa = false →
    ∃ t, exec (.redTranslation r.id) s = .next t ∧ t.reds = s.reds.filter (fun x => x.id != r.id) ∧
      num t.mem pa n = amo r.op (8 * n) (num s.mem pa n) (low (8 * n) r.val) ∧
      ∀ a, a < pa ∨ pa + n ≤ a → cellGet t.mem a = cellGet s.mem a) ∧
  (∀ (s : State) (c k : Nat),
    (∀ r, (s.slot c k).st = .parked r → ∃ t, exec (.unpark c k) s = .next t ∧ (t.slot c k).st = .running ∧
      (r = .monitor → (t.slot c k).monitor.woken = true)) ∧
    ((∀ r, (s.slot c k).st ≠ .parked r) → exec (.unpark c k) s = .next s)) ∧
  (∀ (s : State) (c k : Nat), let x := s.slot c k
    let n := Config.freeNat s.free % (x.owed.length + 1)
    (n = x.owed.length → x.mayIssue = true →
      exec (.checkerRetry c k none) s = .next (({ s with free := s.free + 1 } : State).setSlot c k { x with suspect := true })) ∧
    (∀ o, x.owed[n]? = some o → o.val ≠ .waiting →
      (o.retried = false → ∃ t, exec (.checkerRetry c k none) s = .next t ∧
        t.slot c k = { x with owed := x.owed.map (fun p => if p.tag = o.tag then { p with retried := true } else p) } ∧
        FaultSent s t c k x.thread 0x12 0 0 o.op 0) ∧
      (o.retried = true → ∃ t, exec (.checkerRetry c k none) s = .next t ∧ (t.core c).isSealed = true ∧ t.cur = s.cur))) ∧
  (∀ (x : BareI) (s : State) (w : W64), s.me.mayIssue = true → s.me.suspect = true → s.me.block[s.me.idx]? = some w →
    let a := s.me.hdr + 8 * BitVec.ofNat 64 s.me.idx
    (s.me.retry = false → ∃ t, exec (.nop x) s = .next t ∧ t.cur = s.cur ∧ t.me.st = .running ∧ t.me.retry = true ∧
      t.me.suspect = false ∧ t.me.held = some { q := s.me.q, n := s.me.n, v := s.me.v, cut := sealedSides s } ∧ t.me.idx = s.me.idx ∧
      t.me.hdr = s.me.hdr ∧ t.me.q = s.me.q ∧ t.me.n = s.me.n ∧ t.me.v = s.me.v ∧
      FaultSent s t s.cur.1 s.cur.2 s.me.thread 0x12 a 0 (w.toNat / 2 ^ 56) a) ∧
    (s.me.retry = true → ∃ t, exec (.nop x) s = .next t ∧ (t.core s.cur.1).isSealed = true)) ∧
  (∀ (s : State) (c k i : Nat), let r := (s.slot c k).record
    let d := sectorData s c (s.slot c k).thread r (sectorReads r i)
    r.state = .running → i ∈ r.inflight →
    (i ∉ r.retried → sectorFails s c (s.slot c k).thread r i = none → d.2.1 = false → ∃ t, exec (.checkerRetry c k (some i)) s = .next t ∧
      (t.slot c k).record = { r with retried := i :: r.retried, data := mapSet r.data i d.1 } ∧
      (t.core c).tiles = (s.core c).tiles ∧ FaultSent s t c k (s.slot c k).thread 0x12 r.word 0 0x59 r.word) ∧
    (i ∈ r.retried → ∃ t, exec (.checkerRetry c k (some i)) s = .next t ∧ (t.core c).isSealed = true)) ∧
  (∀ (s : State) (c k : Nat) (va : W64) (acc : Access) (large : Bool) (leaf : W64), let thr := (s.slot c k).thread
    walk s thr.part thr.asid (va.toNat % 2 ^ 55) = .leaf large leaf →
    ∃ t, exec (.translationWalk c k va acc) s = .next t ∧ (tlbFind t c thr.part thr.asid va.toNat).isSome = true ∧
      t.mem = s.mem ∧ t.cores = s.cores) ∧
  (∀ (s : State) (p part asid : Nat) (va : W64), ∃ t, exec (.shootDown p part asid va) s = .next t ∧
    (∀ e ∈ (t.cluster p).tlb, e.part = part → e.asid = asid → ¬ pageHolds e va) ∧
    (∀ c, clusterOf c = p → ∀ l ∈ (t.core c).l1, ¬ heldUnder l part asid false va) ∧
    (∀ c l i m, clusterOf c = p → l ∈ (s.core c).l1 → heldUnder l part asid false va → l.cls ≠ 0 → i < 32 →
      l.dirty.getLsbD i = true → regionOf (l.pline * 32 + i) = .hbm m →
      (∀ d, ∀ q ∈ (s.core d).l1, q.pline = l.pline → q = l) →
      cellGet t.mem (l.pline * 32 + i) = BitVec.ofNat 8 (l.data.toNat / 2 ^ (8 * i))) ∧
    ∀ large leaf, walk s part asid (va.toNat % 2 ^ 55) = .leaf large leaf →
      (∀ c, clusterOf c = p → ∀ l ∈ (t.core c).l1, ¬ heldUnder l part asid large va) ∧
      ∀ c k, (s.slot c k).monitor.armed = true → leafFrame leaf ≤ (s.slot c k).monitor.line * 32 →
        (s.slot c k).monitor.line * 32 < leafFrame leaf + pageBytes large → (t.slot c k).monitor.woken = true) ∧
  (∀ (s : State) (c k : Nat), (s.slot c k).st = .parked .reservation → (s.slot c k).asked = true →
    exec (.lrwRepeat c k) s = .next (s.setSlot c k { s.slot c k with sleepLeft := some 0 })) ∧
  (∀ (s : State) (line : Nat) (e : ResEntry) (p : Partition) (since : Nat),
    s.res.find? (fun e => e.line == line) = some e → s.partOfLine line = some p → e.held = some since → p.tau ≠ 0 →
    (s.clk.toNat < since + p.tau → exec (.tenureExpiry line) s = .next s) ∧
    (since + p.tau ≤ s.clk.toNat → ∃ t, exec (.tenureExpiry line) s = .next t ∧
      queueOf t line = (queueOf s line).filter (· != e.tid) ∧ (∀ l ≠ line, queueOf t l = queueOf s l) ∧ t.mem = s.mem))

namespace Sys2Proof.Rules

/-- A woken slot: running, at its position, with what its context holds. -/
def Resumed (x y : Slot) : Prop :=
  y.st = .running ∧ y.faultedBy = none ∧ y.thread = x.thread ∧ y.n = x.n ∧ y.q = x.q ∧ y.v = x.v ∧ y.hdr = x.hdr ∧
  y.idx = x.idx ∧ y.status = x.status ∧ y.tcause = x.tcause ∧ y.tepc = x.tepc

/-- A cell of a context that stood on no slot: its fixed-latency result is ready (R84). -/
def nowReady {α : Type} (c : Cell α) : Cell α :=
  match c.st with
  | .late _ v => { val := v, st := .now }
  | _ => c

/-- A context that has taken a slot again: running, at its position, with what it held, its fixed-latency results ready
(R84, R204). -/
def Replaced (x y : Slot) : Prop :=
  y.st = .running ∧ y.faultedBy = none ∧ y.thread = x.thread ∧ y.hdr = x.hdr ∧ y.idx = x.idx ∧ y.status = x.status ∧
  y.tcause = x.tcause ∧ y.tepc = x.tepc ∧
  ∀ i, y.nCell i = nowReady (x.nCell i) ∧ y.qCell i = nowReady (x.qCell i) ∧ y.vCell i = nowReady (x.vCell i)

/-- A refused message's notice: the kind, and the die, cluster, core, slot and register that the message was for (R178). -/
def noticeOf (kind : Nat) (m : RegMsg) : W64 :=
  BitVec.ofNat 64 (kind * 2 ^ 56 + m.core * 2 ^ 14 + m.slot * 2 ^ 10 + m.reg * 2 ^ 7)

/-- A message refused with a notice of a kind, which goes from the target's core to m7 of the sending slot with the TOPX that
the message carried (R178, R222). -/
def Refused (s t : State) (m : RegMsg) (kind : Nat) : Prop :=
  ∃ fl n, (t.core m.core).inject = (s.core m.core).inject ++ [fl] ∧ fl.kind = 0x02 ∧ fl.payload = .reg n ∧
    fl.dcore = m.srcCore ∧ n.core = m.srcCore ∧ n.slot = m.srcSlot ∧ n.reg = 7 ∧ n.topx = m.topx ∧ n.notice = true ∧
    (isGateway m.core = false → n.value = noticeOf kind m)

/-- The number of clk that a hop takes: 1, or 4 across dies (R215). -/
def hop (a b : Nat) : Nat := if a % 16 / 8 = b % 16 / 8 ∧ a / 16 / 8 = b / 16 / 8 then 1 else 4

/-- Steps between two routers of the mesh. -/
def meshDistance (a b : Nat) : Nat :=
  (max (a % 16) (b % 16) - min (a % 16) (b % 16)) + (max (a / 16) (b / 16) - min (a / 16) (b / 16))

/-- A wake word of a service core, or a launch's, which is no message for m7 (R202). -/
def wakes (m : RegMsg) : Prop :=
  m.reg = 7 ∧ m.svc = true ∧ m.notice = false ∧ 1 ≤ m.value.toNat / 2 ^ 56 ∧ m.value.toNat / 2 ^ 56 ≤ 5

end Sys2Proof.Rules

/-- A register message fills an empty register, joins the inbox or is refused with a notice, and a wake word starts its step; the
wakes reinstate where the core takes it, end, resume and pass over; a context that waits takes a free slot; flits move toward
their router and are handed over there, or are lost and refused; requests are granted, queued or repeated, and a migrated thread
takes its slot and stands at its block's header, or takes ACCESS on the core that it left where its context was turned away; a
service message joins its core's mail (R178, R202–R204, R215, R222, R225, R226, R338). The model's choices: whether a link code
fails (log 5), the step that a wake word posts (log 29), the slot in which a woken thread goes on (log 20), the wake 0x02 that the
fault logic of a sealed core still takes and the core that receives a migration request (log 38), a grant whose reassembly slot is
gone making its MIGRATE ask again (log 28), gateway cores lying in every partition and the place at which the sender of a message,
or the thread of a context, that is turned away traps (log 13). -/
def Obligations.MessagesWakesAndFlitsAreDelivered : Prop :=
  (∀ (m : RegMsg) (s : State), let y := s.slot m.core m.slot
    (m.notice = false →
      ((s.core m.core).isSealed = true ∨ y.st = .sealed →
        ∃ t, exec (.registerMessage m) s = .next t ∧ Refused s t m 0x01 ∧ (wakes m → m.value.toNat / 2 ^ 56 = 2 →
          Instr.wakeEndGang m.core (BitVec.ofNat 64 (m.value.toNat % 2 ^ 56)) ∈ t.agenda)) ∧
      ((s.core m.core).isSealed = false → y.st = .empty → ¬ wakes m →
        ∃ t, exec (.registerMessage m) s = .next t ∧ Refused s t m 0x03) ∧
      ((s.core m.core).isSealed = false → y.st ≠ .empty → y.st ≠ .sealed → ¬ wakes m → (y.mreg m.reg).full = true →
        16 ≤ (s.core m.core).inbox.length → ∃ t, exec (.registerMessage m) s = .next t ∧ Refused s t m 0x02)) ∧
    ((s.core m.core).isSealed = false → y.st ≠ .sealed →
    (wakes m → ∃ t, exec (.registerMessage m) s = .next t ∧ t.agenda = s.agenda ++ [match m.value.toNat / 2 ^ 56 with
      | 1 => .wakeReinstate m.core (BitVec.ofNat 64 (m.value.toNat % 2 ^ 56))
      | 2 => .wakeEndGang m.core (BitVec.ofNat 64 (m.value.toNat % 2 ^ 56))
      | 3 => .wakeResumeLoad m.core (BitVec.ofNat 64 (m.value.toNat % 2 ^ 56))
      | 4 => .wakeEndLoad m.core (BitVec.ofNat 64 (m.value.toNat % 2 ^ 56))
      | _ => .wakePassOver m.core (BitVec.ofNat 64 (m.value.toNat % 2 ^ 56))]) ∧
    (¬ wakes m → y.st ≠ .empty → (y.mreg m.reg).full = false → ∃ t, exec (.registerMessage m) s = .next t ∧
      t.slot m.core m.slot = { y with m := mapSet y.m m.reg { val := m.value, full := true, topx := m.topx }, msgWake := true }) ∧
    (¬ wakes m → y.st ≠ .empty → (y.mreg m.reg).full = true → (s.core m.core).inbox.length < 16 →
      ∃ t, exec (.registerMessage m) s = .next t ∧ (t.core m.core).inbox =
        (s.core m.core).inbox ++ [{ slot := m.slot, reg := m.reg, value := m.value, topx := m.topx }]))) ∧
  (∀ (s : State) (c k : Nat) (tid : W64), let x := s.slot c k
    faultedSlot s c tid = some k →
    (noReinstate s c = false → ∃ t, exec (.wakeReinstate c tid) s = .next t ∧ Resumed x (t.slot c k)) ∧
    (noReinstate s c = true → ∃ t, exec (.wakeReinstate c tid) s = .next t ∧ t.cores = s.cores ∧
      Instr.wakeReinstate c tid ∈ t.agenda) ∧
    (∃ t, exec (.wakeEndGang c tid) s = .next t ∧
      (∀ c' k', gangId (t.slot c' k') = gangId x → (t.slot c' k').st = .empty ∨ (t.slot c' k').st = .sealed) ∧
      ∀ g ∈ t.gangs, g.id ≠ gangId x) ∧
    (∀ idx w, idx = x.tcause.toNat / 2 ^ 7 % 2 ^ 7 → idx ≠ 0 → x.faultedBy = some .trap → noReinstate s c = false →
      (x.tepc + 8 - 8 * BitVec.ofNat 64 (idx + 1)).toNat % 8 = 0 →
      fetchAt { s.setSlot c 16 x with cur := (c, 16) } (x.tepc + 8 - 8 * BitVec.ofNat 64 (idx + 1)) = .word w →
      w.toNat / 2 ^ 56 = 0xFE → idx + 1 ≤ hdrLen w + 2 →
      ∃ t, exec (.wakePassOver c tid) s = .next t ∧
        Resumed { x with hdr := x.tepc - 8 * BitVec.ofNat 64 idx, idx := idx + 1 } (t.slot c k))) ∧
  (∀ (s : State) (c k : Nat) (tid : W64), let x := s.slot c k
    faultedSlot s c tid = none → failedClaim s c tid = none → sealedThread s c tid = some k →
    ∃ t, exec (.wakeEndGang c tid) s = .next t ∧ ∀ g ∈ t.gangs, g.id ≠ gangId x) ∧
  (∀ (s : State) (c k : Nat) (tid : W64), let r := (s.slot c k).record
    waitingLoad s c tid = some k →
    (r.state = .faulted → ∃ t, exec (.wakeResumeLoad c tid) s = .next t ∧
      (t.slot c k).record = { r with state := .running, failing := false, msgOut := false, held := none } ∧
      Instr.sectorRequest c k ∈ t.agenda) ∧
    (r.state = .faulted → ∃ t, exec (.wakeEndLoad c tid) s = .next t ∧
      (t.slot c k).record = { r with state := .aborted, err := true, failing := false, msgOut := false, held := none }) ∧
    (r.state ≠ .faulted → r.held = none →
      (∃ t, exec (.wakeResumeLoad c tid) s = .next t ∧ (t.slot c k).record = { r with held := some true }) ∧
      ∃ t, exec (.wakeEndLoad c tid) s = .next t ∧ (t.slot c k).record = { r with held := some false })) ∧
  (∀ (s : State) (c k : Nat) (x : Slot) (xs : List Slot), (s.core c).waiting = x :: xs →
    (freeSlotsOf s c).head? = some k → noReinstate s c = false →
    ∃ t, exec (.reinstatement c) s = .next t ∧ Replaced x (t.slot c k) ∧ (t.core c).waiting = xs) ∧
  (∀ (s : State) (f : Flit), s.flits = [f] → (∀ e ∈ s.cores, e.2.inject = []) → f.due ≤ s.clk.toNat → f.at_ < 256 →
    f.drouter < 256 →
    (Config.freeNat s.free % 2 = 0 →
      (f.at_ = f.drouter → ∀ m, f.payload = .reg m →
        (isGateway f.dcore = true ∨ s.ownsCluster f.part (f.dcore / 16) = true → ∃ t, exec (.flitRouting f.plane) s = .next t ∧
          t.flits = [] ∧ t.agenda = s.agenda ++ [.registerMessage m] ∧ t.cores = s.cores) ∧
        (isGateway f.dcore = false → s.ownsCluster f.part (f.dcore / 16) = false → f.kind ≠ 0x06 → m.notice = false →
          let u := { s with flits := [], free := s.free + 1 }
          let x := s.slot m.srcCore m.srcSlot
          let there : Prop := BitVec.ofNat 64 (threadId x.thread) = m.tid ∧ (x.st = .running ∨ ∃ r, x.st = .parked r)
          (there → exec (.flitRouting f.plane) s = .next { trapHere { u with cur := (m.srcCore, m.srcSlot) } { code := 5, dk := 3, detail := (BitVec.ofNat 64 (s.loc m.core m.slot)).toNat % 2 ^ 48 } with cur := s.cur }) ∧
          (¬ there → exec (.flitRouting f.plane) s = .next u))) ∧
      (f.at_ ≠ f.drouter → ∃ t q, exec (.flitRouting f.plane) s = .next t ∧
        meshDistance q f.drouter + 1 = meshDistance f.at_ f.drouter ∧
        t.flits = [{ f with at_ := q, due := s.clk.toNat + hop f.at_ q }] ∧ t.agenda = s.agenda)) ∧
    (Config.freeNat s.free % 2 = 1 → ∀ m, f.payload = .reg m → m.notice = false → f.at_ ≠ routerOf m.core →
      ∃ t, exec (.flitRouting f.plane) s = .next t ∧ t.flits = [] ∧ t.agenda = s.agenda ∧ Refused s t m 0x04)) ∧
  (∀ (r : XferReq) (s : State), let x := s.core (16 * r.dest)
    let y := s.slot r.srcCore r.srcSlot
    let held (k : Nat) : Reasm := { srcCore := r.srcCore, srcSlot := r.srcSlot, slot := k, nfl := 0, chunks := [], gang := gangId y, own := if y.thread.gang = 2 ^ 32 then some y.thread else none }
    (∀ d k, x.requests = [] → freePoolSlot s r.dest = some (d, k) → ∃ t, exec (.migrationRequest r) s = .next t ∧
      (t.core d).reasm = (s.core d).reasm ++ [held k] ∧
      ∃ f ∈ (t.core d).inject, f.payload = .grant r d k) ∧
    (x.requests ≠ [] ∨ freePoolSlot s r.dest = none → x.requests.length < 16 → ∃ t, exec (.migrationRequest r) s = .next t ∧
      (t.core (16 * r.dest)).requests = x.requests ++ [r]) ∧
    (16 ≤ x.requests.length → ∃ t, exec (.migrationRequest r) s = .next t ∧ t.agenda = s.agenda ∧
      (t.core r.srcCore).repeats = (s.core r.srcCore).repeats ++ [(r, s.clk.toNat + 256)])) ∧
  (∀ (r : XferReq) (s : State),
    ((s.slot r.srcCore r.srcSlot).asked = true → ∃ t, exec (.requestRepeat r) s = .next t ∧
      ∃ f ∈ (t.core r.srcCore).inject, f.payload = .request r) ∧
    ((s.slot r.srcCore r.srcSlot).asked = false → exec (.requestRepeat r) s = .next s)) ∧
  (∀ (r : XferReq) (d k : Nat) (s : State), let x := s.slot r.srcCore r.srcSlot
    let waits : Prop := x.asked = true ∧ x.st = .parked .grant ∧ x.granted = none
    let kept := (s.core d).reasm.find? (fun q => q.slot == k && q.srcCore == r.srcCore && q.srcSlot == r.srcSlot)
    (∀ q, kept = some q →
      (waits → q.gang = gangId x → ∃ t, exec (.grant r d k) s = .next t ∧
        t.slot r.srcCore r.srcSlot = { x with granted := some (d, k) }) ∧
      (¬ (waits ∧ q.gang = gangId x) → ∃ t, exec (.grant r d k) s = .next t ∧
        (t.core d).reasm = (s.core d).reasm.filter (fun q => q.slot != k))) ∧
    (kept = none →
      (waits → ∃ t, exec (.grant r d k) s = .next t ∧ t.slot r.srcCore r.srcSlot = { x with asked := false }) ∧
      (¬ waits → exec (.grant r d k) s = .next s))) ∧
  (∀ (s : State) (c k : Nat) (q : Reasm), let bs := q.chunks.flatMap (·.2)
    (s.core c).reasm.find? (fun q => q.slot == k && q.nfl != 0 && q.chunks.length == q.nfl) = some q →
    (q.denied = false → ∃ t, exec (.migrationContext c k) s = .next t ∧ (∀ e ∈ (t.core c).reasm, e.slot ≠ k) ∧
      (t.slot c k).st = .running ∧ (t.slot c k).idx = 1 ∧ (t.slot c k).entering = true ∧ (t.slot c k).hdr.toNat = field bs 0 8 ∧
      (t.slot c k).tvec.toNat = field bs 8 8 ∧ (q.own = none → (t.slot c k).thread.gang = field bs 16 4) ∧
      (∀ thr, q.own = some thr → (t.slot c k).thread = { thr with rect := false }) ∧
      ∀ i < 8, ((t.slot c k).fmtReg i).toNat = field bs (32 + 4 * i) 4) ∧
    (∀ j, let d := q.srcCore
      q.denied = true → d ≠ c → (s.core d).isSealed = false → noReinstate s d = false → (s.core d).waiting = [] →
      (freeSlotsOf s d).head? = some j → field bs 8 8 = 0 →
      ∃ t, exec (.migrationContext c k) s = .next t ∧ (∀ e ∈ (t.core c).reasm, e.slot ≠ k) ∧ (t.slot c k).st = (s.slot c k).st ∧
        (t.slot d j).st = .faulted ∧ (t.slot d j).tepc.toNat = field bs 0 8 ∧
        (t.slot d j).tcause.toNat = (BitVec.ofNat 64 (s.loc c k)).toNat % 2 ^ 48 * 2 ^ 16 + 3 * 2 ^ 14 + 5)) ∧
  (∀ (s : State) (c : Nat) (p : Nat × SvcBody), s.posted.find? (fun p => p.1 == c) = some p →
    ∃ t, exec (.serviceMessage c) s = .next t ∧ t.posted = s.posted.erase p ∧
      (t.core c).mail = (s.core c).mail ++ [p.2] ∧ t.mem = s.mem ∧ ∀ k, t.slot c k = s.slot c k)

/-- The scheduler places a gang and starts its threads on memory that reads zero, retires a launch at its completion
barrier, keeps the lowest cluster that fits or drops a launch whose gang finds no place, pre-empts at the end of a quantum: it
stops the gang's slots, waits, saves, and restores; a clearing drains, tests and resets one cluster; and an epoch sets the
injection rates from the deflections and writes CP lines home (R179, R219, R241, R249, R251–R257, R307). The model's choices:
which cluster a clearing takes and which cores fail (log 5), the deflections of memory traffic (log 10), the write-back of CP
lines (log 7), a pre-emption that posts itself again (log 17), the byte of the throttle table (log 25), a save that waits for a
copy into a buffer of its gang and a timeout that waits for kept clusters (log 26), the core that is told of an unplaceable launch
(log 27), the root-logic queues that a reset leaves (log 28), the step in which a gang whose last thread has left ends, and a
throttle value above 64 (log 38). -/
def Obligations.GangsAreScheduledSavedAndCleared : Prop :=
  (∀ (s : State) (n : Nat) (l : Launch) (pl : Place), s.saved = [] → s.launches = [(n, l)] → l.next < l.gangs → l.prio < 8 →
    l.waiton = 0 → l.layer = false → findPlace s (l.want n) [] = some pl →
    ∃ t g, exec .gangPlacement s = .next t ∧ t.gangs = s.gangs ++ [g] ∧ g.id = (n, l.next) ∧ g.cluster = pl.cluster ∧
      g.row = pl.row ∧ g.col = pl.col ∧ g.live = l.w * l.h * l.t ∧
      (mapFind t.launches n).map (fun l => l.next) = some (l.next + 1) ∧
      ∀ x < l.w, ∀ y < l.h, ∀ j < l.t, ∃ k, let z := t.slot (16 * pl.cluster + 4 * (pl.row + y) + (pl.col + x)) k
        z.st = .running ∧ z.hdr = l.entry ∧ z.idx = 1 ∧ z.entering = true ∧ z.thread.launch = n ∧ z.thread.gang = l.next ∧
          z.thread.index = (y * l.w + x) * l.t + j ∧ (z.nCell 0).val = l.params ∧ z.q = [] ∧
          (∀ a, pl.spd ≤ a → a < pl.spd + (l.spd + 4095) / 4096 * 4096 →
            cellGet (t.core (16 * pl.cluster + 4 * (pl.row + y) + (pl.col + x))).spd a = 0)) ∧
  (∀ (s : State) (n : Nat) (l : Launch), mapFind s.launches n = some l → l.gangs ≤ l.next → launchBusy s n = false →
    (l.done = 0 → ∃ t, exec (.launchRetirement n) s = .next t ∧ mapFind t.launches n = none ∧ t.mem = s.mem) ∧
    (∀ pa k, l.done ≠ 0 → launchBarrier s l l.done = some pa → pa % 64 = 0 → regionOf pa = .hbm k → l.err = false → Clean s →
      ∃ t, exec (.launchRetirement n) s = .next t ∧ mapFind t.launches n = none ∧ Arrived s t pa)) ∧
  (∀ (s : State) (n i : Nat) (g : Gang), s.gangs.find? (fun g => g.id == (n, i)) = some g → g.live = 0 →
    (∃ t, exec (.launchRetirement n) s = .next t ∧ ∀ h ∈ t.gangs, h.id ≠ (n, i)) ∧
    ∃ t, exec (.preemption n i) s = .next t ∧ (∀ h ∈ t.gangs, h.id ≠ (n, i)) ∧ t.saved = s.saved ∧ t.mem = s.mem) ∧
  (∀ (s : State) (n : Nat) (l : Launch),
    let fits := fun p : Nat => s.ownsCluster l.part p = true ∧ (fitOn s (l.want n) (looseGangs s p) p).isSome = true
    mapFind s.launches n = some l → l.next < l.gangs → eligible s n l = .yes → (∀ g ∈ s.saved, g.gang.id.1 ≠ n) →
    (∀ e ∈ s.clusters, e.2.reserving ≠ some (n, l.next)) →
    (s.clk.toNat ≤ l.since + s.policy.placement → exec (.placementTimeout n) s = .next s) ∧
    (s.policy.placement ≠ 0 → l.since + s.policy.placement < s.clk.toNat →
      ((∃ p < 64, fits p ∧ (s.cluster p).reserving = none) → ∃ t p, exec (.placementTimeout n) s = .next t ∧ p < 64 ∧ fits p ∧
        (∀ q < p, fits q → (s.cluster q).reserving ≠ none) ∧
        (t.cluster p).reserving = some (n, l.next) ∧ t.mem = s.mem ∧ t.gangs = s.gangs) ∧
      ((∃ p < 64, fits p) → (∀ p < 64, fits p → (s.cluster p).reserving ≠ none) → exec (.placementTimeout n) s = .next s) ∧
      ((∀ p < 64, ¬ fits p) → ∃ t, exec (.placementTimeout n) s = .next t ∧ t.mem = s.mem ∧
        (mapFind t.launches n).map (fun l => (l.next, l.err)) = some (l.gangs, true) ∧
        (defaultReceiver s 0, SvcBody.launch (n % 2 ^ 16) "UNPLACEABLE") ∈ t.posted))) ∧
  (∀ (s : State) (n i : Nat) (g : Gang), s.gangs.find? (fun g => g.id == (n, i)) = some g →
    (g.resident = true → exec (.quantumExpiry n i) s = .next s) ∧
    (g.resident = false → (∀ h ∈ s.gangs, h.resident = false → h.prio = g.prio → g.order ≤ h.order) →
      someoneWaits s g.prio = true → ∃ t, exec (.quantumExpiry n i) s = .next t ∧ Instr.preemption n i ∈ t.agenda ∧
        t.cores = s.cores) ∧
    (g.live ≠ 0 → g.stopping = false →
      (copiesFill s g = true → exec (.preemption n i) s = .next { s with agenda := s.agenda ++ [.preemption n i] }) ∧
      (copiesFill s g = false → exec (.preemption n i) s = .next { s with
        agenda := s.agenda ++ [.preemption n i]
        gangs := s.gangs.map (fun g => if g.id == (n, i) then { g with stopping := true } else g) })) ∧
    (g.live ≠ 0 → g.stopping = true → gangInFlight s g = true ∨ slotsHold s g.id = true ∨ copiesHold s g = true →
      exec (.preemption n i) s = .next { s with agenda := s.agenda ++ [.preemption n i] }) ∧
    (g.live ≠ 0 → g.stopping = true → gangInFlight s g = false → slotsHold s g.id = false → copiesHold s g = false →
      ∃ t v, exec (.preemption n i) s = .next t ∧ t.saved = v :: s.saved ∧ v.gang = { g with stopping := false } ∧
        v.wakes = [] ∧ (∀ h ∈ t.gangs, h.id ≠ (n, i)) ∧
        ∀ c k, gangId (t.slot c k) = (n, i) → (t.slot c k).st = .empty ∨ (t.slot c k).st = .sealed)) ∧
  (∀ (s : State) (n i : Nat) (g : SavedGang) (pl : Place), s.saved.find? (fun g => g.gang.id == (n, i)) = some g →
    findRestore s g [] = some pl → g.wakes = [] →
    ∃ t h, exec (.gangRestore n i) s = .next t ∧ t.gangs = s.gangs ++ [h] ∧ h.id = (n, i) ∧ h.cluster = pl.cluster ∧
      h.row = pl.row ∧ h.col = pl.col ∧ h.since = s.clk.toNat ∧ t.saved = s.saved.filter (fun g => g.gang.id != (n, i)) ∧
      ∀ y row col, g.slots = [y] → y.place = some (row, col) → row < g.gang.h → col < g.gang.w → 1 ≤ g.gang.t →
        y.slot.thread.spill = (spillCore s g).isSome →
        ∃ k, let z := t.slot (16 * pl.cluster + 4 * (pl.row + row) + (pl.col + col)) k
          z.thread = y.slot.thread ∧ z.n = y.slot.n ∧ z.q = y.slot.q ∧ z.v = y.slot.v ∧ z.hdr = y.slot.hdr ∧
          z.idx = y.slot.idx ∧ z.entering = y.slot.entering ∧ z.status = y.slot.status ∧ z.st = y.slot.st) ∧
  (∀ (s : State), (∀ e ∈ s.clusters, e.2.clearing = false) →
    ∃ t, exec .clearing s = .next t ∧ (∃ p < 64, (t.cluster p).clearing = true ∧ (t.cluster p).since = s.clk.toNat) ∧
      t.lastClear = s.clk.toNat ∧ t.cores = s.cores) ∧
  (∀ (s : State) (p : Nat), (s.cluster p).clearing = true → (s.cluster p).testing = false →
    (gangsOn s p = [] → (∀ c ∈ s.coresOf p, (s.core c).reasm = [] ∧ (s.core c).inject = []) →
      ∃ t, exec (.drainLimitExpiry p) s = .next t ∧ (t.cluster p).testing = true ∧ t.cores = s.cores) ∧
    (gangsOn s p = [] → (∃ c ∈ s.coresOf p, (s.core c).reasm ≠ [] ∨ (s.core c).inject ≠ []) →
      exec (.drainLimitExpiry p) s = .next s) ∧
    (gangsOn s p ≠ [] → ∃ t, exec (.drainLimitExpiry p) s = .next t ∧
      (∀ i ∈ gangsOn s p, Instr.preemption i.1 i.2 ∈ t.agenda) ∧ t.cores = s.cores)) ∧
  (∀ (s : State) (p : Nat), p < 64 → (s.cluster p).testing = true → (∀ q < p, (s.cluster q).testing = false) →
    ∃ t, exec .selfTestEnd s = .next t ∧ (t.cluster p).clearing = false ∧ (t.cluster p).testing = false ∧
      (t.cluster p).tlb = [] ∧ (∀ i < 16, let x := s.core (16 * p + i)
        (x.isSealed = true → (t.core (16 * p + i)).isSealed = true) ∧
        ((t.core (16 * p + i)).isSealed = true ∨ t.core (16 * p + i) = { Core.reset with rdq := x.rdq, rqq := x.rqq })) ∧
      (t.die (p / 16)).clearings = ((s.die (p / 16)).clearings + 1) % 256) ∧
  (∀ (s : State), ∃ t, exec .epochBoundary s = .next t ∧ (∀ c, ∀ l ∈ (t.core c).l1, l.cls = 2 → l.dirty = 0) ∧
    ∀ p < 64, let defl := min 0xFFFF ((s.cluster p).defl + Config.freeNat (s.free + p))
    let i := min 255 (defl / 16) / 16
    let d := s.die (p / 16)
    let entry := if i < 8 then d.thrLow.toNat / 256 ^ i % 256 else d.thrHigh.toNat / 256 ^ (i - 8) % 256
    (t.cluster p).lastDefl = defl ∧ (t.cluster p).defl = 0 ∧ (t.cluster p).rate = min 64 (max 4 entry))

namespace Sys2Proof.Rules

/-- A space by its code (R43). -/
def spaceCode : Nat → Space
  | 0 => .glb
  | 1 => .spd
  | 2 => .cls
  | _ => .chp

/-- The buffer that flags name as the destination (R195). -/
def bufferOf (flags : Nat) : Option Nat := if flags / 16 % 2 = 1 then some (flags / 32 % 8) else none

/-- Row i of a descriptor (R195). -/
def rowOf (d : List Byte) (i : Nat) : CopyRow :=
  let f := field d 40 4
  { src := BitVec.ofNat 64 (field d 0 8 + i * field d 24 8), dst := BitVec.ofNat 64 (field d 8 8 + i * field d 32 8),
    len := field d 16 4, ssp := spaceCode (f % 4), dsp := spaceCode (f / 4 % 4), cb := bufferOf f }

/-- A list entry (R195). -/
def entryOf (d : List Byte) : CopyRow :=
  let f := field d 20 4
  { src := BitVec.ofNat 64 (field d 0 8), dst := BitVec.ofNat 64 (field d 8 8), len := field d 16 4,
    ssp := spaceCode (f % 4), dsp := spaceCode (f / 4 % 4), cb := bufferOf f }

/-- The reserved fields of a descriptor, and of a list entry, are zero (R195; for bytes 24–31 of an entry log 38). -/
def descClean (d : List Byte) : Prop := field d 40 4 < 2 ^ 8 ∧ field d 44 20 = 0
def entryClean (d : List Byte) : Prop := field d 20 4 < 2 ^ 8 ∧ field d 24 8 = 0

/-- The part of a range of len bytes that byte d lies in, which is looked up as one — in .GLB what lies in one page, in .CLS in
one 4 KiB, elsewhere the whole (R160, R249): where it begins in the range, and its length. -/
def partOf (sp : Space) (a : W64) (len d : Nat) : Nat × Nat :=
  let cut (g : Nat) : Nat × Nat := let lo := d - min d ((a.toNat + d) % g); (lo, min (len - lo) (g - (a.toNat + lo) % g))
  match sp with
  | .glb => cut (2 ^ 16)
  | .cls => cut (2 ^ 12)
  | _ => (0, len)

/-- Where a copy engine finds byte d of a range, or how its access fails. -/
def engineAt (z : State) (c : Nat) (thr : Thread) (sp : Space) (need : Need) (a : W64) (len d : Nat) : Except Fail Loc :=
  let p := partOf sp a len d
  match resolve z c thr sp need false (a + BitVec.ofNat 64 p.1) p.2 with
  | .ok l => .ok (l.plus (d - p.1))
  | .error f => .error f

/-- The first part of a range that the engine does not reach fails so. -/
def FirstFails (z : State) (c : Nat) (thr : Thread) (sp : Space) (need : Need) (a : W64) (len : Nat) (f : Fail) : Prop :=
  ∃ d < len, engineAt z c thr sp need a len d = .error f ∧
    ∀ e < (partOf sp a len d).1, ∃ l, engineAt z c thr sp need a len e = .ok l

/-- What a failing access makes of an operation: a check failure, or a fault that it waits for (R196, R198). -/
def failsAs : Fail → CopyCheck
  | .trap _ => .err
  | .page va flags => .fault va flags

/-- Where a row goes: its destination, or the next slot of its buffer (R195, R196). -/
def rowTo (s : State) (c : Nat) (r : CopyRow) : Space × W64 :=
  match r.cb with
  | none => (r.dsp, r.dst)
  | some k =>
    let b := (s.core c).cbuf k
    (match b.sp with
      | .spd => .spd
      | .cls => .cls, BitVec.ofNat 64 (b.base + b.rsv * b.size))

/-- One addition of R310, where an unused input is skipped. -/
def addUsed (f : Fmt) (a b : Option Nat) : Option Nat :=
  match a, b with
  | some x, some y => some (fp2 .add f .rne false x y)
  | some x, none => some x
  | none, y => y

/-- The tree of R310 over the inputs b0 to b7. -/
def sumUsed (f : Fmt) (x : Nat → Option Nat) : Option Nat :=
  addUsed f (addUsed f (addUsed f (x 0) (x 1)) (addUsed f (x 2) (x 3))) (addUsed f (addUsed f (x 4) (x 5)) (addUsed f (x 6) (x 7)))

/-- The layout of an RDX's elements. -/
def rdxLayout : RdxTy → Fmt
  | .f32 => fmt32
  | .bf16 => fmtBf

/-- Where element j of captured pieces stands. -/
def elementAt (ty : RdxTy) (ps : List Piece) (j : Nat) : Option Nat := ((bytesOf ps)[rdxWidth ty * j]?).map (·.1)

/-- n bytes and m bytes do not overlap. -/
def Off (a n b m : Nat) : Prop := a + n ≤ b ∨ b + m ≤ a

/-- What an RDX reads and writes lies in HBM4E; its destination lies on no poisoned line, and off its sources, its barrier and
itself (R310). -/
structure Reducible (s : State) (ty : RdxTy) (srcs : Map (List Piece)) (dst : List Piece) (n bar : Nat) : Prop where
  /-- some buffer is used, and none but b0 to b7 -/
  used : srcs ≠ [] ∧ ∀ e ∈ srcs, e.1 < 8 ∧ mapFind srcs e.1 = some e.2
  /-- every element of a source has its place -/
  sources : ∀ e ∈ srcs, ∀ j < n, ∃ pa k, elementAt ty e.2 j = some pa ∧ regionOf pa = .hbm k
  /-- and every element of the destination -/
  target : ∀ j < n, ∃ pd k, elementAt ty dst j = some pd ∧ regionOf pd = .hbm k ∧ s.poisoned pd = false ∧
    Off pd (rdxWidth ty) bar 64 ∧ (∀ i < j, ∀ q, elementAt ty dst i = some q → Off q (rdxWidth ty) pd (rdxWidth ty)) ∧
    ∀ e ∈ srcs, ∀ i < n, ∀ q, elementAt ty e.2 i = some q → Off q (rdxWidth ty) pd (rdxWidth ty)

/-- Two words of memory do not overlap. -/
def Apart (l m : Loc) : Prop :=
  (∀ c o c' o', l = .spd c o → m = .spd c' o' → c ≠ c' ∨ o + 4 ≤ o' ∨ o' + 4 ≤ o) ∧
  (∀ d o d' o', l = .chip d o → m = .chip d' o' → d ≠ d' ∨ o + 4 ≤ o' ∨ o' + 4 ≤ o) ∧
  (∀ p a q b, l = .mem p a → m = .mem q b → p + 4 ≤ q ∨ q + 4 ≤ p)

/-- The translations of a range in .GLB stand in the TLB. -/
def InTlb (s : State) (c : Nat) (thr : Thread) (sp : Space) (a : W64) (n : Nat) : Prop :=
  sp = .glb → ∀ p ∈ rangePieces .glb a n, tlbFind s c thr.part thr.asid p.1.toNat ≠ none

/-- The first n rows or entries of an operation pass their checks, and their words, read at `src` and written at `dst`, lie in
HBM4E, scratchpads and chip scratchpads and apart from one another: none is written that is read, or that the barrier holds
(R196). -/
structure Copyable (s : State) (c : Nat) (thr : Thread) (g : Option Gang) (bar n : Nat) (row : Nat → CopyRow)
    (src dst : Nat → Nat → Loc) : Prop where
  /-- the checks pass at these places -/
  checked : ∀ i < n, ∃ ss ds, rowCheck s c thr g (row i) = .ok ss ds ∧ ∀ w, 4 * w < (row i).len →
    locAt ss (4 * w) = some (src i w) ∧ locAt ds (4 * w) = some (dst i w)
  /-- no walk is due -/
  cached : ∀ i < n, InTlb s c thr (row i).ssp (row i).src (row i).len ∧
    ((row i).cb = none → InTlb s c thr (row i).dsp (row i).dst (row i).len)
  /-- memory is HBM4E -/
  plain : ∀ i w, i < n → 4 * w < (row i).len → ∀ pa leaf, src i w = .mem pa leaf ∨ dst i w = .mem pa leaf →
    ∃ k, regionOf pa = .hbm k
  /-- no word overlaps one that is written -/
  apart : ∀ i w j v, i < n → j < n → 4 * w < (row i).len → 4 * v < (row j).len →
    Apart (src i w) (dst j v) ∧ ((i, w) ≠ (j, v) → Apart (dst i w) (dst j v))
  /-- nor the barrier -/
  barrier : ∀ i w pa leaf, i < n → 4 * w < (row i).len → dst i w = .mem pa leaf → pa + 4 ≤ bar ∨ bar + 64 ≤ pa

/-- Every word of the first n rows has come to its place, and no other byte has changed, but for those of the barrier. -/
def WordsCopied (s t : State) (bar n : Nat) (row : Nat → CopyRow) (src dst : Nat → Nat → Loc) : Prop :=
  let to_ (l : Loc) : Prop := ∃ i w, i < n ∧ 4 * w < (row i).len ∧ dst i w = l
  (∀ i w, i < n → 4 * w < (row i).len → written t (dst i w) 4 = written s (src i w) 4) ∧
  (∀ a, a < bar + 4 ∨ bar + 26 ≤ a → (∀ pa leaf, to_ (.mem pa leaf) → a < pa ∨ pa + 4 ≤ a) →
    cellGet t.mem a = cellGet s.mem a) ∧
  (∀ c a, (∀ o, to_ (.spd c o) → a < o ∨ o + 4 ≤ a) → cellGet (t.core c).spd a = cellGet (s.core c).spd a) ∧
  (∀ d a, (∀ o, to_ (.chip d o) → a < o ∨ o + 4 ≤ a) → cellGet (t.die d).chip a = cellGet (s.die d).chip a)

/-- A queue's head may be performed, and memory holds no error. -/
structure Begins (s : State) (p q : Nat) (thr : Thread) (bar : Nat) (item : CopyItem) (rest : List CopyItem) : Prop where
  /-- the operation stands at the head of its queue -/
  head : ((s.cluster p).queue q).items = item :: rest
  /-- no fault of it is open -/
  sound : ((s.cluster p).queue q).faulted = false
  /-- its gang is not being saved -/
  goes : s.stopped thr = false
  /-- its barrier lies in HBM4E -/
  bar : bar % 64 = 0 ∧ ∃ m, regionOf bar = .hbm m
  /-- every byte stands at home, without an error -/
  home : Clean s ∧ s.poison = [] ∧ Flawless s

/-- A copy queue whose head has arrived. -/
def headDone (y : CopyQueue) (rest : List CopyItem) : CopyQueue :=
  { y with items := rest, done := y.done + 1, faulted := false, bufwait := false }

/-- The BF16 values, and the format, of a requantised page (R71, R312). -/
def pageNarrow : Narrow := { width := 4, mb := 1, eb := 2, sign := true, sub := true, sat := true, scale := 1, bias := 1 }
def pageValue (s : State) (old k e : Nat) : Machine.Num := unpack fmtBf false (num s.mem (old + 2 * (32 * k + e)) 2)

/-- An object that a reclaim pass may destroy, and one that comes before another in its order (R323). -/
def reclaimable (e : Entry) : Prop := e.state = 1 ∧ e.strong = 0
def sooner (s : State) (p : Partition) (i j : Nat) : Prop :=
  (entryAt s p i).prio < (entryAt s p j).prio ∨ ((entryAt s p i).prio = (entryAt s p j).prio ∧ i < j)

/-- An entry after its object's destruction (R324). -/
def destroyed (e : Entry) : Entry :=
  { e with strong := 0, gen := (e.gen + 1) % 2 ^ 27, state := if e.gen + 1 = 2 ^ 27 then 2 else 0 }

end Sys2Proof.Rules

/-- A copy engine checks every row of a CPY and copies their words, from and to HBM4E, scratchpads and chip scratchpads, or into
the next slot of a buffer, which it publishes and for which it waits; a CPYL is checked and copied entry by entry; it arrives,
with an error where a check fails, waits where an access faults, and takes the next operation. Root logic adds the elements of the
used buffers of an RDX in the tree of R310, leaves those of a poisoned source as they were, and requantises the page of an RQZ
entry, code by code and scale by scale, where its objects pass the checks of R314. A reclaim pass destroys objects of rising
priority, then rising index, that no strong handle names and whose entry is not poisoned, until the high watermark is reached and
no longer (R195, R196, R198, R201, R241, R298, R310, R312, R314, R323, R324; log 38 for the reserved bytes 24–31 of a list entry,
and for a fault of a row's source that comes before a failed check of its destination). -/
def Obligations.EnginesAndReclaimPerformTheirWork : Prop :=
  (∀ (s : State) (c : Nat) (thr : Thread) (g : Option Gang) (r : CopyRow), let z := withGang s g
    let aligned : Prop := r.src.toNat % 4 = 0 ∧ r.len % 4 = 0 ∧ (r.cb = none → r.dst.toNat % 4 = 0)
    let fits : Prop := ∀ k, r.cb = some k →
      ((s.core c).cbuf k).owner = some (thr.launch, thr.gang) ∧ r.len ≤ ((s.core c).cbuf k).size
    let full : Prop := ∃ k, r.cb = some k ∧ ((s.core c).cbuf k).free = 0
    let to_ := rowTo s c r
    let src := engineAt z c thr r.ssp needLoad r.src r.len
    let dst := engineAt z c thr to_.1 needStore to_.2 r.len
    (¬ (aligned ∧ fits) → rowCheck s c thr g r = .err) ∧
    (aligned → fits →
      (∀ f, FirstFails z c thr r.ssp needLoad r.src r.len f → rowCheck s c thr g r = failsAs f) ∧
      ((∀ d < r.len, ∃ l, src d = .ok l) → full → rowCheck s c thr g r = .full) ∧
      (∀ f, (∀ d < r.len, ∃ l, src d = .ok l) → ¬ full → FirstFails z c thr to_.1 needStore to_.2 r.len f →
        rowCheck s c thr g r = failsAs f) ∧
      ((∀ d < r.len, (∃ l, src d = .ok l) ∧ ∃ m, dst d = .ok m) → ¬ full →
        ∃ ss ds, rowCheck s c thr g r = .ok ss ds ∧ ∀ d < r.len, ∀ l m, src d = .ok l → dst d = .ok m →
          locAt ss d = some l ∧ locAt ds d = some m))) ∧
  (∀ (s : State) (p q : Nat) (desc : W64) (bar c k : Nat) (thr : Thread) (d : List Byte) (g : Option Gang)
      (rest : List CopyItem), let y := (s.cluster p).queue q
    let rows := field d 20 4
    let ends (i : Nat) (f : CopyCheck) : Prop := i < rows ∧ rowCheck s c thr g (rowOf d i) = f ∧
      ∀ j < i, ∃ ss ds, rowCheck s c thr g (rowOf d j) = .ok ss ds
    Begins s p q thr bar (.op false desc bar 0 c k thr 0 none g) rest → engineRecord s c thr desc 64 = .ok (d, false) →
    descClean d →
    (∀ src dst, bufferOf (field d 40 4) = none → Copyable s c thr g bar rows (rowOf d) src dst →
      ∃ t, exec (.copyOperation p q) s = .next t ∧ WordsCopied s t bar rows (rowOf d) src dst ∧
        (t.cluster p).queue q = headDone y rest ∧ ArrivedAt s t bar) ∧
    (∀ src dst b, bufferOf (field d 40 4) = some b → rows = 1 → Copyable s c thr g bar 1 (rowOf d) src dst →
      let x := (s.core c).cbuf b
      ∃ t, exec (.copyOperation p q) s = .next t ∧ WordsCopied s t bar 1 (rowOf d) src dst ∧
        (t.cluster p).queue q = headDone y rest ∧ ArrivedAt s t bar ∧
        (x.sp = .spd → x.base + x.rsv * x.size < 2 ^ 64 → ∀ w, 4 * w < field d 16 4 →
          dst 0 w = .spd c (x.base + x.rsv * x.size + 4 * w)) ∧
        plainBuf ((t.core c).cbuf b) = plainBuf { x with
          free := x.free - 1, rsv := (x.rsv + 1) % x.count, filled := x.filled + 1, pub := (x.pub + 1) % x.count }) ∧
    (rows = 1 → rowCheck s c thr g (rowOf d 0) = .full → ∃ t, exec (.copyOperation p q) s = .next t ∧
      (t.cluster p).queue q = { y with items := .op false desc bar 0 c k thr 0 (some d) g :: rest, bufwait := true } ∧
      Instr.copyOperation p q ∈ t.agenda ∧ t.cores = s.cores ∧ t.mem = s.mem) ∧
    (∀ i, ends i .err → ∃ t, exec (.copyOperation p q) s = .next t ∧ num t.mem (bar + 8) 4 / 2 ^ 31 = 1 ∧
      (t.cluster p).queue q = headDone y rest ∧ (∀ a, a < bar + 4 ∨ bar + 26 ≤ a → cellGet t.mem a = cellGet s.mem a) ∧
      (∀ x, (t.core x).spd = (s.core x).spd) ∧ ∀ l, mapFind t.launches thr.launch = some l → l.err = true) ∧
    (∀ i va flags, isGateway c = false → ends i (.fault va flags) → ∃ t fl, exec (.copyOperation p q) s = .next t ∧
      (t.cluster p).queue q = { y with
        items := .op false desc bar 0 c k thr 0 (some d) g :: rest, faulted := true, bufwait := false } ∧
      t.mem = s.mem ∧ (t.core (16 * p)).inject = (s.core (16 * p)).inject ++ [fl] ∧ fl.kind = 6 ∧
      fl.payload = .svc (.fault va (BitVec.ofNat 64
        (thr.launch % 2 ^ 16 * 2 ^ 40 + thr.gang % 2 ^ 32 * 2 ^ 8 + 0xFF)) (p * 1024) 0x07 flags q 0))) ∧
  (∀ (s : State) (p q : Nat) (desc : W64) (bar c k n n' : Nat) (thr : Thread) (e : Nat → List Byte) (g : Option Gang)
      (rest : List CopyItem) (src dst : Nat → Nat → Loc), let y := (s.cluster p).queue q
    let row (i : Nat) : CopyRow := entryOf (e i)
    Begins s p q thr bar (.op true desc bar n c k thr 0 none g) rest → n' ≤ n →
    (∀ i < n', engineRecord s c thr (desc + 32 * BitVec.ofNat 64 i) 32 = .ok (e i, false) ∧ entryClean (e i) ∧
      (row i).cb = none) → Copyable s c thr g bar n' row src dst →
    (n' = n → ∃ t, exec (.copyOperation p q) s = .next t ∧ WordsCopied s t bar n row src dst ∧
      (t.cluster p).queue q = headDone y rest ∧ ArrivedAt s t bar) ∧
    (n' < n → engineRecord s c thr (desc + 32 * BitVec.ofNat 64 n') 32 = .ok (e n', false) →
      ¬ entryClean (e n') ∨ (row n').src.toNat % 4 ≠ 0 ∨ (row n').len % 4 ≠ 0 →
      ∃ t, exec (.copyOperation p q) s = .next t ∧ WordsCopied s t bar n' row src dst ∧
        num t.mem (bar + 8) 4 / 2 ^ 31 = 1 ∧ (t.cluster p).queue q = headDone y rest)) ∧
  (∀ (s : State) (p q : Nat) (desc : W64) (bar c k m row : Nat) (thr : Thread) (e : Trap) (g : Option Gang)
      (rest : List CopyItem), let y := (s.cluster p).queue q
    y.items = .op false desc bar 0 c k thr row none g :: rest → y.faulted = false → s.stopped thr = false →
    engineRecord s c thr desc 64 = .error (.trap e) → bar % 64 = 0 → regionOf bar = .hbm m → Clean s →
    ∃ t, exec (.copyOperation p q) s = .next t ∧ num t.mem (bar + 8) 4 / 2 ^ 31 = 1 ∧
      ((t.cluster p).queue q).items = rest ∧ ∀ l, mapFind t.launches thr.launch = some l → l.err = true) ∧
  (∀ (s : State) (c bar m : Nat) (ty : RdxTy) (srcs : Map (List Piece)) (dst : List Piece) (n : Nat) (thr : Thread)
      (rest : List RootItem), bar % 64 = 0 → regionOf bar = .hbm m → Clean s →
    ((s.core c).rdq = .rdx ty srcs dst n true bar thr :: rest →
      ∃ t, exec (.rdxOperation c) s = .next t ∧ (t.core c).rdq = rest ∧ num t.mem (bar + 8) 4 / 2 ^ 31 = 1 ∧
        ∀ a, a < bar + 4 ∨ bar + 26 ≤ a → cellGet t.mem a = cellGet s.mem a) ∧
    ((s.core c).rdq = .rdx ty srcs dst n false bar thr :: rest → Reducible s ty srcs dst n bar →
      let w := rdxWidth ty
      let bad (j : Nat) : Prop := ∃ e ∈ srcs, ∃ pa, elementAt ty e.2 j = some pa ∧ s.poisoned pa = true
      let x (j i : Nat) : Option Nat := (mapFind srcs i).bind (fun ps => (elementAt ty ps j).map (fun pa => num s.mem pa w))
      ∃ t, exec (.rdxOperation c) s = .next t ∧ (t.core c).rdq = rest ∧
        (∀ j < n, ∀ pd, elementAt ty dst j = some pd →
          (bad j → num t.mem pd w = num s.mem pd w) ∧ (¬ bad j → sumUsed (rdxLayout ty) (x j) = some (num t.mem pd w))) ∧
        ((∀ j < n, ¬ bad j) → ArrivedAt s t bar) ∧ ((∃ j < n, bad j) → num t.mem (bar + 8) 4 / 2 ^ 31 = 1) ∧
        ∀ a, a < bar + 4 ∨ bar + 26 ≤ a → (∀ j < n, ∀ pd, elementAt ty dst j = some pd → a < pd ∨ pd + w ≤ a) →
          cellGet t.mem a = cellGet s.mem a)) ∧
  (∀ (s : State) (c bar m pa len m' : Nat) (hc : Bool) (handle : W64) (thr : Thread) (rest : List RootItem),
    let p := s.part thr.part
    let old := BitVec.ofNat 64 (num s.mem pa 8)
    let dblk := num s.mem (pa + 10) 1
    let nd := num s.mem (pa + 9) 1 * (32 * dblk)
    let s0 := 64 * ((nd + 127) / 128)
    let fit (i j : Nat) (e f : Entry) : Prop := hStrong old = true ∧ liveObject s thr.part old = some (i, e) ∧
      liveObject s thr.part handle = some (j, f) ∧ i ≠ j ∧ num s.mem (pa + 9) 1 ≠ 0 ∧ 1 ≤ dblk ∧ dblk ≤ 16 ∧ 2 * nd ≤ e.size ∧
      s0 + nd / 32 ≤ f.size
    (s.core c).rqq = .rqz (pa, len, hc) handle bar thr :: rest → bar % 64 = 0 → regionOf bar = .hbm m → pa % 16 = 0 →
    regionOf pa = .hbm m' → Clean s → s.poison = [] → pa + 16 ≤ bar ∨ bar + 64 ≤ pa →
    (num s.mem (pa + 8) 1 ≠ 0 → ∃ t, exec (.rqzOperation c) s = .next t ∧ (t.core c).rqq = rest ∧
      num t.mem (bar + 8) 4 / 2 ^ 31 = 1 ∧ ∀ a, a < bar + 4 ∨ bar + 26 ≤ a → cellGet t.mem a = cellGet s.mem a) ∧
    (num s.mem (pa + 8) 1 = 0 → Off p.table (32 * p.capacity) pa 16 → (∀ i j e f, ¬ fit i j e f) →
      ∃ t, exec (.rqzOperation c) s = .next t ∧ (t.core c).rqq = rest ∧ num t.mem (bar + 8) 4 / 2 ^ 31 = 1 ∧
        num t.mem (pa + 8) 1 = 0 ∧ ∀ a, a < bar + 4 ∨ bar + 26 ≤ a → cellGet t.mem a = cellGet s.mem a) ∧
    (∀ i j e f, num s.mem (pa + 8) 1 = 0 → fit i j e f →
      let old := p.hphys + e.off
      let new := p.hphys + f.off
      Off p.table (32 * p.capacity) pa 16 → Off (p.table + 32 * i) 32 bar 64 →
      Off (p.table + 32 * i) 32 new (s0 + nd / 32) →
      Off new (s0 + nd / 32) pa 16 → Off new (s0 + nd / 32) bar 64 → Off new (s0 + nd / 32) old (2 * nd) →
      Off old (2 * nd) pa 16 → (∃ k, regionOf (p.table + 32 * i) = .hbm k) →
      (∀ a < s0 + nd / 32, ∃ k, regionOf (new + a) = .hbm k) →
      ∃ t, exec (.rqzOperation c) s = .next t ∧ (t.core c).rqq = rest ∧ num t.mem pa 8 = handle.toNat ∧
        num t.mem (pa + 8) 1 = 1 ∧ ArrivedAt s t bar ∧ entryAt t p i = { e with strong := e.strong - 1, prio := 0 } ∧
        ∀ k < nd / 32,
          let scale := scaleChoose pageNarrow false (blockMax (2 ^ 32 - 1) (pageValue s old k) 0 32)
          num t.mem (new + s0 + k) 1 = scale ∧ ∀ j < 32,
            packed (fun b => if b < 16 then num t.mem (new + 16 * k + b) 1 else 0) 4 j =
              scaledWrite pageNarrow false .rne scale (pageValue s old k j))) ∧
  (∀ (s : State) (n : Nat), let p := s.part n
    let e := entryAt s p
    let may (i : Nat) : Prop := reclaimable (e i) ∧ s.poisoned (p.table + 32 * i) = false
    p.pass = true → p.hnews = [] →
    (p.high ≤ freeBytes s p → ∃ t, exec (.reclaimPass n) s = .next t ∧ t.part n = { p with pass := false, hnews := [] } ∧
      t.mem = s.mem) ∧
    ((∀ i < p.capacity, ∃ k, regionOf (p.table + 32 * i) = .hbm k) →
      ∃ t, exec (.reclaimPass n) s = .next t ∧ t.part n = { p with pass := false, hnews := [] } ∧
        let gone (i : Nat) : Prop := entryAt t p i ≠ e i
        (∀ i < p.capacity, gone i → may i ∧ entryAt t p i = destroyed (e i)) ∧
        (∀ i < p.capacity, ∀ j < p.capacity, may i → sooner s p i j → gone j → gone i) ∧
        (p.high ≤ freeBytes t p ∨ ∀ i < p.capacity, may i → gone i) ∧
        (∀ j < p.capacity, gone j → (∀ i < p.capacity, gone i → i = j ∨ sooner s p i j) →
          p.hsize - (usedBytes t p + granules (e j).size) < p.high) ∧
        ∀ a, a < p.table ∨ p.table + 32 * p.capacity ≤ a → cellGet t.mem a = cellGet s.mem a))

namespace Sys2Proof.Rules

/-- A root-logic operation has no byte of its barrier, of what it captured or, for an RQZ, of its partition's heap among n bytes. -/
def offItem (s : State) (lo n : Nat) : RootItem → Prop
  | .marker _ => True
  | .rdx _ srcs dst _ _ bar _ =>
    Off bar 64 lo n ∧ (∀ e ∈ srcs, ∀ q ∈ e.2, Off q.1 q.2.1 lo n) ∧ ∀ q ∈ dst, Off q.1 q.2.1 lo n
  | .rqz entry _ bar t => Off bar 64 lo n ∧ Off entry.1 entry.2.1 lo n ∧ Off (s.part t.part).hphys (s.part t.part).hsize lo n

/-- Nothing has to be waited for on n bytes: no reservation there is held, no root-logic operation touches them, and no copy queue
holds an operation (R237, R303, R307). -/
def Quiet (s : State) (lo n : Nat) : Prop :=
  (∀ e ∈ s.res, e.held = none ∨ Off (e.line * 64) 1 lo n) ∧
  (∀ e ∈ s.cores, ∀ i, i ∈ e.2.rdq ∨ i ∈ e.2.rqq → offItem s lo n i) ∧
  ∀ e ∈ s.clusters, ∀ q ∈ e.2.queues, ∀ i ∈ q.2.items, ∃ m b, i = .marker m b

/-- Something has to be waited for: a reservation held on n bytes, a root-logic operation that touches them, or a copy whose barrier
lies there. -/
def Awaited (s : State) (lo n : Nat) : Prop :=
  (∃ e ∈ s.res, e.held ≠ none ∧ ¬ Off (e.line * 64) 1 lo n) ∨
  (∃ e ∈ s.cores, ∃ i, (i ∈ e.2.rdq ∨ i ∈ e.2.rqq) ∧ ¬ offItem s lo n i) ∨
  ∃ e ∈ s.clusters, ∃ q ∈ e.2.queues, ∃ l d bar m c k t r g b, CopyItem.op l d bar m c k t r g b ∈ q.2.items ∧ ¬ Off bar 64 lo n

/-- A port that can send and receive, and has no block left to send. -/
def PortIdle (x : Port) : Prop := x.down = false ∧ x.retrain = false ∧ x.todo = []

/-- A link flit of a kind that passes its check (R347, R348). -/
def Passes (bytes : List Byte) (k : LinkKind) : Prop := flitCrcOk bytes = true ∧ flitKind bytes = k

/-- A function that responds, and the partition it belongs to (R334, R338, R342). -/
def Attached (s : State) (func p : Nat) : Prop := functionPart s func = some p ∧ responds s func = true

/-- One command of a code waits at a service core, and no other does (R340). -/
structure Commanded (s : State) (c code : Nat) : Prop where
  alone : s.commands = [c]
  busy : (s.core c).svcBusy = true
  open_ : (s.core c).svcDone = false
  code : (s.core c).svcCmd.toNat % 256 = code

/-- Argument i of a service core's command, as it was when the command started (R340). -/
def arg (s : State) (c i : Nat) : Nat := (mapGet 0 (s.core c).cmdArgs i).toNat

/-- The step completes the command with two results, and has an effect (R340). -/
def Completes (i : Instr) (s : State) (c : Nat) (r0 r1 : W64) (eff : State → Prop) : Prop :=
  ∃ t, exec i s = .next t ∧ (t.core c).svcRes0 = r0 ∧ (t.core c).svcRes1 = r1 ∧ (t.core c).svcDone = true ∧
    t.commands = [] ∧ eff t

/-- The result of a refused command (R340). -/
def refusedFor (reason : Nat) : W64 := BitVec.ofNat 64 (2 ^ 63 + reason * 2 ^ 56)

/-- Nothing but the answer. -/
def only (s : State) (t : State) : Prop := t.mem = s.mem ∧ t.parts = s.parts ∧ t.clusters = s.clusters ∧ t.asrec = s.asrec

/-- Two masks have a member in common. -/
def Share (a b : Nat) : Prop := ∃ i, a.testBit i = true ∧ b.testBit i = true

/-- Another partition owns a stack, a cluster or a virtual function of the masks (R338). -/
def OwnedByAnother (s : State) (part stackSet clusters vfs : Nat) : Prop :=
  ∃ e ∈ s.parts, e.1 ≠ part ∧ (Share e.2.stackSet stackSet ∨ Share e.2.clusters clusters ∨ Share e.2.vfs vfs)

/-- What forbids the lending of a slot (R203), on a core that takes no thread back too. -/
def LendForbidden (s : State) (d k : Nat) : Prop :=
  (s.slot d k).st ≠ .faulted ∨ loads (s.slot d k) ∨ (k = 15 ∧ spillMode s d = true) ∨ noReinstate s d = true

/-- Launch n with its record, the only one whose serial is that of a slot save record in memory (R203, R255). -/
def LaunchNamed (s : State) (pa n : Nat) (l : Launch) : Prop :=
  (n, l) ∈ s.launches ∧ n % 2 ^ 16 = num s.mem (pa + 468) 2 ∧
    ∀ e ∈ s.launches, e.1 % 2 ^ 16 = num s.mem (pa + 468) 2 → e = (n, l)

/-- The RED that a REDREPLY names (R240, R341). -/
def replied (s : State) (c : Nat) (r : DefRed) : Prop :=
  arg s c 0 ≤ 79 ∧ s.reds.find? (fun r =>
    r.failed && clusterOf r.core == arg s c 0 && threadId r.thr == arg s c 1) = some r

/-- The 40 bytes of a decode window in memory (R232). -/
def windowIn (s : State) (pa : Nat) : Window :=
  { src := num s.mem pa 8, alias_ := num s.mem (pa + 8) 8, len := num s.mem (pa + 16) 8, scl := num s.mem (pa + 24) 8
    image := BitVec.ofNat 32 (num s.mem (pa + 32) 4), ctl := num s.mem (pa + 36) 1 }

/-- A line of memory lies in no byte of a range. -/
def offRange (line pa n : Nat) : Prop := (line + 1) * 64 ≤ pa ∨ pa + n ≤ line * 64

/-- What R232 asks of an enabled window i of a stack, with the three bytes after its control byte. -/
structure WindowTaken (s : State) (stack i tail : Nat) (w : Window) : Prop where
  ctl : w.ctl % 8 < 6 ∧ w.ctl / 8 % 4 ≠ 3 ∧ w.ctl / 64 = 0 ∧ tail = 0
  pages : w.src % 4096 = 0 ∧ w.alias_ % 4096 = 0 ∧ w.len % 4096 = 0 ∧ w.alias_ / 2 ^ 50 % 4 = 1
  image : 4 ≤ w.ctl % 8 → imageValid w.image = true ∧ (narrowOf w.image).width ∈ [2, 4, 8] ∧
    ((narrowOf w.image).scale = 0 ↔ w.ctl % 8 = 4)
  source : stack * 2 ^ 36 ≤ w.src ∧ w.src + w.len ≤ (stack + 1) * 2 ^ 36
  scales : windowScales w ≠ 0 → stack * 2 ^ 36 ≤ w.scl ∧ w.scl + windowScales w ≤ (stack + 1) * 2 ^ 36
  apart : ∀ e ∈ s.windows, e.1 ≠ 8 * stack + i → e.2.len ≠ 0 →
    w.alias_ + windowSpan w ≤ e.2.alias_ ∨ e.2.alias_ + windowSpan e.2 ≤ w.alias_

end Sys2Proof.Rules

/-- A collective sends, stages and enqueues its blocks, complete or at its timeout; a port acknowledges flits in order, asks for
others again, repairs a lane once and goes down after that; the patrol, a class transition and a page retirement act on the lines
they name, and wait for reservations and engine operations on them; the host reaches its partition's memory and registers;
power-on measures and starts firmware or enters recovery (R237, R297, R298, R303, R305–R308, R334–R336, R342–R344, R348–R352).
That a write beyond the BAR2 window is dropped (log 4), that three blocks travel in one link flit and a block whose source is
poisoned in none (log 15), that firmware starts on slot 0 of each service core (log 16), the size of the window and the forms of
an access to BAR0 (log 34), and that root logic knows the class of a page, which the directory clause of the patrol goes by, as
lineClass does (log 38) are the model's choices. -/
def Obligations.PortsHostAndBootActAsDescribed : Prop :=
  (∀ (s : State) (p : Nat) (x : Port) (j : SendJob), p < 16 → s.ports = [(p, x)] → x.todo = [j] → x.down = false →
    x.retrain = false → x.unacked = [] → j.next < j.nblk → j.nblk ≤ j.next + 3 → 0 < j.bb →
    ((∀ b, j.next ≤ b → b < j.nblk → Unspoilt s (j.src + b * j.bb) j.bb) →
      ∃ t f, exec .collectiveBind s = .next t ∧ (t.port p).todo = [] ∧ (t.port p).unacked = [(x.txSeq, f)] ∧
        (t.port p).wire = x.wire ++ [f] ∧ flitKind f = .data ∧ flitSeq f = x.txSeq % 4096 ∧
        (t.port p).txSeq = (x.txSeq + 1) % 4096 ∧ t.mem = s.mem) ∧
    ((∀ b, j.next ≤ b → b < j.nblk → ¬ Unspoilt s (j.src + b * j.bb) j.bb) →
      ∃ t, exec .collectiveBind s = .next t ∧ t.port p = { x with todo := [] } ∧ t.mem = s.mem)) ∧
  (∀ (s : State) (k : Collective), s.coll = some k → s.gqclms = [] →
    (s.clk.toNat < k.since + s.policy.collective → exec .collectiveTimeout s = .next s) ∧
    (s.policy.collective ≠ 0 → k.since + s.policy.collective ≤ s.clk.toNat →
      ∃ t k', exec .collectiveTimeout s = .next t ∧ t.coll = some k' ∧ (∀ b < k.nblk, b ∈ k'.enq) ∧
        ∀ b < k.nblk, b ∉ k.enq → (b, k.mask b, true) ∈ k'.queue ∧ k'.anyInc = true)) ∧
  (∀ (s : State) (k : Collective) (p b m : Nat) (data : List Byte), s.coll = some k → s.gqclms = [] → p < 16 →
    k.inPorts.getLsbD p = true → b < k.nblk → (k.mask b).getLsbD p = false → b ∉ k.enq → data.length = k.bb → Clean s →
    regionOf (k.stage + (16 * b + p) * k.bb) = .hbm m →
    ((s.port p).down = true → exec (.collectiveBlockArrival p k.id b data) s = .next s) ∧
    ((s.port p).down = false → ∃ t k', exec (.collectiveBlockArrival p k.id b data) s = .next t ∧ t.coll = some k' ∧
      k'.mask b = k.mask b ||| BitVec.ofNat 16 (2 ^ p) ∧
      (k'.mask b = k.inPorts → b ∈ k'.enq ∧ (b, k.inPorts, false) ∈ k'.queue) ∧
      (k'.mask b ≠ k.inPorts → k'.enq = k.enq ∧
        ∀ i < k.bb, cellGet t.mem (k.stage + (16 * b + p) * k.bb + i) = data.getD i 0))) ∧
  (∀ (s : State) (p : Nat) (bytes : List Byte), let x := s.port p
    x.down = false →
    (Passes bytes .data → flitSeq bytes = x.rxSeq → ∃ t, exec (.dataFlit p bytes) s = .next t ∧
      (t.port p).rxSeq = (x.rxSeq + 1) % 4096 ∧ (x.retrain = false → ∃ f rest, (t.port p).wire = x.wire ++ f :: rest ∧
        flitKind f = .idle ∧ flitAck f = x.rxSeq)) ∧
    (Passes bytes .data → flitSeq bytes ≠ x.rxSeq → x.retrain = false → ∃ t f, exec (.dataFlit p bytes) s = .next t ∧
      (t.port p).wire = x.wire ++ [f] ∧ flitKind f = .replay ∧ flitSeq f = x.rxSeq % 4096 ∧ (t.port p).rxSeq = x.rxSeq) ∧
    (flitCrcOk bytes = false → exec (.dataFlit p bytes) s = .next s) ∧
    (∀ pre post f, Passes bytes .idle → x.todo = [] → x.unacked = pre ++ (flitAck bytes, f) :: post →
      (∀ e ∈ pre, e.1 ≠ flitAck bytes) → ∃ t, exec (.idleFlit p bytes) s = .next t ∧ (t.port p).unacked = post) ∧
    (∀ f, Passes bytes .replay → PortIdle x → x.unacked = [(flitSeq bytes, f)] → flitAck bytes ≠ flitSeq bytes →
      ∃ t, exec (.replayRequest p bytes) s = .next t ∧ (t.port p).wire = x.wire ++ [f] ∧
        (t.port p).replays = min (x.replays + 1) 65535) ∧
    (x.lanes = 8 → ∃ t, exec (.laneRepair p) s = .next t ∧
      t.port p = { x with lanes := 7, retrain := true, repairs := min (x.repairs + 1) 65535 }) ∧
    (x.lanes = 7 → ∃ t, exec (.laneRepair p) s = .next t ∧ (t.port p).down = true ∧ (t.port p).unacked = []) ∧
    (x.retrain = true → x.todo = [] → ∃ t, exec (.retrainComplete p true) s = .next t ∧ (t.port p).retrain = false ∧
      (t.port p).wire = x.wire ++ x.unacked.map (·.2) ∧ (t.port p).unacked = x.unacked) ∧
    (x.retrain = true → ∃ t, exec (.retrainComplete p false) s = .next t ∧ (t.port p).down = true ∧
      (t.port p).unacked = [] ∧ (t.port p).todo = [])) ∧
  (∀ (s : State) (line : Nat), let x := s.sideOf (line * 64)
    let correctable := if x.lay then 2 else 1
    let logged (t : State) (kind : Nat) : Prop := t.mem = s.mem ∧ (s.faq.length < 256 → ∃ e, t.faq = s.faq ++ [e] ∧
      e.pa = line * 64 ∧ e.kind = kind ∧ e.time = s.clk.setWidth 32)
    exec (.scrubPatrol line .clean) s = .next s ∧
    (∃ t, exec (.scrubPatrol line .uncorrectable) s = .next t ∧ line ∈ t.poison ∧ logged t 4) ∧
    (∀ n, n ≤ correctable → ∃ t, exec (.scrubPatrol line (.corrected n)) s = .next t ∧ t.poison = s.poison ∧ logged t 3) ∧
    (∀ n, correctable < n → ∃ t, exec (.scrubPatrol line (.corrected n)) s = .next t ∧ line ∈ t.poison ∧ logged t 4) ∧
    (∃ t, exec (.scrubPatrol line .directory) s = .next t ∧ t.poison = s.poison ∧ logged t 5 ∧
      (x.lay = true → t.side = s.side) ∧
      (x.lay = false → lineClass s (line * 64) = 0 → t.sideOf (line * 64) = { x with dstate := 3, dinfo := 0 }))) ∧
  (∀ (s : State) (frame : Nat) (large : Bool) (cls : BitVec 2) (tol : Bool) (tfmt : BitVec 3),
    let lines := if large then 2 ^ 23 else 2 ^ 10
    let inside (e : ResEntry) : Prop := frame * 2 ^ 10 ≤ e.line ∧ e.line < frame * 2 ^ 10 + lines
    let tolerant : Prop := tol = true ∧ cls ≠ 0
    (tolerant → 6 ≤ tfmt.toNat → exec (.classTransitionClear frame large ⟨cls, tol⟩ tfmt) s = .next s) ∧
    (¬ (tolerant ∧ 6 ≤ tfmt.toNat) → ∃ t, exec (.classTransitionClear frame large ⟨cls, tol⟩ tfmt) s = .next t ∧ t.mem = s.mem ∧
      (∀ e, e ∈ t.res ↔ e ∈ s.res ∧ ¬ (e.held = none ∧ inside e)) ∧
      (Awaited s (frame * 2 ^ 16) (64 * lines) → t.side = s.side) ∧
      (Quiet s (frame * 2 ^ 16) (64 * lines) → ∀ i < lines, let x := s.sideOf (frame * 2 ^ 16 + 64 * i)
        (tolerant → t.sideOf (frame * 2 ^ 16 + 64 * i) = { lay := true, tfmt := tfmt, dstate := 0, dinfo := 0 }) ∧
        (¬ tolerant → t.sideOf (frame * 2 ^ 16 + 64 * i) =
          { lay := false, tfmt := 0, dstate := if x.lay = true ∧ cls = 0 then 3 else 0, dinfo := 0 })))) ∧
  (∀ (s : State) (old new : Nat),
    let inside (e : ResEntry) : Prop := old * 2 ^ 10 ≤ e.line ∧ e.line < (old + 1) * 2 ^ 10
    ∃ t, exec (.pageRetirementMove old new) s = .next t ∧ (∀ e, e ∈ t.res ↔ e ∈ s.res ∧ ¬ (e.held = none ∧ inside e)) ∧
      (Awaited s (old * 2 ^ 16) (2 ^ 16) → t.mem = s.mem ∧ t.boot = s.boot) ∧
      (Quiet s (old * 2 ^ 16) (2 ^ 16) → s.memWf = true → old ≠ new → s.boot.badList.length < 16384 →
        t.boot.badList = s.boot.badList ++ [old] ∧ t.boot.badListSigned = true ∧
        ∀ i < 2 ^ 16, cellGet t.mem (new * 2 ^ 16 + i) = cellGet s.mem (old * 2 ^ 16 + i))) ∧
  (∀ (s : State) (func p : Nat), Attached s func p →
    (∀ tail, ∃ t, exec (.doorbell func tail) s = .next t ∧
      t.posted = s.posted ++ [(hostReceiver s p, .doorbell func tail)] ∧ t.mem = s.mem) ∧
    (∀ addr, ∃ t, exec (.attest func addr) s = .next t ∧ (t.fn func).attest = addr &&& 0xFFFFFFFFFFFFE000 ∧
      t.posted = s.posted ++ [(hostReceiver s p, .attest func (addr &&& 0xFFFFFFFFFFFFE000))] ∧ t.mem = s.mem ∧
      ∀ i < 32, cellGet t.hostMem ((addr &&& 0xFFFFFFFFFFFFE000).toNat % 2 ^ 48 + i) =
        cellGet s.hostMem ((addr &&& 0xFFFFFFFFFFFFE000).toNat % 2 ^ 48 + i)) ∧
    (∀ v, (∃ t, exec (.registerWrite func 8 v) s = .next t ∧ (t.fn func).qbase = v &&& 0xFFFFFFFFFFFFF000) ∧
      ∃ t, exec (.registerWrite func 16 v) s = .next t ∧ (t.fn func).qsize = v) ∧
    (∀ o n k bs, ((List.range 12).filter (s.part p).stackSet.testBit)[o / 2 ^ 36]? = some k → (o + n) / 2 ^ 36 = o / 2 ^ 36 →
      o + n ≤ 2 ^ (30 + Config.barDoublings func) →
      (∀ i < n, (k * 2 ^ 36 + (o + i) % 2 ^ 36) / 2 ^ 16 ∉ s.boot.leftOut) →
      (∃ t, exec (.hostAccess func (.bar2 o) none n) s = .next t ∧ t.mem = s.mem ∧
        (t.fn func).data = (List.range n).map (fun i => cellGet s.mem (k * 2 ^ 36 + (o + i) % 2 ^ 36))) ∧
      (bs.length = n → Clean s → ∃ t, exec (.hostAccess func (.bar2 o) (some bs) n) s = .next t ∧
        (∀ i < n, cellGet t.mem (k * 2 ^ 36 + (o + i) % 2 ^ 36) = bs.getD i 0) ∧
        ∀ a, (∀ i < n, a ≠ k * 2 ^ 36 + (o + i) % 2 ^ 36) → cellGet t.mem a = cellGet s.mem a)) ∧
    (∀ o bs, 2 ^ (30 + Config.barDoublings func) ≤ o → exec (.hostAccess func (.bar2 o) (some bs) bs.length) s = .next s) ∧
    (∀ o v, (o = 0x0000 ∧ v = (if s.boot.ready ∨ s.boot.recovery then
          s.boot.ready.toNat + 2 * s.boot.recovery.toNat + 2 ^ 8 * p else 0)) ∨
        (o = 0x0008 ∧ v = (s.fn func).qbase.toNat) ∨ (o = 0x0010 ∧ v = (s.fn func).qsize.toNat) ∨
        (o = 0x0020 ∧ v = (s.fn func).attest.toNat) ∨ (o = 0x0028 ∧ v = 0) →
      ∃ t, exec (.hostAccess func (.bar0 o) none 8) s = .next t ∧ (t.fn func).data.length = 8 ∧
        field (t.fn func).data 0 8 = v ∧ t.mem = s.mem) ∧
    (∀ o bs, bs.length = 8 → o = 0x0008 ∨ o = 0x0010 ∨ o = 0x0028 →
      exec (.hostAccess func (.bar0 o) (some bs) 8) s = exec (.registerWrite func o (BitVec.ofNat 64 (field bs 0 8))) s) ∧
    (∀ bs, bs.length = 8 →
      exec (.hostAccess func (.bar0 0x18) (some bs) 8) s = exec (.doorbell func (BitVec.ofNat 64 (field bs 0 8))) s ∧
      exec (.hostAccess func (.bar0 0x20) (some bs) 8) s = exec (.attest func (BitVec.ofNat 64 (field bs 0 8))) s)) ∧
  (∀ (s : State), let b := s.boot
    (∃ t, exec .boot s = .next t ∧ t.boot.ready = (Config.vendorSigned b.image && Config.vendorSigned b.config) ∧
      t.boot.recovery = !t.boot.ready ∧ t.mem = s.mem ∧
      (t.boot.ready = true → (∀ c ∈ s.svcCores, (t.slot c 0).st = .running ∧ (t.slot c 0).idx = 1 ∧
          (t.slot c 0).entering = true) ∧
        (∃ k < 12, (t.part (Config.managementPart % 12)).stackSet.testBit k = true) ∧
        mapGet [] t.boot.m 1 = shake256 (mapGet (zeroBytes 64) b.m 1 ++ shake256 b.image 64) 64 ∧
        t.boot.leftOut = (if b.badListSigned then b.badList else []) ∧ t.boot.listFailed = !b.badListSigned) ∧
      (t.boot.ready = false → t = { s with boot := { b with ready := false, recovery := true } })) ∧
    (∀ image, b.recovery = true → exec (.recoveryImage image) s = .next { s with boot := { b with image := image } }) ∧
    ∀ mhz, exec (.clockCap mhz) s = .next { s with clockMHz := max 800 (min 1600 (mhz - mhz % 100)) })

/-- A service command completes with its results and its effect, or is refused with a reason in bits 62–56 (R203, R219, R226,
R232, R240, R248, R302, R305, R317, R338, R340, R341). CEREPLY and REDREPLY take the numbers 64–79 for gateway cores, and a core is
named by sys.loc [15:6] in place (logs 10, 25); a restart ends the gangs that the core holds, and the operations that root logic
has queued for the core stay (log 28); a command whose block is poisoned is refused with reason 4 (log 9): the model's choices. -/
def Obligations.ServiceCommandsComplete : Prop :=
  ∀ (s : State) (c : Nat), let a := arg s c
    let word (i : Nat) : W64 := mapGet 0 (s.core c).cmdArgs i
    (Commanded s c 0x01 →
      (a 0 ≤ 4095 → a 2 ≤ 11 → asidInUse s (a 2) (a 0) = false → Completes .asrec s c 0 0 (fun t =>
        mapFind t.asrec (a 2 * 4096 + a 0) = some (a 1) ∧ t.mem = s.mem)) ∧
      (4095 < a 0 ∨ 11 < a 2 → Completes .asrec s c (refusedFor 2) 0 (only s)) ∧
      (a 0 ≤ 4095 → a 2 ≤ 11 → asidInUse s (a 2) (a 0) = true → Completes .asrec s c (refusedFor 3) 0 (only s))) ∧
    (Commanded s c 0x02 → ∀ d < 1024, a 0 ≤ 63 → a 1 = 64 * d → Completes .faultdest s c 0 0 (fun t =>
      (t.cluster (a 0)).faultdest = some d ∧ t.mem = s.mem)) ∧
    (Commanded s c 0x03 → ∀ l desc bar n k j thr row got g rest m, let y := (s.cluster (a 0)).queue (a 1)
      a 0 ≤ 79 → a 1 ≤ 3 → y.faulted = true → y.items = .op l desc bar n k j thr row got g :: rest →
      (a 2 = 0 → Completes .cereplyResume s c 0 0 (fun t =>
        (t.cluster (a 0)).queue (a 1) = { y with faulted := false } ∧ Instr.copyOperation (a 0) (a 1) ∈ t.agenda)) ∧
      (a 2 = 1 → bar % 64 = 0 → regionOf bar = .hbm m → Clean s → Completes .cereplyEnd s c 0 0 (fun t =>
        ((t.cluster (a 0)).queue (a 1)).items = rest ∧ ((t.cluster (a 0)).queue (a 1)).faulted = false ∧
        num t.mem (bar + 8) 4 / 2 ^ 31 = 1))) ∧
    (Commanded s c 0x04 → ∀ r pa leaf, replied s c r → (∀ x ∈ s.reds, threadId x.thr = threadId r.thr → x.id = r.id) →
      (a 2 = 0 → latePlace s r.core r.thr r.addr = .ok (pa, leaf) → s.poisoned pa = false → Clean s →
        (isFp r.op = true → r.w = .w) → Completes .redreplyResume s c 0 0 (fun t =>
          t.reds = s.reds.filter (fun x => x.id != r.id) ∧ num t.mem pa (width r.w / 8) =
            amo r.op (width r.w) (num s.mem pa (width r.w / 8)) (low (width r.w) r.val))) ∧
      (a 2 = 1 → Completes .redreplyDrop s c 0 0 (fun t => t.reds = s.reds.filter (fun x => x.id != r.id) ∧
        t.mem = s.mem ∧ ∀ l, mapFind t.launches r.thr.launch = some l → l.err = true))) ∧
    (Commanded s c 0x05 → a 0 ≤ 63 → a 1 < 2 ^ 16 → Completes .migpool s c 0 0 (fun t =>
      (t.cluster (a 0)).migpool = BitVec.ofNat 16 (a 1) ∧ t.mem = s.mem)) ∧
    (Commanded s c 0x06 → ∀ k, a 0 ≤ 11 → a 1 ≤ 7 → regionOf (a 2) = .hbm k → Clean s →
      (¬ Unspoilt s (a 2) 40 → Completes .decwin s c (refusedFor 4) 0 (fun t => only s t ∧ t.windows = s.windows)) ∧
      (Unspoilt s (a 2) 40 → let w := windowIn s (a 2)
      let taken := w.len = 0 ∨ WindowTaken s (a 0) (a 1) (num s.mem (a 2 + 37) 3) w
      (taken → Completes .decwin s c 0 0 (fun t => mapFind t.windows (8 * a 0 + a 1) = some w ∧ t.mem = s.mem ∧
        ∀ e ∈ t.aliases, e ∈ s.aliases ∧ (w.len ≠ 0 → offRange e.1 w.alias_ (windowSpan w)) ∧
          ∀ old, mapFind s.windows (8 * a 0 + a 1) = some old → old.len ≠ 0 → offRange e.1 old.alias_ (windowSpan old))) ∧
      (¬ taken → Completes .decwin s c (refusedFor 4) 0 (fun t => only s t ∧ t.windows = s.windows)))) ∧
    (Commanded s c 0x07 → ∀ k, let f (i : Nat) : Nat := num s.mem (a 1 + 8 * i) 8
      let live : Prop := ∃ i < (s.part (a 0)).capacity, (entryAt s (s.part (a 0)) i).state = 1
      a 0 ≤ 11 → regionOf (a 1) = .hbm k → Unspoilt s (a 1) 56 → 1 ≤ f 1 → f 1 ≤ 2 ^ 26 → f 2 % 65536 = 0 → f 3 % 65536 = 0 → f 4 % 65536 = 0 →
      (¬ live → Completes .objtab s c 0 0 (fun t => let p := t.part (a 0)
        p.table = f 0 ∧ p.capacity = f 1 ∧ p.hbase = f 2 ∧ p.hphys = f 3 ∧ p.hsize = f 4 ∧ p.low = f 5 ∧ p.high = f 6 ∧
        ∀ i < 32 * f 1, cellGet t.mem (f 0 + i) = 0)) ∧
      (live → Completes .objtab s c (refusedFor 3) 0 (only s))) ∧
    (Commanded s c 0x08 →
      (s.faq = [] → Completes .faqpop s c 0 0 (only s)) ∧
      (∀ e es, s.faq = e :: es → Completes .faqpop s c (BitVec.ofNat 64 e.pa)
        (BitVec.ofNat 64 (e.kind + e.info * 2 ^ 8 + e.time.toNat * 2 ^ 32)) (fun t => t.faq = es ∧ t.mem = s.mem))) ∧
    (Commanded s c 0x09 → a 0 ≤ 3 → Completes .thrtab s c 0 0 (fun t =>
      (t.die (a 0)).thrLow = word 1 ∧ (t.die (a 0)).thrHigh = word 2 ∧ t.mem = s.mem)) ∧
    (Commanded s c 0x0A →
      (a 0 = 1 → Completes .policy s c 0 0 (fun t => t.policy = { s.policy with placement := a 1 })) ∧
      (a 0 = 2 → Completes .policy s c 0 0 (fun t => t.policy = { s.policy with drain := a 1 })) ∧
      (a 0 = 3 → Completes .policy s c 0 0 (fun t => t.policy = { s.policy with clearing := a 1 })) ∧
      (a 0 = 5 → Completes .policy s c 0 0 (fun t => t.policy = { s.policy with scrub := a 1 })) ∧
      (a 0 = 6 → Completes .policy s c 0 0 (fun t => t.policy = { s.policy with quantum := a 1 })) ∧
      (a 0 = 7 → Completes .policy s c 0 0 (fun t => t.policy = { s.policy with collective := a 1 })) ∧
      (a 0 = 0 ∨ 7 < a 0 → Completes .policy s c (refusedFor 2) 0 (only s)) ∧
      (a 0 = 4 → a 2 ≤ 11 → a 1 = 0 ∨ (1024 ≤ a 1 ∧ a 1 < 2 ^ 32) → Completes .policy s c 0 0 (fun t =>
        (t.part (a 2)).tau = a 1)) ∧
      (a 0 = 4 → 0 < a 1 → a 1 < 1024 → Completes .policy s c (refusedFor 2) 0 (only s))) ∧
    (Commanded s c 0x0B →
      (2 ^ 16 ≤ a 0 ∨ (bits (word 0) 1 1 = 1 ∧ bits (word 0) 10 4 ≠ 0) → Completes .lend s c (refusedFor 2) 0 (only s)) ∧
      (∀ d k, a 0 < 2 ^ 16 → ¬ (bits (word 0) 1 1 = 1 ∧ bits (word 0) 10 4 ≠ 0) → d = locCore (word 0) → k = bits (word 0) 2 4 →
        (LendForbidden s d k → Completes .lend s c (refusedFor 3) 0 (only s)) ∧
        (∀ m, ¬ LendForbidden s d k → regionOf (a 2) = .hbm m →
          (¬ Unspoilt s (a 2) 4096 → Completes .lend s c (refusedFor 4) 0 (only s)) ∧
          (Unspoilt s (a 2) 4096 →
            ((∀ e ∈ s.launches, e.1 % 2 ^ 16 ≠ num s.mem (a 2 + 468) 2) ∨
                (∃ n l, LaunchNamed s (a 2) n l ∧ l.part ≠ (s.slot d k).thread.part) →
              Completes .lend s c (refusedFor 5) 0 (only s)) ∧
            (∀ n l, LaunchNamed s (a 2) n l → l.part = (s.slot d k).thread.part →
              Completes .lend s c 0 0 (fun t => (t.slot d k).lent = true ∧ (t.slot d k).thread.launch = n ∧
                ∃ e ∈ (t.core d).spilled, e.1 = a 1 ∧ e.2.1 = k ∧ e.2.2.thread = (s.slot d k).thread)))))) ∧
    (Commanded s c 0x0C → ∀ d < 1024, a 0 = 64 * d →
      (a 1 = 0 → d ≠ c → Completes .coreRestart s c 0 0 (fun t =>
        t.core d = { Core.reset with rdq := (s.core d).rdq, rqq := (s.core d).rqq } ∧
        ∀ g ∈ s.gangs, g.touches s d = true → (∀ h ∈ t.gangs, h.id ≠ g.id) ∧
          ∀ l, mapFind t.launches g.id.1 = some l → l.err = true)) ∧
      (a 1 = 1 → Completes .coreHold s c 0 0 (fun t => (t.core d).isHeld = true ∧ (t.core d).slots = (s.core d).slots)) ∧
      (a 1 = 2 → Completes .coreRelease s c 0 0 (fun t =>
        (t.core d).isHeld = false ∧ (t.core d).slots = (s.core d).slots))) ∧
    (Commanded s c 0x0D → ∀ d < 1024, a 0 = 64 * d → a 1 % 4096 = 0 → 4096 ≤ a 2 → a 2 ≤ 2 ^ 30 → a 2 % 4096 = 0 →
      Completes .tracebuf s c 0 0 (fun t => let g := (t.core d).ring
        g.bound = true ∧ g.base = a 1 ∧ g.size = a 2 ∧ g.wr = 0 ∧ g.rd = 0 ∧ g.lost = 0)) ∧
    (Commanded s c 0x0E → ∀ d < 1024, a 0 = 64 * d → (s.core d).ring.bound = true → a 1 < (s.core d).ring.size →
      a 1 % 16 = 0 → Completes .traceptr s c (BitVec.ofNat 64 (s.core d).ring.wr) 0 (fun t =>
        (t.core d).ring = { (s.core d).ring with rd := a 1 })) ∧
    (Commanded s c 0x0F → let taken : Prop := OwnedByAnother s (a 0) (a 1) (a 2) (a 3 + a 4 * 2 ^ 64)
      let ranges : Prop := a 0 ≤ 11 ∧ a 1 ≠ 0 ∧ a 1 < 2 ^ 12 ∧ a 5 ≤ 6
      let idle : Prop := ∀ p < 64, (a 2).testBit p = true → clusterIdle s p = true
      (¬ ranges ∨ taken → Completes .partset s c (refusedFor 2) 0 (only s)) ∧
      (ranges → ¬ taken → ¬ idle → Completes .partset s c (refusedFor 3) 0 (only s)) ∧
      (ranges → ¬ taken → idle → Completes .partset s c 0 0 (fun t => let p := t.part (a 0)
        p.stackSet = a 1 ∧ p.clusters = a 2 ∧ p.vfs = a 3 + a 4 * 2 ^ 64 ∧ p.chip = a 5 ∧ p.hostsvc = none ∧ t.mem = s.mem))) ∧
    (Commanded s c 0x10 → ∀ d < 1024, a 0 ≤ 11 → a 1 = 64 * d →
      (s.isSvc d = true → Completes .hostsvc s c 0 0 (fun t => (t.part (a 0)).hostsvc = some d)) ∧
      (s.isSvc d = false → Completes .hostsvc s c (refusedFor 4) 0 (only s)))
end

