-- ==== Sys2Proof/Laws/Table.lean ====
section
/-!
SUPPORT. Laws of the tables with rising keys: reading an entry after writing one.
-/

namespace Sys2Proof.Machine

@[simp] theorem mapFind_nil {α : Type} (k : Nat) : mapFind ([] : Map α) k = none := rfl

@[simp] theorem mapGet_nil {α : Type} (d : α) (k : Nat) : mapGet d [] k = d := rfl

/-- The entry just written is the one found. -/
@[simp] theorem mapFind_mapSet_self {α : Type} (m : Map α) (k : Nat) (a : α) : mapFind (mapSet m k a) k = some a := by
  induction m with
  | nil => simp [mapSet, mapFind]
  | cons e m ih =>
    obtain ⟨j, b⟩ := e
    by_cases h : j < k
    · simp [mapSet, h, mapFind, ih, Nat.ne_of_lt h]
    · by_cases h' : j = k <;> simp [mapSet, h, h', mapFind]

/-- Writing one entry leaves every other as it was. -/
theorem mapFind_mapSet_ne {α : Type} (m : Map α) {k j : Nat} (a : α) (h : j ≠ k) :
    mapFind (mapSet m k a) j = mapFind m j := by
  induction m with
  | nil => simp [mapSet, mapFind, h.symm]
  | cons e m ih =>
    obtain ⟨i, b⟩ := e
    by_cases h1 : i < k
    · simp [mapSet, h1, mapFind, ih]
    · by_cases h2 : i = k
      · subst h2; simp [mapSet, mapFind, h.symm]
      · simp [mapSet, h1, h2, mapFind, h.symm]

@[simp] theorem mapGet_mapSet_self {α : Type} (d : α) (m : Map α) (k : Nat) (a : α) : mapGet d (mapSet m k a) k = a := by
  simp [mapGet]

theorem mapGet_mapSet_ne {α : Type} (d : α) (m : Map α) {k j : Nat} (a : α) (h : j ≠ k) :
    mapGet d (mapSet m k a) j = mapGet d m j := by
  simp [mapGet, mapFind_mapSet_ne m a h]

/-- Reading after writing, in one rewrite. -/
theorem mapGet_mapSet {α : Type} (d : α) (m : Map α) (k j : Nat) (a : α) :
    mapGet d (mapSet m k a) j = if j = k then a else mapGet d m j := by
  by_cases h : j = k
  · subst h; simp
  · simp [h, mapGet_mapSet_ne d m a h]

end Sys2Proof.Machine
end

