-- ==== Sys2Proof/Laws/State.lean ====
section
/-!
SUPPORT. Laws of the state's updates: what each update leaves alone, field by field, and what is read back after it.
-/

namespace Sys2Proof.Machine

variable (s : State)

/-! ### `State.setCore` -/

@[simp] theorem setCore_clk (c : Nat) (x : Core) : (s.setCore c x).clk = s.clk := rfl
@[simp] theorem setCore_cur (c : Nat) (x : Core) : (s.setCore c x).cur = s.cur := rfl
@[simp] theorem setCore_free (c : Nat) (x : Core) : (s.setCore c x).free = s.free := rfl
@[simp] theorem setCore_fresh (c : Nat) (x : Core) : (s.setCore c x).fresh = s.fresh := rfl
@[simp] theorem setCore_agenda (c : Nat) (x : Core) : (s.setCore c x).agenda = s.agenda := rfl
@[simp] theorem setCore_clusters (c : Nat) (x : Core) : (s.setCore c x).clusters = s.clusters := rfl
@[simp] theorem setCore_dies (c : Nat) (x : Core) : (s.setCore c x).dies = s.dies := rfl
@[simp] theorem setCore_mem (c : Nat) (x : Core) : (s.setCore c x).mem = s.mem := rfl
@[simp] theorem setCore_full (c : Nat) (x : Core) : (s.setCore c x).full = s.full := rfl
@[simp] theorem setCore_poison (c : Nat) (x : Core) : (s.setCore c x).poison = s.poison := rfl
@[simp] theorem setCore_chk (c : Nat) (x : Core) : (s.setCore c x).chk = s.chk := rfl
@[simp] theorem setCore_side (c : Nat) (x : Core) : (s.setCore c x).side = s.side := rfl
@[simp] theorem setCore_faq (c : Nat) (x : Core) : (s.setCore c x).faq = s.faq := rfl
@[simp] theorem setCore_faqOvf (c : Nat) (x : Core) : (s.setCore c x).faqOvf = s.faqOvf := rfl
@[simp] theorem setCore_res (c : Nat) (x : Core) : (s.setCore c x).res = s.res := rfl
@[simp] theorem setCore_windows (c : Nat) (x : Core) : (s.setCore c x).windows = s.windows := rfl
@[simp] theorem setCore_aliases (c : Nat) (x : Core) : (s.setCore c x).aliases = s.aliases := rfl
@[simp] theorem setCore_asrec (c : Nat) (x : Core) : (s.setCore c x).asrec = s.asrec := rfl
@[simp] theorem setCore_parts (c : Nat) (x : Core) : (s.setCore c x).parts = s.parts := rfl
@[simp] theorem setCore_launches (c : Nat) (x : Core) : (s.setCore c x).launches = s.launches := rfl
@[simp] theorem setCore_accepted (c : Nat) (x : Core) : (s.setCore c x).accepted = s.accepted := rfl
@[simp] theorem setCore_placed (c : Nat) (x : Core) : (s.setCore c x).placed = s.placed := rfl
@[simp] theorem setCore_lastClear (c : Nat) (x : Core) : (s.setCore c x).lastClear = s.lastClear := rfl
@[simp] theorem setCore_gangs (c : Nat) (x : Core) : (s.setCore c x).gangs = s.gangs := rfl
@[simp] theorem setCore_saved (c : Nat) (x : Core) : (s.setCore c x).saved = s.saved := rfl
@[simp] theorem setCore_policy (c : Nat) (x : Core) : (s.setCore c x).policy = s.policy := rfl
@[simp] theorem setCore_svcCores (c : Nat) (x : Core) : (s.setCore c x).svcCores = s.svcCores := rfl
@[simp] theorem setCore_commands (c : Nat) (x : Core) : (s.setCore c x).commands = s.commands := rfl
@[simp] theorem setCore_posted (c : Nat) (x : Core) : (s.setCore c x).posted = s.posted := rfl
@[simp] theorem setCore_fences (c : Nat) (x : Core) : (s.setCore c x).fences = s.fences := rfl
@[simp] theorem setCore_flits (c : Nat) (x : Core) : (s.setCore c x).flits = s.flits := rfl
@[simp] theorem setCore_reds (c : Nat) (x : Core) : (s.setCore c x).reds = s.reds := rfl
@[simp] theorem setCore_coll (c : Nat) (x : Core) : (s.setCore c x).coll = s.coll := rfl
@[simp] theorem setCore_gqclms (c : Nat) (x : Core) : (s.setCore c x).gqclms = s.gqclms := rfl
@[simp] theorem setCore_ports (c : Nat) (x : Core) : (s.setCore c x).ports = s.ports := rfl
@[simp] theorem setCore_fns (c : Nat) (x : Core) : (s.setCore c x).fns = s.fns := rfl
@[simp] theorem setCore_hostMem (c : Nat) (x : Core) : (s.setCore c x).hostMem = s.hostMem := rfl
@[simp] theorem setCore_boot (c : Nat) (x : Core) : (s.setCore c x).boot = s.boot := rfl
@[simp] theorem setCore_clockMHz (c : Nat) (x : Core) : (s.setCore c x).clockMHz = s.clockMHz := rfl
@[simp] theorem setCore_headWait (c : Nat) (x : Core) : (s.setCore c x).headWait = s.headWait := rfl
@[simp] theorem setCore_turnWait (c : Nat) (x : Core) : (s.setCore c x).turnWait = s.turnWait := rfl

/-! ### `State.setSlot` -/

@[simp] theorem setSlot_clk (c k : Nat) (x : Slot) : (s.setSlot c k x).clk = s.clk := rfl
@[simp] theorem setSlot_cur (c k : Nat) (x : Slot) : (s.setSlot c k x).cur = s.cur := rfl
@[simp] theorem setSlot_free (c k : Nat) (x : Slot) : (s.setSlot c k x).free = s.free := rfl
@[simp] theorem setSlot_fresh (c k : Nat) (x : Slot) : (s.setSlot c k x).fresh = s.fresh := rfl
@[simp] theorem setSlot_agenda (c k : Nat) (x : Slot) : (s.setSlot c k x).agenda = s.agenda := rfl
@[simp] theorem setSlot_clusters (c k : Nat) (x : Slot) : (s.setSlot c k x).clusters = s.clusters := rfl
@[simp] theorem setSlot_dies (c k : Nat) (x : Slot) : (s.setSlot c k x).dies = s.dies := rfl
@[simp] theorem setSlot_mem (c k : Nat) (x : Slot) : (s.setSlot c k x).mem = s.mem := rfl
@[simp] theorem setSlot_full (c k : Nat) (x : Slot) : (s.setSlot c k x).full = s.full := rfl
@[simp] theorem setSlot_poison (c k : Nat) (x : Slot) : (s.setSlot c k x).poison = s.poison := rfl
@[simp] theorem setSlot_chk (c k : Nat) (x : Slot) : (s.setSlot c k x).chk = s.chk := rfl
@[simp] theorem setSlot_side (c k : Nat) (x : Slot) : (s.setSlot c k x).side = s.side := rfl
@[simp] theorem setSlot_faq (c k : Nat) (x : Slot) : (s.setSlot c k x).faq = s.faq := rfl
@[simp] theorem setSlot_faqOvf (c k : Nat) (x : Slot) : (s.setSlot c k x).faqOvf = s.faqOvf := rfl
@[simp] theorem setSlot_res (c k : Nat) (x : Slot) : (s.setSlot c k x).res = s.res := rfl
@[simp] theorem setSlot_windows (c k : Nat) (x : Slot) : (s.setSlot c k x).windows = s.windows := rfl
@[simp] theorem setSlot_aliases (c k : Nat) (x : Slot) : (s.setSlot c k x).aliases = s.aliases := rfl
@[simp] theorem setSlot_asrec (c k : Nat) (x : Slot) : (s.setSlot c k x).asrec = s.asrec := rfl
@[simp] theorem setSlot_parts (c k : Nat) (x : Slot) : (s.setSlot c k x).parts = s.parts := rfl
@[simp] theorem setSlot_launches (c k : Nat) (x : Slot) : (s.setSlot c k x).launches = s.launches := rfl
@[simp] theorem setSlot_accepted (c k : Nat) (x : Slot) : (s.setSlot c k x).accepted = s.accepted := rfl
@[simp] theorem setSlot_placed (c k : Nat) (x : Slot) : (s.setSlot c k x).placed = s.placed := rfl
@[simp] theorem setSlot_lastClear (c k : Nat) (x : Slot) : (s.setSlot c k x).lastClear = s.lastClear := rfl
@[simp] theorem setSlot_gangs (c k : Nat) (x : Slot) : (s.setSlot c k x).gangs = s.gangs := rfl
@[simp] theorem setSlot_saved (c k : Nat) (x : Slot) : (s.setSlot c k x).saved = s.saved := rfl
@[simp] theorem setSlot_policy (c k : Nat) (x : Slot) : (s.setSlot c k x).policy = s.policy := rfl
@[simp] theorem setSlot_svcCores (c k : Nat) (x : Slot) : (s.setSlot c k x).svcCores = s.svcCores := rfl
@[simp] theorem setSlot_commands (c k : Nat) (x : Slot) : (s.setSlot c k x).commands = s.commands := rfl
@[simp] theorem setSlot_posted (c k : Nat) (x : Slot) : (s.setSlot c k x).posted = s.posted := rfl
@[simp] theorem setSlot_fences (c k : Nat) (x : Slot) : (s.setSlot c k x).fences = s.fences := rfl
@[simp] theorem setSlot_flits (c k : Nat) (x : Slot) : (s.setSlot c k x).flits = s.flits := rfl
@[simp] theorem setSlot_reds (c k : Nat) (x : Slot) : (s.setSlot c k x).reds = s.reds := rfl
@[simp] theorem setSlot_coll (c k : Nat) (x : Slot) : (s.setSlot c k x).coll = s.coll := rfl
@[simp] theorem setSlot_gqclms (c k : Nat) (x : Slot) : (s.setSlot c k x).gqclms = s.gqclms := rfl
@[simp] theorem setSlot_ports (c k : Nat) (x : Slot) : (s.setSlot c k x).ports = s.ports := rfl
@[simp] theorem setSlot_fns (c k : Nat) (x : Slot) : (s.setSlot c k x).fns = s.fns := rfl
@[simp] theorem setSlot_hostMem (c k : Nat) (x : Slot) : (s.setSlot c k x).hostMem = s.hostMem := rfl
@[simp] theorem setSlot_boot (c k : Nat) (x : Slot) : (s.setSlot c k x).boot = s.boot := rfl
@[simp] theorem setSlot_clockMHz (c k : Nat) (x : Slot) : (s.setSlot c k x).clockMHz = s.clockMHz := rfl
@[simp] theorem setSlot_headWait (c k : Nat) (x : Slot) : (s.setSlot c k x).headWait = s.headWait := rfl
@[simp] theorem setSlot_turnWait (c k : Nat) (x : Slot) : (s.setSlot c k x).turnWait = s.turnWait := rfl

/-! ### `State.setMe` -/

@[simp] theorem setMe_clk (x : Slot) : (s.setMe x).clk = s.clk := rfl
@[simp] theorem setMe_cur (x : Slot) : (s.setMe x).cur = s.cur := rfl
@[simp] theorem setMe_free (x : Slot) : (s.setMe x).free = s.free := rfl
@[simp] theorem setMe_fresh (x : Slot) : (s.setMe x).fresh = s.fresh := rfl
@[simp] theorem setMe_agenda (x : Slot) : (s.setMe x).agenda = s.agenda := rfl
@[simp] theorem setMe_clusters (x : Slot) : (s.setMe x).clusters = s.clusters := rfl
@[simp] theorem setMe_dies (x : Slot) : (s.setMe x).dies = s.dies := rfl
@[simp] theorem setMe_mem (x : Slot) : (s.setMe x).mem = s.mem := rfl
@[simp] theorem setMe_full (x : Slot) : (s.setMe x).full = s.full := rfl
@[simp] theorem setMe_poison (x : Slot) : (s.setMe x).poison = s.poison := rfl
@[simp] theorem setMe_chk (x : Slot) : (s.setMe x).chk = s.chk := rfl
@[simp] theorem setMe_side (x : Slot) : (s.setMe x).side = s.side := rfl
@[simp] theorem setMe_faq (x : Slot) : (s.setMe x).faq = s.faq := rfl
@[simp] theorem setMe_faqOvf (x : Slot) : (s.setMe x).faqOvf = s.faqOvf := rfl
@[simp] theorem setMe_res (x : Slot) : (s.setMe x).res = s.res := rfl
@[simp] theorem setMe_windows (x : Slot) : (s.setMe x).windows = s.windows := rfl
@[simp] theorem setMe_aliases (x : Slot) : (s.setMe x).aliases = s.aliases := rfl
@[simp] theorem setMe_asrec (x : Slot) : (s.setMe x).asrec = s.asrec := rfl
@[simp] theorem setMe_parts (x : Slot) : (s.setMe x).parts = s.parts := rfl
@[simp] theorem setMe_launches (x : Slot) : (s.setMe x).launches = s.launches := rfl
@[simp] theorem setMe_accepted (x : Slot) : (s.setMe x).accepted = s.accepted := rfl
@[simp] theorem setMe_placed (x : Slot) : (s.setMe x).placed = s.placed := rfl
@[simp] theorem setMe_lastClear (x : Slot) : (s.setMe x).lastClear = s.lastClear := rfl
@[simp] theorem setMe_gangs (x : Slot) : (s.setMe x).gangs = s.gangs := rfl
@[simp] theorem setMe_saved (x : Slot) : (s.setMe x).saved = s.saved := rfl
@[simp] theorem setMe_policy (x : Slot) : (s.setMe x).policy = s.policy := rfl
@[simp] theorem setMe_svcCores (x : Slot) : (s.setMe x).svcCores = s.svcCores := rfl
@[simp] theorem setMe_commands (x : Slot) : (s.setMe x).commands = s.commands := rfl
@[simp] theorem setMe_posted (x : Slot) : (s.setMe x).posted = s.posted := rfl
@[simp] theorem setMe_fences (x : Slot) : (s.setMe x).fences = s.fences := rfl
@[simp] theorem setMe_flits (x : Slot) : (s.setMe x).flits = s.flits := rfl
@[simp] theorem setMe_reds (x : Slot) : (s.setMe x).reds = s.reds := rfl
@[simp] theorem setMe_coll (x : Slot) : (s.setMe x).coll = s.coll := rfl
@[simp] theorem setMe_gqclms (x : Slot) : (s.setMe x).gqclms = s.gqclms := rfl
@[simp] theorem setMe_ports (x : Slot) : (s.setMe x).ports = s.ports := rfl
@[simp] theorem setMe_fns (x : Slot) : (s.setMe x).fns = s.fns := rfl
@[simp] theorem setMe_hostMem (x : Slot) : (s.setMe x).hostMem = s.hostMem := rfl
@[simp] theorem setMe_boot (x : Slot) : (s.setMe x).boot = s.boot := rfl
@[simp] theorem setMe_clockMHz (x : Slot) : (s.setMe x).clockMHz = s.clockMHz := rfl
@[simp] theorem setMe_headWait (x : Slot) : (s.setMe x).headWait = s.headWait := rfl
@[simp] theorem setMe_turnWait (x : Slot) : (s.setMe x).turnWait = s.turnWait := rfl

/-! ### `State.setCluster` -/

@[simp] theorem setCluster_clk (p : Nat) (x : Cluster) : (s.setCluster p x).clk = s.clk := rfl
@[simp] theorem setCluster_cur (p : Nat) (x : Cluster) : (s.setCluster p x).cur = s.cur := rfl
@[simp] theorem setCluster_free (p : Nat) (x : Cluster) : (s.setCluster p x).free = s.free := rfl
@[simp] theorem setCluster_fresh (p : Nat) (x : Cluster) : (s.setCluster p x).fresh = s.fresh := rfl
@[simp] theorem setCluster_agenda (p : Nat) (x : Cluster) : (s.setCluster p x).agenda = s.agenda := rfl
@[simp] theorem setCluster_cores (p : Nat) (x : Cluster) : (s.setCluster p x).cores = s.cores := rfl
@[simp] theorem setCluster_dies (p : Nat) (x : Cluster) : (s.setCluster p x).dies = s.dies := rfl
@[simp] theorem setCluster_mem (p : Nat) (x : Cluster) : (s.setCluster p x).mem = s.mem := rfl
@[simp] theorem setCluster_full (p : Nat) (x : Cluster) : (s.setCluster p x).full = s.full := rfl
@[simp] theorem setCluster_poison (p : Nat) (x : Cluster) : (s.setCluster p x).poison = s.poison := rfl
@[simp] theorem setCluster_chk (p : Nat) (x : Cluster) : (s.setCluster p x).chk = s.chk := rfl
@[simp] theorem setCluster_side (p : Nat) (x : Cluster) : (s.setCluster p x).side = s.side := rfl
@[simp] theorem setCluster_faq (p : Nat) (x : Cluster) : (s.setCluster p x).faq = s.faq := rfl
@[simp] theorem setCluster_faqOvf (p : Nat) (x : Cluster) : (s.setCluster p x).faqOvf = s.faqOvf := rfl
@[simp] theorem setCluster_res (p : Nat) (x : Cluster) : (s.setCluster p x).res = s.res := rfl
@[simp] theorem setCluster_windows (p : Nat) (x : Cluster) : (s.setCluster p x).windows = s.windows := rfl
@[simp] theorem setCluster_aliases (p : Nat) (x : Cluster) : (s.setCluster p x).aliases = s.aliases := rfl
@[simp] theorem setCluster_asrec (p : Nat) (x : Cluster) : (s.setCluster p x).asrec = s.asrec := rfl
@[simp] theorem setCluster_parts (p : Nat) (x : Cluster) : (s.setCluster p x).parts = s.parts := rfl
@[simp] theorem setCluster_launches (p : Nat) (x : Cluster) : (s.setCluster p x).launches = s.launches := rfl
@[simp] theorem setCluster_accepted (p : Nat) (x : Cluster) : (s.setCluster p x).accepted = s.accepted := rfl
@[simp] theorem setCluster_placed (p : Nat) (x : Cluster) : (s.setCluster p x).placed = s.placed := rfl
@[simp] theorem setCluster_lastClear (p : Nat) (x : Cluster) : (s.setCluster p x).lastClear = s.lastClear := rfl
@[simp] theorem setCluster_gangs (p : Nat) (x : Cluster) : (s.setCluster p x).gangs = s.gangs := rfl
@[simp] theorem setCluster_saved (p : Nat) (x : Cluster) : (s.setCluster p x).saved = s.saved := rfl
@[simp] theorem setCluster_policy (p : Nat) (x : Cluster) : (s.setCluster p x).policy = s.policy := rfl
@[simp] theorem setCluster_svcCores (p : Nat) (x : Cluster) : (s.setCluster p x).svcCores = s.svcCores := rfl
@[simp] theorem setCluster_commands (p : Nat) (x : Cluster) : (s.setCluster p x).commands = s.commands := rfl
@[simp] theorem setCluster_posted (p : Nat) (x : Cluster) : (s.setCluster p x).posted = s.posted := rfl
@[simp] theorem setCluster_fences (p : Nat) (x : Cluster) : (s.setCluster p x).fences = s.fences := rfl
@[simp] theorem setCluster_flits (p : Nat) (x : Cluster) : (s.setCluster p x).flits = s.flits := rfl
@[simp] theorem setCluster_reds (p : Nat) (x : Cluster) : (s.setCluster p x).reds = s.reds := rfl
@[simp] theorem setCluster_coll (p : Nat) (x : Cluster) : (s.setCluster p x).coll = s.coll := rfl
@[simp] theorem setCluster_gqclms (p : Nat) (x : Cluster) : (s.setCluster p x).gqclms = s.gqclms := rfl
@[simp] theorem setCluster_ports (p : Nat) (x : Cluster) : (s.setCluster p x).ports = s.ports := rfl
@[simp] theorem setCluster_fns (p : Nat) (x : Cluster) : (s.setCluster p x).fns = s.fns := rfl
@[simp] theorem setCluster_hostMem (p : Nat) (x : Cluster) : (s.setCluster p x).hostMem = s.hostMem := rfl
@[simp] theorem setCluster_boot (p : Nat) (x : Cluster) : (s.setCluster p x).boot = s.boot := rfl
@[simp] theorem setCluster_clockMHz (p : Nat) (x : Cluster) : (s.setCluster p x).clockMHz = s.clockMHz := rfl
@[simp] theorem setCluster_headWait (p : Nat) (x : Cluster) : (s.setCluster p x).headWait = s.headWait := rfl
@[simp] theorem setCluster_turnWait (p : Nat) (x : Cluster) : (s.setCluster p x).turnWait = s.turnWait := rfl

/-! ### `State.setDie` -/

@[simp] theorem setDie_clk (d : Nat) (x : Die) : (s.setDie d x).clk = s.clk := rfl
@[simp] theorem setDie_cur (d : Nat) (x : Die) : (s.setDie d x).cur = s.cur := rfl
@[simp] theorem setDie_free (d : Nat) (x : Die) : (s.setDie d x).free = s.free := rfl
@[simp] theorem setDie_fresh (d : Nat) (x : Die) : (s.setDie d x).fresh = s.fresh := rfl
@[simp] theorem setDie_agenda (d : Nat) (x : Die) : (s.setDie d x).agenda = s.agenda := rfl
@[simp] theorem setDie_cores (d : Nat) (x : Die) : (s.setDie d x).cores = s.cores := rfl
@[simp] theorem setDie_clusters (d : Nat) (x : Die) : (s.setDie d x).clusters = s.clusters := rfl
@[simp] theorem setDie_mem (d : Nat) (x : Die) : (s.setDie d x).mem = s.mem := rfl
@[simp] theorem setDie_full (d : Nat) (x : Die) : (s.setDie d x).full = s.full := rfl
@[simp] theorem setDie_poison (d : Nat) (x : Die) : (s.setDie d x).poison = s.poison := rfl
@[simp] theorem setDie_chk (d : Nat) (x : Die) : (s.setDie d x).chk = s.chk := rfl
@[simp] theorem setDie_side (d : Nat) (x : Die) : (s.setDie d x).side = s.side := rfl
@[simp] theorem setDie_faq (d : Nat) (x : Die) : (s.setDie d x).faq = s.faq := rfl
@[simp] theorem setDie_faqOvf (d : Nat) (x : Die) : (s.setDie d x).faqOvf = s.faqOvf := rfl
@[simp] theorem setDie_res (d : Nat) (x : Die) : (s.setDie d x).res = s.res := rfl
@[simp] theorem setDie_windows (d : Nat) (x : Die) : (s.setDie d x).windows = s.windows := rfl
@[simp] theorem setDie_aliases (d : Nat) (x : Die) : (s.setDie d x).aliases = s.aliases := rfl
@[simp] theorem setDie_asrec (d : Nat) (x : Die) : (s.setDie d x).asrec = s.asrec := rfl
@[simp] theorem setDie_parts (d : Nat) (x : Die) : (s.setDie d x).parts = s.parts := rfl
@[simp] theorem setDie_launches (d : Nat) (x : Die) : (s.setDie d x).launches = s.launches := rfl
@[simp] theorem setDie_accepted (d : Nat) (x : Die) : (s.setDie d x).accepted = s.accepted := rfl
@[simp] theorem setDie_placed (d : Nat) (x : Die) : (s.setDie d x).placed = s.placed := rfl
@[simp] theorem setDie_lastClear (d : Nat) (x : Die) : (s.setDie d x).lastClear = s.lastClear := rfl
@[simp] theorem setDie_gangs (d : Nat) (x : Die) : (s.setDie d x).gangs = s.gangs := rfl
@[simp] theorem setDie_saved (d : Nat) (x : Die) : (s.setDie d x).saved = s.saved := rfl
@[simp] theorem setDie_policy (d : Nat) (x : Die) : (s.setDie d x).policy = s.policy := rfl
@[simp] theorem setDie_svcCores (d : Nat) (x : Die) : (s.setDie d x).svcCores = s.svcCores := rfl
@[simp] theorem setDie_commands (d : Nat) (x : Die) : (s.setDie d x).commands = s.commands := rfl
@[simp] theorem setDie_posted (d : Nat) (x : Die) : (s.setDie d x).posted = s.posted := rfl
@[simp] theorem setDie_fences (d : Nat) (x : Die) : (s.setDie d x).fences = s.fences := rfl
@[simp] theorem setDie_flits (d : Nat) (x : Die) : (s.setDie d x).flits = s.flits := rfl
@[simp] theorem setDie_reds (d : Nat) (x : Die) : (s.setDie d x).reds = s.reds := rfl
@[simp] theorem setDie_coll (d : Nat) (x : Die) : (s.setDie d x).coll = s.coll := rfl
@[simp] theorem setDie_gqclms (d : Nat) (x : Die) : (s.setDie d x).gqclms = s.gqclms := rfl
@[simp] theorem setDie_ports (d : Nat) (x : Die) : (s.setDie d x).ports = s.ports := rfl
@[simp] theorem setDie_fns (d : Nat) (x : Die) : (s.setDie d x).fns = s.fns := rfl
@[simp] theorem setDie_hostMem (d : Nat) (x : Die) : (s.setDie d x).hostMem = s.hostMem := rfl
@[simp] theorem setDie_boot (d : Nat) (x : Die) : (s.setDie d x).boot = s.boot := rfl
@[simp] theorem setDie_clockMHz (d : Nat) (x : Die) : (s.setDie d x).clockMHz = s.clockMHz := rfl
@[simp] theorem setDie_headWait (d : Nat) (x : Die) : (s.setDie d x).headWait = s.headWait := rfl
@[simp] theorem setDie_turnWait (d : Nat) (x : Die) : (s.setDie d x).turnWait = s.turnWait := rfl

/-! ### `State.setPart` -/

@[simp] theorem setPart_clk (p : Nat) (x : Partition) : (s.setPart p x).clk = s.clk := rfl
@[simp] theorem setPart_cur (p : Nat) (x : Partition) : (s.setPart p x).cur = s.cur := rfl
@[simp] theorem setPart_free (p : Nat) (x : Partition) : (s.setPart p x).free = s.free := rfl
@[simp] theorem setPart_fresh (p : Nat) (x : Partition) : (s.setPart p x).fresh = s.fresh := rfl
@[simp] theorem setPart_agenda (p : Nat) (x : Partition) : (s.setPart p x).agenda = s.agenda := rfl
@[simp] theorem setPart_cores (p : Nat) (x : Partition) : (s.setPart p x).cores = s.cores := rfl
@[simp] theorem setPart_clusters (p : Nat) (x : Partition) : (s.setPart p x).clusters = s.clusters := rfl
@[simp] theorem setPart_dies (p : Nat) (x : Partition) : (s.setPart p x).dies = s.dies := rfl
@[simp] theorem setPart_mem (p : Nat) (x : Partition) : (s.setPart p x).mem = s.mem := rfl
@[simp] theorem setPart_full (p : Nat) (x : Partition) : (s.setPart p x).full = s.full := rfl
@[simp] theorem setPart_poison (p : Nat) (x : Partition) : (s.setPart p x).poison = s.poison := rfl
@[simp] theorem setPart_chk (p : Nat) (x : Partition) : (s.setPart p x).chk = s.chk := rfl
@[simp] theorem setPart_side (p : Nat) (x : Partition) : (s.setPart p x).side = s.side := rfl
@[simp] theorem setPart_faq (p : Nat) (x : Partition) : (s.setPart p x).faq = s.faq := rfl
@[simp] theorem setPart_faqOvf (p : Nat) (x : Partition) : (s.setPart p x).faqOvf = s.faqOvf := rfl
@[simp] theorem setPart_res (p : Nat) (x : Partition) : (s.setPart p x).res = s.res := rfl
@[simp] theorem setPart_windows (p : Nat) (x : Partition) : (s.setPart p x).windows = s.windows := rfl
@[simp] theorem setPart_aliases (p : Nat) (x : Partition) : (s.setPart p x).aliases = s.aliases := rfl
@[simp] theorem setPart_asrec (p : Nat) (x : Partition) : (s.setPart p x).asrec = s.asrec := rfl
@[simp] theorem setPart_launches (p : Nat) (x : Partition) : (s.setPart p x).launches = s.launches := rfl
@[simp] theorem setPart_accepted (p : Nat) (x : Partition) : (s.setPart p x).accepted = s.accepted := rfl
@[simp] theorem setPart_placed (p : Nat) (x : Partition) : (s.setPart p x).placed = s.placed := rfl
@[simp] theorem setPart_lastClear (p : Nat) (x : Partition) : (s.setPart p x).lastClear = s.lastClear := rfl
@[simp] theorem setPart_gangs (p : Nat) (x : Partition) : (s.setPart p x).gangs = s.gangs := rfl
@[simp] theorem setPart_saved (p : Nat) (x : Partition) : (s.setPart p x).saved = s.saved := rfl
@[simp] theorem setPart_policy (p : Nat) (x : Partition) : (s.setPart p x).policy = s.policy := rfl
@[simp] theorem setPart_svcCores (p : Nat) (x : Partition) : (s.setPart p x).svcCores = s.svcCores := rfl
@[simp] theorem setPart_commands (p : Nat) (x : Partition) : (s.setPart p x).commands = s.commands := rfl
@[simp] theorem setPart_posted (p : Nat) (x : Partition) : (s.setPart p x).posted = s.posted := rfl
@[simp] theorem setPart_fences (p : Nat) (x : Partition) : (s.setPart p x).fences = s.fences := rfl
@[simp] theorem setPart_flits (p : Nat) (x : Partition) : (s.setPart p x).flits = s.flits := rfl
@[simp] theorem setPart_reds (p : Nat) (x : Partition) : (s.setPart p x).reds = s.reds := rfl
@[simp] theorem setPart_coll (p : Nat) (x : Partition) : (s.setPart p x).coll = s.coll := rfl
@[simp] theorem setPart_gqclms (p : Nat) (x : Partition) : (s.setPart p x).gqclms = s.gqclms := rfl
@[simp] theorem setPart_ports (p : Nat) (x : Partition) : (s.setPart p x).ports = s.ports := rfl
@[simp] theorem setPart_fns (p : Nat) (x : Partition) : (s.setPart p x).fns = s.fns := rfl
@[simp] theorem setPart_hostMem (p : Nat) (x : Partition) : (s.setPart p x).hostMem = s.hostMem := rfl
@[simp] theorem setPart_boot (p : Nat) (x : Partition) : (s.setPart p x).boot = s.boot := rfl
@[simp] theorem setPart_clockMHz (p : Nat) (x : Partition) : (s.setPart p x).clockMHz = s.clockMHz := rfl
@[simp] theorem setPart_headWait (p : Nat) (x : Partition) : (s.setPart p x).headWait = s.headWait := rfl
@[simp] theorem setPart_turnWait (p : Nat) (x : Partition) : (s.setPart p x).turnWait = s.turnWait := rfl

/-! ### `State.post` -/

@[simp] theorem post_clk (is : List Instr) : (s.post is).clk = s.clk := rfl
@[simp] theorem post_cur (is : List Instr) : (s.post is).cur = s.cur := rfl
@[simp] theorem post_free (is : List Instr) : (s.post is).free = s.free := rfl
@[simp] theorem post_fresh (is : List Instr) : (s.post is).fresh = s.fresh := rfl
@[simp] theorem post_cores (is : List Instr) : (s.post is).cores = s.cores := rfl
@[simp] theorem post_clusters (is : List Instr) : (s.post is).clusters = s.clusters := rfl
@[simp] theorem post_dies (is : List Instr) : (s.post is).dies = s.dies := rfl
@[simp] theorem post_mem (is : List Instr) : (s.post is).mem = s.mem := rfl
@[simp] theorem post_full (is : List Instr) : (s.post is).full = s.full := rfl
@[simp] theorem post_poison (is : List Instr) : (s.post is).poison = s.poison := rfl
@[simp] theorem post_chk (is : List Instr) : (s.post is).chk = s.chk := rfl
@[simp] theorem post_side (is : List Instr) : (s.post is).side = s.side := rfl
@[simp] theorem post_faq (is : List Instr) : (s.post is).faq = s.faq := rfl
@[simp] theorem post_faqOvf (is : List Instr) : (s.post is).faqOvf = s.faqOvf := rfl
@[simp] theorem post_res (is : List Instr) : (s.post is).res = s.res := rfl
@[simp] theorem post_windows (is : List Instr) : (s.post is).windows = s.windows := rfl
@[simp] theorem post_aliases (is : List Instr) : (s.post is).aliases = s.aliases := rfl
@[simp] theorem post_asrec (is : List Instr) : (s.post is).asrec = s.asrec := rfl
@[simp] theorem post_parts (is : List Instr) : (s.post is).parts = s.parts := rfl
@[simp] theorem post_launches (is : List Instr) : (s.post is).launches = s.launches := rfl
@[simp] theorem post_accepted (is : List Instr) : (s.post is).accepted = s.accepted := rfl
@[simp] theorem post_placed (is : List Instr) : (s.post is).placed = s.placed := rfl
@[simp] theorem post_lastClear (is : List Instr) : (s.post is).lastClear = s.lastClear := rfl
@[simp] theorem post_gangs (is : List Instr) : (s.post is).gangs = s.gangs := rfl
@[simp] theorem post_saved (is : List Instr) : (s.post is).saved = s.saved := rfl
@[simp] theorem post_policy (is : List Instr) : (s.post is).policy = s.policy := rfl
@[simp] theorem post_svcCores (is : List Instr) : (s.post is).svcCores = s.svcCores := rfl
@[simp] theorem post_commands (is : List Instr) : (s.post is).commands = s.commands := rfl
@[simp] theorem post_posted (is : List Instr) : (s.post is).posted = s.posted := rfl
@[simp] theorem post_fences (is : List Instr) : (s.post is).fences = s.fences := rfl
@[simp] theorem post_flits (is : List Instr) : (s.post is).flits = s.flits := rfl
@[simp] theorem post_reds (is : List Instr) : (s.post is).reds = s.reds := rfl
@[simp] theorem post_coll (is : List Instr) : (s.post is).coll = s.coll := rfl
@[simp] theorem post_gqclms (is : List Instr) : (s.post is).gqclms = s.gqclms := rfl
@[simp] theorem post_ports (is : List Instr) : (s.post is).ports = s.ports := rfl
@[simp] theorem post_fns (is : List Instr) : (s.post is).fns = s.fns := rfl
@[simp] theorem post_hostMem (is : List Instr) : (s.post is).hostMem = s.hostMem := rfl
@[simp] theorem post_boot (is : List Instr) : (s.post is).boot = s.boot := rfl
@[simp] theorem post_clockMHz (is : List Instr) : (s.post is).clockMHz = s.clockMHz := rfl
@[simp] theorem post_headWait (is : List Instr) : (s.post is).headWait = s.headWait := rfl
@[simp] theorem post_turnWait (is : List Instr) : (s.post is).turnWait = s.turnWait := rfl

/-! ### What is read back -/

@[simp] theorem post_agenda (is : List Instr) : (s.post is).agenda = s.agenda ++ is := rfl

@[simp] theorem core_setCore_self (c : Nat) (x : Core) : (s.setCore c x).core c = x := by
  simp [State.core, State.setCore]

theorem core_setCore_ne {c d : Nat} (x : Core) (h : d ≠ c) : (s.setCore c x).core d = s.core d := by
  simp [State.core, State.setCore, mapGet_mapSet_ne _ _ _ h]

@[simp] theorem slot_setSlot_self (c k : Nat) (x : Slot) : (s.setSlot c k x).slot c k = x := by
  simp [State.slot, State.setSlot]

/-- Replacing one slot leaves every other slot of the package as it was. -/
theorem slot_setSlot_ne {c k d j : Nat} (x : Slot) (h : (d, j) ≠ (c, k)) : (s.setSlot c k x).slot d j = s.slot d j := by
  by_cases hd : d = c
  · subst hd
    have hj : j ≠ k := fun e => h (by rw [e])
    simp [State.slot, State.setSlot, mapGet_mapSet_ne _ _ _ hj]
  · simp [State.slot, State.setSlot, core_setCore_ne _ _ hd]

@[simp] theorem me_setMe (x : Slot) : (s.setMe x).me = x := by
  show (s.setSlot s.cur.1 s.cur.2 x).slot s.cur.1 s.cur.2 = x
  simp

/-- Replacing the current slot leaves every other slot as it was. -/
theorem slot_setMe_ne {c k : Nat} (x : Slot) (h : (c, k) ≠ s.cur) : (s.setMe x).slot c k = s.slot c k :=
  slot_setSlot_ne s x (by simpa using h)

@[simp] theorem setMe_core_ne {c : Nat} (x : Slot) (h : c ≠ s.cur.1) : (s.setMe x).core c = s.core c :=
  core_setCore_ne s _ h

@[simp] theorem cluster_setCluster_self (p : Nat) (x : Cluster) : (s.setCluster p x).cluster p = x := by
  simp [State.cluster, State.setCluster]

theorem cluster_setCluster_ne {p q : Nat} (x : Cluster) (h : q ≠ p) : (s.setCluster p x).cluster q = s.cluster q := by
  simp [State.cluster, State.setCluster, mapGet_mapSet_ne _ _ _ h]

@[simp] theorem die_setDie_self (d : Nat) (x : Die) : (s.setDie d x).die d = x := by
  simp [State.die, State.setDie]

theorem die_setDie_ne {d e : Nat} (x : Die) (h : e ≠ d) : (s.setDie d x).die e = s.die e := by
  simp [State.die, State.setDie, mapGet_mapSet_ne _ _ _ h]

@[simp] theorem part_setPart_self (p : Nat) (x : Partition) : (s.setPart p x).part p = x := by
  simp [State.part, State.setPart]

theorem part_setPart_ne {p q : Nat} (x : Partition) (h : q ≠ p) : (s.setPart p x).part q = s.part q := by
  simp [State.part, State.setPart, mapGet_mapSet_ne _ _ _ h]

@[simp] theorem setMe_setMe (x y : Slot) : (s.setMe x).setMe y = s.setMe y := by
  have h : ∀ {α : Type} (m : Map α) (k : Nat) (a b : α), mapSet (mapSet m k a) k b = mapSet m k b := by
    intro α m k a b
    induction m with
    | nil => simp [mapSet]
    | cons e m ih =>
      obtain ⟨j, c⟩ := e
      by_cases h1 : j < k
      · simp [mapSet, h1, ih]
      · by_cases h2 : j = k <;> simp [mapSet, h1, h2]
  simp [State.setMe, State.setSlot, State.setCore, State.core, h]

end Sys2Proof.Machine
end

