-- ==== Sys2Proof/Laws/Issue.lean ====
section
/-!
SUPPORT. Laws of the shared operations of issue: what a word that can issue does, what one that waits, traps or fails does,
what plain sources take away, and the MBT records of a slot that is not traced.
-/

namespace Sys2Proof.Machine

/-! ### Sources that can be read neither wait nor fail -/

theorem vals_reason {x : Avail} {v : Vals} (h : x.vals = some v) : x.reason = none := by
  unfold Avail.vals at h
  split at h
  · next ha hb hc hk hva hvb hvc =>
    have key : ∀ {α : Type} {g : Got α} {a : α}, g.val? = some a → g.reason? = none := by
      intro α g a hg; cases g <;> simp_all [Got.val?, Got.reason?]
    simp [Avail.reason, firstOf, key ha, key hb, key hc, key hk, key hva, key hvb, key hvc]
  · cases h

theorem vals_fail {x : Avail} {v : Vals} (h : x.vals = some v) : x.fail = none := by
  unfold Avail.vals at h
  split at h
  · next ha hb hc hk _ _ _ =>
    have key : ∀ {α : Type} {g : Got α} {a : α}, g.val? = some a → g.fail? = none := by
      intro α g a hg; cases g <;> simp_all [Got.val?, Got.fail?]
    simp [Avail.fail, firstOf, key ha, key hb, key hc, key hk]
  · cases h

theorem vals_trap {x : Avail} {v : Vals} (h : x.vals = some v) : x.trap = none := by
  unfold Avail.vals at h
  split at h
  · next ha hb hc hk _ _ _ =>
    have key : ∀ {α : Type} {g : Got α} {a : α}, g.val? = some a → g.fail? = none := by
      intro α g a hg; cases g <;> simp_all [Got.val?, Got.fail?]
    simp [Avail.trap, firstOf, key ha, key hb, key hc, key hk]
  · cases h

theorem vals_poison {x : Avail} {v : Vals} (h : x.vals = some v) : x.poison = false := by
  unfold Avail.vals at h
  split at h
  · next ha hb hc hk _ _ _ =>
    have key : ∀ {g : Got W64} {a : W64}, g.val? = some a → (g == .poison) = false := by
      intro g a hg; cases g <;> simp_all [Got.val?]
    simp [Avail.poison, key ha, key hb, key hc, key hk]
  · cases h

/-! ### Issue -/

/-- A word that can issue, none of whose own checks fails, does its own part. -/
theorem issue_poised {stall : BitVec 3} {f : Form} {ck : Checks} {body : State → Vals → Act} {s : State} {v : Vals}
    (h : Poised s f v) (hpre : ck.pre s (avail s f) = none) (hmid : ck.mid s (avail s f) = none) :
    issue stall f ck body s = .next (conclude s f.d stall.toNat (body (consumeAll s f) v)) := by
  have ht : firstTrap s f ck (avail s f) = none := by
    simp [firstTrap, hpre, hmid, h.tags, h.links, h.neighbours, h.timely, operandTrap, vals_trap h.values, h.place, firstOf]
  simp [issue, h.thread, ht, vals_reason h.values, vals_fail h.values, vals_poison h.values, h.free, h.place, firstOf,
    h.values]

/-- A word without checks of its own that can issue does its own part. -/
theorem issue_noChecks {stall : BitVec 3} {f : Form} {body : State → Vals → Act} {s : State} {v : Vals}
    (h : Poised s f v) :
    issue stall f noChecks body s = .next (conclude s f.d stall.toNat (body (consumeAll s f) v)) :=
  issue_poised h rfl rfl

/-- A word whose own part delivers a result leaves the state that `delivers` names. -/
theorem issue_delivers {stall : BitVec 3} {f : Form} {ck : Checks} {body : State → Vals → Act} {s : State} {v : Vals}
    {r : Result} {p : Pos} {sn : Bool} (h : Poised s f v) (hpre : ck.pre s (avail s f) = none)
    (hmid : ck.mid s (avail s f) = none) (hb : body (consumeAll s f) v = .done (consumeAll s f) r p sn) :
    issue stall f ck body s = .next (delivers s f stall r p sn) := by
  rw [issue_poised h hpre hmid, hb]
  simp [conclude, h.agrees, delivers]

/-- A trap comes before everything else that a word may do (R88, R89), where the checker agrees with it (R134). -/
theorem issue_trap {stall : BitVec 3} {f : Form} {ck : Checks} {body : State → Vals → Act} {s : State} {t : Trap}
    (hm : s.me.mayIssue = true) (hs : s.me.suspect = false) (ht : firstTrap s f ck (avail s f) = some t) :
    issue stall f ck body s = .next (trapHere s t) := by
  simp [issue, hm, ht, hs]

/-- The checks of R89's first group come first. -/
theorem firstTrap_pre {s : State} {f : Form} {ck : Checks} {x : Avail} {t : Trap} (h : ck.pre s x = some t) :
    firstTrap s f ck x = some t := by
  simp [firstTrap, h, firstOf]

/-- A word whose append needs no walk parks without one. -/
theorem parkOperands_plain {s : State} {f : Form} {x : Avail} {r : Reason} (h : appendWalk s f.d = none) :
    parkOperands s f x r = parkHere s r := by
  unfold parkOperands
  rw [h]
  split <;> first | rfl | simp_all

/-- A word that waits leaves the slot parked, unissued. -/
theorem issue_wait {stall : BitVec 3} {f : Form} {ck : Checks} {body : State → Vals → Act} {s : State} {r : Reason}
    (hm : s.me.mayIssue = true) (ht : firstTrap s f ck (avail s f) = none)
    (hr : firstOf [(avail s f).reason, destReason s f.d] = some r) :
    issue stall f ck body s = .next (parkOperands s f (avail s f) r) := by
  simp [issue, hm, ht, hr]

/-- A slot that holds no thread that may issue issues nothing. -/
theorem issue_noThread {stall : BitVec 3} {f : Form} {ck : Checks} {body : State → Vals → Act} {s : State}
    (hm : s.me.mayIssue = false) : issue stall f ck body s = .fault .noThread := by
  simp [issue, hm]

/-- Where a slot may issue, issuing answers a next state. -/
theorem issue_next {stall : BitVec 3} {f : Form} {ck : Checks} {body : State → Vals → Act} {s : State}
    (hm : s.me.mayIssue = true) : ∃ t, issue stall f ck body s = .next t := by
  unfold issue
  rw [if_neg (by simp [hm])]
  dsimp only
  repeat' split
  all_goals exact ⟨_, rfl⟩

/-! ### What sources take away -/

/-- A plain source takes nothing away. -/
theorem consume_plain {s : State} {x : Opnd} (h : x.isPlain = true) : consume s x = s := by
  unfold consume
  split <;> simp_all [Opnd.isPlain, Src.isPlain]

/-- Plain sources take nothing away. -/
theorem consumeAll_plain {s : State} {f : Form} (h : f.isPlain = true) : consumeAll s f = s := by
  simp only [Form.isPlain, Bool.and_eq_true] at h
  simp [consumeAll, consume_plain, h]

/-- Plain sources carry no TOPX. -/
theorem topxDiffers_plain {s : State} {f : Form} (h : f.isPlain = true) : topxDiffers s f = false := by
  simp only [Form.isPlain, Bool.and_eq_true] at h
  have key : ∀ x : Opnd, x.isPlain = true → ∀ i, x ≠ .s (.m i) := by
    rintro x hx i rfl; simp [Opnd.isPlain, Src.isPlain] at hx
  simp only [topxDiffers, Bool.or_eq_false_iff]
  refine ⟨⟨⟨?_, ?_⟩, ?_⟩, ?_⟩
  all_goals
    split
    · next i heq => exact absurd heq (key _ (by simp [h]) i)
    · rfl

/-! ### The MBT of a slot that is not traced -/

@[simp] theorem traceIf_false (s : State) (c k ty a b : Nat) : traceIf false s c k ty a b = s := by simp [traceIf]

theorem traceRec_off {s : State} {c k ty a b : Nat} (h : (s.slot c k).trace = false) : traceRec s c k ty a b = s := by
  simp [traceRec, h]

theorem traceUnpark_off {s : State} {c k : Nat} (h : (s.slot c k).trace = false) : traceUnpark s c k = s := by
  unfold traceUnpark; split <;> simp [traceRec_off h]

theorem traceExit_off {s : State} {c k i : Nat} (h : (s.slot c k).trace = false) : traceExit s c k i = s := by
  unfold traceExit; simp [traceRec_off h]

@[simp] theorem noteSnan_trace (x : Slot) (b : Bool) : (x.noteSnan b).trace = x.trace := by
  cases b <;> simp [Slot.noteSnan, Slot.trace]

/-! ### A word without a result -/

@[simp] theorem writeResult_none (s : State) (d : Dest) : writeResult s d .none = s := by
  unfold writeResult; split <;> first | rfl | simp_all

/-- A word that ends with control at the next word, on a slot that is not traced. -/
theorem finish_seq {s : State} {d : Dest} {stall : Nat} {r : Result} (h : (writeResult s d r).me.trace = false) :
    finish s d stall r .seq false =
      (writeResult s d r).setMe { (writeResult s d r).me.issued stall with idx := (writeResult s d r).me.idx + 1 } := by
  simp only [finish, moveOn]
  have h' : ((writeResult s d r).slot (writeResult s d r).cur.1 (writeResult s d r).cur.2).trace = false := h
  simp [traceUnpark_off h']

end Sys2Proof.Machine
end

