-- ==== Sys2Proof/Laws/Consume.lean ====
section
/-!
SUPPORT. Laws of reading sources: what taking an element from a stream, a message register or a link leaves alone (R42,
R170, R182, R220).
-/

namespace Sys2Proof.Machine

variable (s : State)

/-- A core replaced by one with the same slots leaves every slot as it was. -/
theorem slot_setCore {c : Nat} {x : Core} (h : x.slots = (s.core c).slots) (d k : Nat) : (s.setCore c x).slot d k = s.slot d k := by
  by_cases hd : d = c
  · subst hd; simp [State.slot, h]
  · simp [State.slot, core_setCore_ne _ _ hd]

/-- A link FIFO replaced leaves every slot as it was. -/
@[simp] theorem setLinkFifo_slot (c : Nat) (d : Dir) (t : Thread) (f : LinkFifo) (e k : Nat) :
    (setLinkFifo s c d t f).slot e k = s.slot e k := slot_setCore s (by rfl) e k

@[simp] theorem setLinkFifo_cur (c : Nat) (d : Dir) (t : Thread) (f : LinkFifo) : (setLinkFifo s c d t f).cur = s.cur := rfl

@[simp] theorem setLinkFifo_me (c : Nat) (d : Dir) (t : Thread) (f : LinkFifo) : (setLinkFifo s c d t f).me = s.me :=
  setLinkFifo_slot s c d t f s.cur.1 s.cur.2

@[simp] theorem takeMessage_cur (c k reg : Nat) : (takeMessage s c k reg).cur = s.cur := by
  unfold takeMessage; dsimp only; split <;> simp

/-- A message taken changes the message registers of its slot alone. -/
theorem takeMessage_slot (c k reg : Nat) :
    ∃ m, (takeMessage s c k reg).slot c k = { s.slot c k with m := m } := by
  unfold takeMessage; dsimp only
  split
  · exact ⟨_, (slot_setCore _ (by rfl) c k).trans (slot_setSlot_self _ _ _ _)⟩
  · exact ⟨_, slot_setSlot_self _ _ _ _⟩

/-- What reading one source changes of the slot: its streams, its status and its message registers. -/
theorem consume_me (x : Opnd) :
    (consume s x).cur = s.cur ∧
      ∃ b w m, (consume s x).me = { s.me with streams := b, status := w, m := m } := by
  unfold consume
  split
  · dsimp only
    split
    · exact ⟨rfl, _, _, _, me_setMe _ _⟩
    · exact ⟨rfl, _, _, _, me_setMe _ _⟩
  · refine ⟨takeMessage_cur _ _ _ _, ?_⟩
    obtain ⟨m, hm⟩ := takeMessage_slot s s.cur.1 s.cur.2 (Fin.val ‹_›)
    exact ⟨_, _, m, by rw [State.me, takeMessage_cur, hm]; rfl⟩
  · split
    · exact ⟨rfl, _, _, _, setLinkFifo_me _ _ _ _ _⟩
    · exact ⟨rfl, _, _, _, rfl⟩
  · exact ⟨rfl, _, _, _, rfl⟩

@[simp] theorem consume_cur (x : Opnd) : (consume s x).cur = s.cur := (consume_me s x).1

@[simp] theorem consume_st_ (x : Opnd) : (consume s x).me.st = s.me.st := by
  obtain ⟨-, _, _, _, h⟩ := consume_me s x; rw [h]
@[simp] theorem consume_lent_ (x : Opnd) : (consume s x).me.lent = s.me.lent := by
  obtain ⟨-, _, _, _, h⟩ := consume_me s x; rw [h]
@[simp] theorem consume_faultedBy_ (x : Opnd) : (consume s x).me.faultedBy = s.me.faultedBy := by
  obtain ⟨-, _, _, _, h⟩ := consume_me s x; rw [h]
@[simp] theorem consume_thread_ (x : Opnd) : (consume s x).me.thread = s.me.thread := by
  obtain ⟨-, _, _, _, h⟩ := consume_me s x; rw [h]
@[simp] theorem consume_q_ (x : Opnd) : (consume s x).me.q = s.me.q := by
  obtain ⟨-, _, _, _, h⟩ := consume_me s x; rw [h]
@[simp] theorem consume_n_ (x : Opnd) : (consume s x).me.n = s.me.n := by
  obtain ⟨-, _, _, _, h⟩ := consume_me s x; rw [h]
@[simp] theorem consume_v_ (x : Opnd) : (consume s x).me.v = s.me.v := by
  obtain ⟨-, _, _, _, h⟩ := consume_me s x; rw [h]
@[simp] theorem consume_fmt_ (x : Opnd) : (consume s x).me.fmt = s.me.fmt := by
  obtain ⟨-, _, _, _, h⟩ := consume_me s x; rw [h]
@[simp] theorem consume_tvec_ (x : Opnd) : (consume s x).me.tvec = s.me.tvec := by
  obtain ⟨-, _, _, _, h⟩ := consume_me s x; rw [h]
@[simp] theorem consume_tcause_ (x : Opnd) : (consume s x).me.tcause = s.me.tcause := by
  obtain ⟨-, _, _, _, h⟩ := consume_me s x; rw [h]
@[simp] theorem consume_tepc_ (x : Opnd) : (consume s x).me.tepc = s.me.tepc := by
  obtain ⟨-, _, _, _, h⟩ := consume_me s x; rw [h]
@[simp] theorem consume_cldser_ (x : Opnd) : (consume s x).me.cldser = s.me.cldser := by
  obtain ⟨-, _, _, _, h⟩ := consume_me s x; rw [h]
@[simp] theorem consume_record_ (x : Opnd) : (consume s x).me.record = s.me.record := by
  obtain ⟨-, _, _, _, h⟩ := consume_me s x; rw [h]
@[simp] theorem consume_hdr_ (x : Opnd) : (consume s x).me.hdr = s.me.hdr := by
  obtain ⟨-, _, _, _, h⟩ := consume_me s x; rw [h]
@[simp] theorem consume_idx_ (x : Opnd) : (consume s x).me.idx = s.me.idx := by
  obtain ⟨-, _, _, _, h⟩ := consume_me s x; rw [h]
@[simp] theorem consume_block_ (x : Opnd) : (consume s x).me.block = s.me.block := by
  obtain ⟨-, _, _, _, h⟩ := consume_me s x; rw [h]
@[simp] theorem consume_stall_ (x : Opnd) : (consume s x).me.stall = s.me.stall := by
  obtain ⟨-, _, _, _, h⟩ := consume_me s x; rw [h]
@[simp] theorem consume_since_ (x : Opnd) : (consume s x).me.since = s.me.since := by
  obtain ⟨-, _, _, _, h⟩ := consume_me s x; rw [h]
@[simp] theorem consume_sleepLeft_ (x : Opnd) : (consume s x).me.sleepLeft = s.me.sleepLeft := by
  obtain ⟨-, _, _, _, h⟩ := consume_me s x; rw [h]
@[simp] theorem consume_msgWake_ (x : Opnd) : (consume s x).me.msgWake = s.me.msgWake := by
  obtain ⟨-, _, _, _, h⟩ := consume_me s x; rw [h]
@[simp] theorem consume_retry_ (x : Opnd) : (consume s x).me.retry = s.me.retry := by
  obtain ⟨-, _, _, _, h⟩ := consume_me s x; rw [h]
@[simp] theorem consume_fetcher_ (x : Opnd) : (consume s x).me.fetcher = s.me.fetcher := by
  obtain ⟨-, _, _, _, h⟩ := consume_me s x; rw [h]
@[simp] theorem consume_monitor_ (x : Opnd) : (consume s x).me.monitor = s.me.monitor := by
  obtain ⟨-, _, _, _, h⟩ := consume_me s x; rw [h]
@[simp] theorem consume_arrived_ (x : Opnd) : (consume s x).me.arrived = s.me.arrived := by
  obtain ⟨-, _, _, _, h⟩ := consume_me s x; rw [h]
@[simp] theorem consume_asked_ (x : Opnd) : (consume s x).me.asked = s.me.asked := by
  obtain ⟨-, _, _, _, h⟩ := consume_me s x; rw [h]
@[simp] theorem consume_granted_ (x : Opnd) : (consume s x).me.granted = s.me.granted := by
  obtain ⟨-, _, _, _, h⟩ := consume_me s x; rw [h]
@[simp] theorem consume_owed_ (x : Opnd) : (consume s x).me.owed = s.me.owed := by
  obtain ⟨-, _, _, _, h⟩ := consume_me s x; rw [h]
@[simp] theorem consume_passed_ (x : Opnd) : (consume s x).me.passed = s.me.passed := by
  obtain ⟨-, _, _, _, h⟩ := consume_me s x; rw [h]
@[simp] theorem consume_lastIdx_ (x : Opnd) : (consume s x).me.lastIdx = s.me.lastIdx := by
  obtain ⟨-, _, _, _, h⟩ := consume_me s x; rw [h]

/-! ### Outside the slot -/

@[simp] theorem takeMessage_clk (c k reg : Nat) : (takeMessage s c k reg).clk = s.clk := by
  unfold takeMessage; dsimp only; split <;> rfl
@[simp] theorem consume_clk (x : Opnd) : (consume s x).clk = s.clk := by
  unfold consume; split <;> first | rfl | exact takeMessage_clk _ _ _ _ | (dsimp only; split <;> rfl)
@[simp] theorem takeMessage_free (c k reg : Nat) : (takeMessage s c k reg).free = s.free := by
  unfold takeMessage; dsimp only; split <;> rfl
@[simp] theorem consume_free (x : Opnd) : (consume s x).free = s.free := by
  unfold consume; split <;> first | rfl | exact takeMessage_free _ _ _ _ | (dsimp only; split <;> rfl)
@[simp] theorem takeMessage_fresh (c k reg : Nat) : (takeMessage s c k reg).fresh = s.fresh := by
  unfold takeMessage; dsimp only; split <;> rfl
@[simp] theorem consume_fresh (x : Opnd) : (consume s x).fresh = s.fresh := by
  unfold consume; split <;> first | rfl | exact takeMessage_fresh _ _ _ _ | (dsimp only; split <;> rfl)
@[simp] theorem takeMessage_agenda (c k reg : Nat) : (takeMessage s c k reg).agenda = s.agenda := by
  unfold takeMessage; dsimp only; split <;> rfl
@[simp] theorem consume_agenda (x : Opnd) : (consume s x).agenda = s.agenda := by
  unfold consume; split <;> first | rfl | exact takeMessage_agenda _ _ _ _ | (dsimp only; split <;> rfl)
@[simp] theorem takeMessage_clusters (c k reg : Nat) : (takeMessage s c k reg).clusters = s.clusters := by
  unfold takeMessage; dsimp only; split <;> rfl
@[simp] theorem consume_clusters (x : Opnd) : (consume s x).clusters = s.clusters := by
  unfold consume; split <;> first | rfl | exact takeMessage_clusters _ _ _ _ | (dsimp only; split <;> rfl)
@[simp] theorem takeMessage_dies (c k reg : Nat) : (takeMessage s c k reg).dies = s.dies := by
  unfold takeMessage; dsimp only; split <;> rfl
@[simp] theorem consume_dies (x : Opnd) : (consume s x).dies = s.dies := by
  unfold consume; split <;> first | rfl | exact takeMessage_dies _ _ _ _ | (dsimp only; split <;> rfl)
@[simp] theorem takeMessage_mem (c k reg : Nat) : (takeMessage s c k reg).mem = s.mem := by
  unfold takeMessage; dsimp only; split <;> rfl
@[simp] theorem consume_mem (x : Opnd) : (consume s x).mem = s.mem := by
  unfold consume; split <;> first | rfl | exact takeMessage_mem _ _ _ _ | (dsimp only; split <;> rfl)
@[simp] theorem takeMessage_full (c k reg : Nat) : (takeMessage s c k reg).full = s.full := by
  unfold takeMessage; dsimp only; split <;> rfl
@[simp] theorem consume_full (x : Opnd) : (consume s x).full = s.full := by
  unfold consume; split <;> first | rfl | exact takeMessage_full _ _ _ _ | (dsimp only; split <;> rfl)
@[simp] theorem takeMessage_poison (c k reg : Nat) : (takeMessage s c k reg).poison = s.poison := by
  unfold takeMessage; dsimp only; split <;> rfl
@[simp] theorem consume_poison (x : Opnd) : (consume s x).poison = s.poison := by
  unfold consume; split <;> first | rfl | exact takeMessage_poison _ _ _ _ | (dsimp only; split <;> rfl)
@[simp] theorem takeMessage_side (c k reg : Nat) : (takeMessage s c k reg).side = s.side := by
  unfold takeMessage; dsimp only; split <;> rfl
@[simp] theorem consume_side (x : Opnd) : (consume s x).side = s.side := by
  unfold consume; split <;> first | rfl | exact takeMessage_side _ _ _ _ | (dsimp only; split <;> rfl)
@[simp] theorem takeMessage_faq (c k reg : Nat) : (takeMessage s c k reg).faq = s.faq := by
  unfold takeMessage; dsimp only; split <;> rfl
@[simp] theorem consume_faq (x : Opnd) : (consume s x).faq = s.faq := by
  unfold consume; split <;> first | rfl | exact takeMessage_faq _ _ _ _ | (dsimp only; split <;> rfl)
@[simp] theorem takeMessage_faqOvf (c k reg : Nat) : (takeMessage s c k reg).faqOvf = s.faqOvf := by
  unfold takeMessage; dsimp only; split <;> rfl
@[simp] theorem consume_faqOvf (x : Opnd) : (consume s x).faqOvf = s.faqOvf := by
  unfold consume; split <;> first | rfl | exact takeMessage_faqOvf _ _ _ _ | (dsimp only; split <;> rfl)
@[simp] theorem takeMessage_res (c k reg : Nat) : (takeMessage s c k reg).res = s.res := by
  unfold takeMessage; dsimp only; split <;> rfl
@[simp] theorem consume_res (x : Opnd) : (consume s x).res = s.res := by
  unfold consume; split <;> first | rfl | exact takeMessage_res _ _ _ _ | (dsimp only; split <;> rfl)
@[simp] theorem takeMessage_windows (c k reg : Nat) : (takeMessage s c k reg).windows = s.windows := by
  unfold takeMessage; dsimp only; split <;> rfl
@[simp] theorem consume_windows (x : Opnd) : (consume s x).windows = s.windows := by
  unfold consume; split <;> first | rfl | exact takeMessage_windows _ _ _ _ | (dsimp only; split <;> rfl)
@[simp] theorem takeMessage_aliases (c k reg : Nat) : (takeMessage s c k reg).aliases = s.aliases := by
  unfold takeMessage; dsimp only; split <;> rfl
@[simp] theorem consume_aliases (x : Opnd) : (consume s x).aliases = s.aliases := by
  unfold consume; split <;> first | rfl | exact takeMessage_aliases _ _ _ _ | (dsimp only; split <;> rfl)
@[simp] theorem takeMessage_asrec (c k reg : Nat) : (takeMessage s c k reg).asrec = s.asrec := by
  unfold takeMessage; dsimp only; split <;> rfl
@[simp] theorem consume_asrec (x : Opnd) : (consume s x).asrec = s.asrec := by
  unfold consume; split <;> first | rfl | exact takeMessage_asrec _ _ _ _ | (dsimp only; split <;> rfl)
@[simp] theorem takeMessage_parts (c k reg : Nat) : (takeMessage s c k reg).parts = s.parts := by
  unfold takeMessage; dsimp only; split <;> rfl
@[simp] theorem consume_parts (x : Opnd) : (consume s x).parts = s.parts := by
  unfold consume; split <;> first | rfl | exact takeMessage_parts _ _ _ _ | (dsimp only; split <;> rfl)
@[simp] theorem takeMessage_launches (c k reg : Nat) : (takeMessage s c k reg).launches = s.launches := by
  unfold takeMessage; dsimp only; split <;> rfl
@[simp] theorem consume_launches (x : Opnd) : (consume s x).launches = s.launches := by
  unfold consume; split <;> first | rfl | exact takeMessage_launches _ _ _ _ | (dsimp only; split <;> rfl)
@[simp] theorem takeMessage_accepted (c k reg : Nat) : (takeMessage s c k reg).accepted = s.accepted := by
  unfold takeMessage; dsimp only; split <;> rfl
@[simp] theorem consume_accepted (x : Opnd) : (consume s x).accepted = s.accepted := by
  unfold consume; split <;> first | rfl | exact takeMessage_accepted _ _ _ _ | (dsimp only; split <;> rfl)
@[simp] theorem takeMessage_placed (c k reg : Nat) : (takeMessage s c k reg).placed = s.placed := by
  unfold takeMessage; dsimp only; split <;> rfl
@[simp] theorem consume_placed (x : Opnd) : (consume s x).placed = s.placed := by
  unfold consume; split <;> first | rfl | exact takeMessage_placed _ _ _ _ | (dsimp only; split <;> rfl)
@[simp] theorem takeMessage_lastClear (c k reg : Nat) : (takeMessage s c k reg).lastClear = s.lastClear := by
  unfold takeMessage; dsimp only; split <;> rfl
@[simp] theorem consume_lastClear (x : Opnd) : (consume s x).lastClear = s.lastClear := by
  unfold consume; split <;> first | rfl | exact takeMessage_lastClear _ _ _ _ | (dsimp only; split <;> rfl)
@[simp] theorem takeMessage_gangs (c k reg : Nat) : (takeMessage s c k reg).gangs = s.gangs := by
  unfold takeMessage; dsimp only; split <;> rfl
@[simp] theorem consume_gangs (x : Opnd) : (consume s x).gangs = s.gangs := by
  unfold consume; split <;> first | rfl | exact takeMessage_gangs _ _ _ _ | (dsimp only; split <;> rfl)
@[simp] theorem takeMessage_saved (c k reg : Nat) : (takeMessage s c k reg).saved = s.saved := by
  unfold takeMessage; dsimp only; split <;> rfl
@[simp] theorem consume_saved (x : Opnd) : (consume s x).saved = s.saved := by
  unfold consume; split <;> first | rfl | exact takeMessage_saved _ _ _ _ | (dsimp only; split <;> rfl)
@[simp] theorem takeMessage_policy (c k reg : Nat) : (takeMessage s c k reg).policy = s.policy := by
  unfold takeMessage; dsimp only; split <;> rfl
@[simp] theorem consume_policy (x : Opnd) : (consume s x).policy = s.policy := by
  unfold consume; split <;> first | rfl | exact takeMessage_policy _ _ _ _ | (dsimp only; split <;> rfl)
@[simp] theorem takeMessage_svcCores (c k reg : Nat) : (takeMessage s c k reg).svcCores = s.svcCores := by
  unfold takeMessage; dsimp only; split <;> rfl
@[simp] theorem consume_svcCores (x : Opnd) : (consume s x).svcCores = s.svcCores := by
  unfold consume; split <;> first | rfl | exact takeMessage_svcCores _ _ _ _ | (dsimp only; split <;> rfl)
@[simp] theorem takeMessage_commands (c k reg : Nat) : (takeMessage s c k reg).commands = s.commands := by
  unfold takeMessage; dsimp only; split <;> rfl
@[simp] theorem consume_commands (x : Opnd) : (consume s x).commands = s.commands := by
  unfold consume; split <;> first | rfl | exact takeMessage_commands _ _ _ _ | (dsimp only; split <;> rfl)
@[simp] theorem takeMessage_posted (c k reg : Nat) : (takeMessage s c k reg).posted = s.posted := by
  unfold takeMessage; dsimp only; split <;> rfl
@[simp] theorem consume_posted (x : Opnd) : (consume s x).posted = s.posted := by
  unfold consume; split <;> first | rfl | exact takeMessage_posted _ _ _ _ | (dsimp only; split <;> rfl)
@[simp] theorem takeMessage_flits (c k reg : Nat) : (takeMessage s c k reg).flits = s.flits := by
  unfold takeMessage; dsimp only; split <;> rfl
@[simp] theorem consume_flits (x : Opnd) : (consume s x).flits = s.flits := by
  unfold consume; split <;> first | rfl | exact takeMessage_flits _ _ _ _ | (dsimp only; split <;> rfl)
@[simp] theorem takeMessage_reds (c k reg : Nat) : (takeMessage s c k reg).reds = s.reds := by
  unfold takeMessage; dsimp only; split <;> rfl
@[simp] theorem consume_reds (x : Opnd) : (consume s x).reds = s.reds := by
  unfold consume; split <;> first | rfl | exact takeMessage_reds _ _ _ _ | (dsimp only; split <;> rfl)
@[simp] theorem takeMessage_coll (c k reg : Nat) : (takeMessage s c k reg).coll = s.coll := by
  unfold takeMessage; dsimp only; split <;> rfl
@[simp] theorem consume_coll (x : Opnd) : (consume s x).coll = s.coll := by
  unfold consume; split <;> first | rfl | exact takeMessage_coll _ _ _ _ | (dsimp only; split <;> rfl)
@[simp] theorem takeMessage_gqclms (c k reg : Nat) : (takeMessage s c k reg).gqclms = s.gqclms := by
  unfold takeMessage; dsimp only; split <;> rfl
@[simp] theorem consume_gqclms (x : Opnd) : (consume s x).gqclms = s.gqclms := by
  unfold consume; split <;> first | rfl | exact takeMessage_gqclms _ _ _ _ | (dsimp only; split <;> rfl)
@[simp] theorem takeMessage_ports (c k reg : Nat) : (takeMessage s c k reg).ports = s.ports := by
  unfold takeMessage; dsimp only; split <;> rfl
@[simp] theorem consume_ports (x : Opnd) : (consume s x).ports = s.ports := by
  unfold consume; split <;> first | rfl | exact takeMessage_ports _ _ _ _ | (dsimp only; split <;> rfl)
@[simp] theorem takeMessage_fns (c k reg : Nat) : (takeMessage s c k reg).fns = s.fns := by
  unfold takeMessage; dsimp only; split <;> rfl
@[simp] theorem consume_fns (x : Opnd) : (consume s x).fns = s.fns := by
  unfold consume; split <;> first | rfl | exact takeMessage_fns _ _ _ _ | (dsimp only; split <;> rfl)
@[simp] theorem takeMessage_hostMem (c k reg : Nat) : (takeMessage s c k reg).hostMem = s.hostMem := by
  unfold takeMessage; dsimp only; split <;> rfl
@[simp] theorem consume_hostMem (x : Opnd) : (consume s x).hostMem = s.hostMem := by
  unfold consume; split <;> first | rfl | exact takeMessage_hostMem _ _ _ _ | (dsimp only; split <;> rfl)
@[simp] theorem takeMessage_boot (c k reg : Nat) : (takeMessage s c k reg).boot = s.boot := by
  unfold takeMessage; dsimp only; split <;> rfl
@[simp] theorem consume_boot (x : Opnd) : (consume s x).boot = s.boot := by
  unfold consume; split <;> first | rfl | exact takeMessage_boot _ _ _ _ | (dsimp only; split <;> rfl)
@[simp] theorem takeMessage_clockMHz (c k reg : Nat) : (takeMessage s c k reg).clockMHz = s.clockMHz := by
  unfold takeMessage; dsimp only; split <;> rfl
@[simp] theorem consume_clockMHz (x : Opnd) : (consume s x).clockMHz = s.clockMHz := by
  unfold consume; split <;> first | rfl | exact takeMessage_clockMHz _ _ _ _ | (dsimp only; split <;> rfl)

/-! ### All the sources of a word -/

@[simp] theorem consumeAll_cur (f : Form) : (consumeAll s f).cur = s.cur := by simp [consumeAll]
@[simp] theorem consumeAll_st_ (f : Form) : (consumeAll s f).me.st = s.me.st := by simp [consumeAll]
@[simp] theorem consumeAll_lent_ (f : Form) : (consumeAll s f).me.lent = s.me.lent := by simp [consumeAll]
@[simp] theorem consumeAll_faultedBy_ (f : Form) : (consumeAll s f).me.faultedBy = s.me.faultedBy := by simp [consumeAll]
@[simp] theorem consumeAll_thread_ (f : Form) : (consumeAll s f).me.thread = s.me.thread := by simp [consumeAll]
@[simp] theorem consumeAll_q_ (f : Form) : (consumeAll s f).me.q = s.me.q := by simp [consumeAll]
@[simp] theorem consumeAll_n_ (f : Form) : (consumeAll s f).me.n = s.me.n := by simp [consumeAll]
@[simp] theorem consumeAll_v_ (f : Form) : (consumeAll s f).me.v = s.me.v := by simp [consumeAll]
@[simp] theorem consumeAll_fmt_ (f : Form) : (consumeAll s f).me.fmt = s.me.fmt := by simp [consumeAll]
@[simp] theorem consumeAll_tvec_ (f : Form) : (consumeAll s f).me.tvec = s.me.tvec := by simp [consumeAll]
@[simp] theorem consumeAll_tcause_ (f : Form) : (consumeAll s f).me.tcause = s.me.tcause := by simp [consumeAll]
@[simp] theorem consumeAll_tepc_ (f : Form) : (consumeAll s f).me.tepc = s.me.tepc := by simp [consumeAll]
@[simp] theorem consumeAll_cldser_ (f : Form) : (consumeAll s f).me.cldser = s.me.cldser := by simp [consumeAll]
@[simp] theorem consumeAll_record_ (f : Form) : (consumeAll s f).me.record = s.me.record := by simp [consumeAll]
@[simp] theorem consumeAll_hdr_ (f : Form) : (consumeAll s f).me.hdr = s.me.hdr := by simp [consumeAll]
@[simp] theorem consumeAll_idx_ (f : Form) : (consumeAll s f).me.idx = s.me.idx := by simp [consumeAll]
@[simp] theorem consumeAll_block_ (f : Form) : (consumeAll s f).me.block = s.me.block := by simp [consumeAll]
@[simp] theorem consumeAll_stall_ (f : Form) : (consumeAll s f).me.stall = s.me.stall := by simp [consumeAll]
@[simp] theorem consumeAll_since_ (f : Form) : (consumeAll s f).me.since = s.me.since := by simp [consumeAll]
@[simp] theorem consumeAll_sleepLeft_ (f : Form) : (consumeAll s f).me.sleepLeft = s.me.sleepLeft := by simp [consumeAll]
@[simp] theorem consumeAll_msgWake_ (f : Form) : (consumeAll s f).me.msgWake = s.me.msgWake := by simp [consumeAll]
@[simp] theorem consumeAll_retry_ (f : Form) : (consumeAll s f).me.retry = s.me.retry := by simp [consumeAll]
@[simp] theorem consumeAll_fetcher_ (f : Form) : (consumeAll s f).me.fetcher = s.me.fetcher := by simp [consumeAll]
@[simp] theorem consumeAll_monitor_ (f : Form) : (consumeAll s f).me.monitor = s.me.monitor := by simp [consumeAll]
@[simp] theorem consumeAll_arrived_ (f : Form) : (consumeAll s f).me.arrived = s.me.arrived := by simp [consumeAll]
@[simp] theorem consumeAll_asked_ (f : Form) : (consumeAll s f).me.asked = s.me.asked := by simp [consumeAll]
@[simp] theorem consumeAll_granted_ (f : Form) : (consumeAll s f).me.granted = s.me.granted := by simp [consumeAll]
@[simp] theorem consumeAll_owed_ (f : Form) : (consumeAll s f).me.owed = s.me.owed := by simp [consumeAll]
@[simp] theorem consumeAll_passed_ (f : Form) : (consumeAll s f).me.passed = s.me.passed := by simp [consumeAll]
@[simp] theorem consumeAll_lastIdx_ (f : Form) : (consumeAll s f).me.lastIdx = s.me.lastIdx := by simp [consumeAll]
@[simp] theorem consumeAll_clk (f : Form) : (consumeAll s f).clk = s.clk := by simp [consumeAll]
@[simp] theorem consumeAll_free (f : Form) : (consumeAll s f).free = s.free := by simp [consumeAll]
@[simp] theorem consumeAll_fresh (f : Form) : (consumeAll s f).fresh = s.fresh := by simp [consumeAll]
@[simp] theorem consumeAll_agenda (f : Form) : (consumeAll s f).agenda = s.agenda := by simp [consumeAll]
@[simp] theorem consumeAll_clusters (f : Form) : (consumeAll s f).clusters = s.clusters := by simp [consumeAll]
@[simp] theorem consumeAll_dies (f : Form) : (consumeAll s f).dies = s.dies := by simp [consumeAll]
@[simp] theorem consumeAll_mem (f : Form) : (consumeAll s f).mem = s.mem := by simp [consumeAll]
@[simp] theorem consumeAll_full (f : Form) : (consumeAll s f).full = s.full := by simp [consumeAll]
@[simp] theorem consumeAll_poison (f : Form) : (consumeAll s f).poison = s.poison := by simp [consumeAll]
@[simp] theorem consumeAll_side (f : Form) : (consumeAll s f).side = s.side := by simp [consumeAll]
@[simp] theorem consumeAll_faq (f : Form) : (consumeAll s f).faq = s.faq := by simp [consumeAll]
@[simp] theorem consumeAll_faqOvf (f : Form) : (consumeAll s f).faqOvf = s.faqOvf := by simp [consumeAll]
@[simp] theorem consumeAll_res (f : Form) : (consumeAll s f).res = s.res := by simp [consumeAll]
@[simp] theorem consumeAll_windows (f : Form) : (consumeAll s f).windows = s.windows := by simp [consumeAll]
@[simp] theorem consumeAll_aliases (f : Form) : (consumeAll s f).aliases = s.aliases := by simp [consumeAll]
@[simp] theorem consumeAll_asrec (f : Form) : (consumeAll s f).asrec = s.asrec := by simp [consumeAll]
@[simp] theorem consumeAll_parts (f : Form) : (consumeAll s f).parts = s.parts := by simp [consumeAll]
@[simp] theorem consumeAll_launches (f : Form) : (consumeAll s f).launches = s.launches := by simp [consumeAll]
@[simp] theorem consumeAll_accepted (f : Form) : (consumeAll s f).accepted = s.accepted := by simp [consumeAll]
@[simp] theorem consumeAll_placed (f : Form) : (consumeAll s f).placed = s.placed := by simp [consumeAll]
@[simp] theorem consumeAll_lastClear (f : Form) : (consumeAll s f).lastClear = s.lastClear := by simp [consumeAll]
@[simp] theorem consumeAll_gangs (f : Form) : (consumeAll s f).gangs = s.gangs := by simp [consumeAll]
@[simp] theorem consumeAll_saved (f : Form) : (consumeAll s f).saved = s.saved := by simp [consumeAll]
@[simp] theorem consumeAll_policy (f : Form) : (consumeAll s f).policy = s.policy := by simp [consumeAll]
@[simp] theorem consumeAll_svcCores (f : Form) : (consumeAll s f).svcCores = s.svcCores := by simp [consumeAll]
@[simp] theorem consumeAll_commands (f : Form) : (consumeAll s f).commands = s.commands := by simp [consumeAll]
@[simp] theorem consumeAll_posted (f : Form) : (consumeAll s f).posted = s.posted := by simp [consumeAll]
@[simp] theorem consumeAll_flits (f : Form) : (consumeAll s f).flits = s.flits := by simp [consumeAll]
@[simp] theorem consumeAll_reds (f : Form) : (consumeAll s f).reds = s.reds := by simp [consumeAll]
@[simp] theorem consumeAll_coll (f : Form) : (consumeAll s f).coll = s.coll := by simp [consumeAll]
@[simp] theorem consumeAll_gqclms (f : Form) : (consumeAll s f).gqclms = s.gqclms := by simp [consumeAll]
@[simp] theorem consumeAll_ports (f : Form) : (consumeAll s f).ports = s.ports := by simp [consumeAll]
@[simp] theorem consumeAll_fns (f : Form) : (consumeAll s f).fns = s.fns := by simp [consumeAll]
@[simp] theorem consumeAll_hostMem (f : Form) : (consumeAll s f).hostMem = s.hostMem := by simp [consumeAll]
@[simp] theorem consumeAll_boot (f : Form) : (consumeAll s f).boot = s.boot := by simp [consumeAll]
@[simp] theorem consumeAll_clockMHz (f : Form) : (consumeAll s f).clockMHz = s.clockMHz := by simp [consumeAll]

end Sys2Proof.Machine
end

