-- ==== Sys2Proof/Laws/Memory.lean ====
section
/-!
SUPPORT. Laws of sparse memory: reading after writing, and that every memory operation keeps the canonical form.
-/

namespace Sys2Proof.Machine

/-! ### The canonical form -/

theorem cellsAbove_mono {w : Nat} {lo hi : Nat} (h : lo ≤ hi) {m : List (Nat × BitVec w)} (hm : cellsAbove hi m = true) :
    cellsAbove lo m = true := by
  cases m with
  | nil => rfl
  | cons e m => simp only [cellsAbove, Bool.and_eq_true, decide_eq_true_eq] at hm ⊢; exact ⟨⟨by omega, hm.1.2⟩, hm.2⟩

/-- An address below every listed one reads as zero. -/
theorem cellGet_below {w : Nat} {lo a : Nat} {m : List (Nat × BitVec w)} (hm : cellsAbove lo m = true) (h : a < lo) :
    cellGet m a = 0 := by
  induction m generalizing lo with
  | nil => rfl
  | cons e m ih =>
    simp only [cellsAbove, Bool.and_eq_true, decide_eq_true_eq] at hm
    simp only [cellGet]
    rw [if_neg (by omega), ih hm.2 (by omega)]

theorem filter_above {w : Nat} {lo : Nat} (p : Nat × BitVec w → Bool) {m : List (Nat × BitVec w)}
    (hm : cellsAbove lo m = true) : cellsAbove lo (m.filter p) = true := by
  induction m generalizing lo with
  | nil => rfl
  | cons e m ih =>
    simp only [cellsAbove, Bool.and_eq_true, decide_eq_true_eq] at hm
    by_cases hp : p e = true
    · simp only [List.filter_cons, hp, if_true, cellsAbove, Bool.and_eq_true, decide_eq_true_eq]
      exact ⟨hm.1, ih hm.2⟩
    · simp only [List.filter_cons, hp]
      exact cellsAbove_mono (by omega) (ih hm.2)

/-- A cell that differs from zero, put among cells of other addresses, leaves them rising. -/
theorem cellIns_above {w : Nat} {lo a : Nat} {v : BitVec w} (hv : v ≠ 0) (ha : lo ≤ a) {m : List (Nat × BitVec w)}
    (hm : cellsAbove lo m = true) (hn : ∀ e ∈ m, e.1 ≠ a) : cellsAbove lo (cellIns m a v) = true := by
  induction m generalizing lo with
  | nil => simp_all [cellIns, cellsAbove]
  | cons e m ih =>
    have he : e.1 ≠ a := hn e (by simp)
    simp only [cellsAbove, Bool.and_eq_true, decide_eq_true_eq] at hm
    unfold cellIns
    split
    · simp only [cellsAbove, Bool.and_eq_true, decide_eq_true_eq, bne_iff_ne]
      exact ⟨⟨ha, hv⟩, ⟨by omega, by simpa using hm.1.2⟩, hm.2⟩
    · simp only [cellsAbove, Bool.and_eq_true, decide_eq_true_eq]
      exact ⟨hm.1, ih (by omega) hm.2 fun x hx => hn x (by simp [hx])⟩

theorem cellSet_above {w : Nat} {lo a : Nat} (v : BitVec w) (ha : lo ≤ a) {m : List (Nat × BitVec w)}
    (hm : cellsAbove lo m = true) : cellsAbove lo (cellSet m a v) = true := by
  unfold cellSet
  split
  · exact filter_above _ hm
  · exact cellIns_above ‹_› ha (filter_above _ hm) fun e he => by simpa using (List.mem_filter.mp he).2

/-- Writing a cell keeps the canonical form. -/
theorem cellSet_wf {m : Memory} (hm : m.wf = true) (a : Nat) (v : Byte) : Memory.wf (cellSet m a v) = true :=
  cellSet_above v (Nat.zero_le a) hm

/-- Writing bytes keeps the canonical form. -/
theorem putBytes_wf {m : Memory} (hm : m.wf = true) (a : Nat) (bs : List Byte) : (putBytes m a bs).wf = true := by
  induction bs generalizing m a with
  | nil => exact hm
  | cons b bs ih => exact ih (cellSet_wf hm a b) (a + 1)

/-- Writing a little-endian value keeps the canonical form. -/
theorem writeLe_wf {m : Memory} (hm : m.wf = true) (a n v : Nat) : (writeLe m a n v).wf = true := putBytes_wf hm a _

/-- Clearing a range keeps the canonical form. -/
theorem clearRange_wf {m : Memory} (hm : m.wf = true) (a n : Nat) : Memory.wf (clearRange m a n) = true := filter_above _ hm

/-- The cells of a range are in canonical form. -/
theorem cellsIn_wf {m : Memory} (hm : m.wf = true) (a n : Nat) : Memory.wf (cellsIn m a n) = true := filter_above _ hm

/-- Writing listed cells keeps the canonical form. -/
theorem putCells_wf {m : Memory} (hm : m.wf = true) (cs : Memory) : Memory.wf (putCells m cs) = true := by
  induction cs generalizing m with
  | nil => exact hm
  | cons e cs ih => exact ih (cellSet_wf hm e.1 e.2)

theorem memory_nil_wf : Memory.wf [] = true := rfl

/-! ### Reading after writing -/

theorem cellGet_filter {w : Nat} (p : Nat → Bool) (m : List (Nat × BitVec w)) (a : Nat) :
    cellGet (m.filter (fun e => p e.1)) a = if p a then cellGet m a else 0 := by
  induction m with
  | nil => simp [cellGet]
  | cons e m ih =>
    obtain ⟨j, b⟩ := e
    by_cases hj : j = a
    · subst hj
      by_cases hp : p j = true
      · simp [hp, cellGet]
      · simp only [List.filter_cons, hp, Bool.false_eq_true, if_false, ih]
    · by_cases hp : p j = true <;> simp only [List.filter_cons, hp, cellGet, hj, if_true, if_false, ih, Bool.false_eq_true]

theorem cellGet_cellIns {w : Nat} {m : List (Nat × BitVec w)} {a : Nat} (hn : ∀ e ∈ m, e.1 ≠ a) (v : BitVec w) (b : Nat) :
    cellGet (cellIns m a v) b = if b = a then v else cellGet m b := by
  induction m with
  | nil => by_cases h : b = a
           · simp [cellIns, cellGet, h]
           · simp [cellIns, cellGet, h, Ne.symm h]
  | cons e m ih =>
    have he : e.1 ≠ a := hn e (by simp)
    unfold cellIns
    split
    · by_cases h : b = a
      · simp [cellGet, h]
      · simp [cellGet, h, Ne.symm h]
    · simp only [cellGet, ih fun x hx => hn x (by simp [hx])]
      by_cases h : b = a
      · subst h; simp [he]
      · simp [h]

/-- A cell read after a cell written: the value written at its own address, the old one at every other. -/
theorem cellGet_cellSet {w : Nat} (m : List (Nat × BitVec w)) (a b : Nat) (v : BitVec w) :
    cellGet (cellSet m a v) b = if b = a then v else cellGet m b := by
  unfold cellSet
  split
  · rw [cellGet_filter (fun j => j != a)]
    by_cases h : b = a <;> simp_all
  · rw [cellGet_cellIns (fun e he => by simpa using (List.mem_filter.mp he).2), cellGet_filter (fun j => j != a)]
    by_cases h : b = a <;> simp [h]

/-- A byte read after a byte string is written. -/
theorem cellGet_putBytes (m : Memory) (a : Nat) (bs : List Byte) (b : Nat) :
    cellGet (putBytes m a bs) b = if a ≤ b ∧ b < a + bs.length then bs.getD (b - a) 0 else cellGet m b := by
  induction bs generalizing m a with
  | nil => rw [if_neg (by simp)]; rfl
  | cons c bs ih =>
    rw [putBytes, ih, cellGet_cellSet]
    simp only [List.length_cons]
    by_cases h : b = a
    · subst h; simp
    · by_cases h1 : a + 1 ≤ b ∧ b < a + 1 + bs.length
      · rw [if_pos h1, if_pos (by omega)]
        obtain ⟨k, rfl⟩ : ∃ k, b = a + 1 + k := ⟨b - (a + 1), by omega⟩
        simp [show a + 1 + k - a = k + 1 by omega]
      · rw [if_neg h1, if_neg h, if_neg (by omega)]

/-- Bytes outside those written read as before. -/
theorem cellGet_putBytes_outside (m : Memory) (a : Nat) (bs : List Byte) {b : Nat}
    (h : b < a ∨ a + bs.length ≤ b) : cellGet (putBytes m a bs) b = cellGet m b := by
  rw [cellGet_putBytes, if_neg (by omega)]

/-- A byte read after a range is cleared. -/
theorem cellGet_clearRange (m : Memory) (a n b : Nat) :
    cellGet (clearRange m a n) b = if a ≤ b ∧ b < a + n then 0 else cellGet m b := by
  unfold clearRange
  rw [cellGet_filter (fun j => decide (j < a) || decide (a + n ≤ j))]
  by_cases h : a ≤ b ∧ b < a + n
  · rw [if_pos h, if_neg (by simp; omega)]
  · rw [if_neg h, if_pos (by simp; omega)]

@[simp] theorem toBytes_length (n v : Nat) : (toBytes n v).length = n := by
  induction n generalizing v with
  | zero => rfl
  | succ n ih => simp [toBytes, ih]

@[simp] theorem bytesAt_length (m : Memory) (a n : Nat) : (bytesAt m a n).length = n := by
  induction n generalizing a with
  | zero => rfl
  | succ n ih => simp [bytesAt, ih]

/-- The bytes just written are the bytes read. -/
theorem bytesAt_putBytes (m : Memory) (a : Nat) (bs : List Byte) :
    bytesAt (putBytes m a bs) a bs.length = bs := by
  apply List.ext_getElem
  · simp
  · intro i h1 h2
    have key : ∀ (k : Nat) (n : Nat) (m : Memory) (a : Nat) (h : k < (bytesAt m a n).length),
        (bytesAt m a n)[k] = cellGet m (a + k) := by
      intro k
      induction k with
      | zero => intro n m a h; cases n with
        | zero => simp at h
        | succ n => simp [bytesAt]
      | succ k ih => intro n m a h; cases n with
        | zero => simp at h
        | succ n =>
          simp only [bytesAt, List.getElem_cons_succ]
          rw [ih]; congr 1; omega
    rw [key, cellGet_putBytes, if_pos (by omega)]
    simp [List.getD_eq_getElem?_getD, h2]

theorem leValue_toBytes (n v : Nat) : leValue (toBytes n v) = v % 2 ^ (8 * n) := by
  induction n generalizing v with
  | zero => simp [toBytes, leValue, Nat.mod_one]
  | succ n ih =>
    simp only [toBytes, leValue, ih, BitVec.toNat_ofNat]
    rw [show 8 * (n + 1) = 8 + 8 * n by ring, Nat.pow_add, Nat.mod_mul]

/-- Reading a little-endian value just written gives its low bytes. -/
theorem readLe_writeLe (m : Memory) (a n v : Nat) : readLe (writeLe m a n v) a n = v % 2 ^ (8 * n) := by
  have h := bytesAt_putBytes m a (toBytes n v)
  rw [toBytes_length] at h
  rw [readLe, writeLe, h, leValue_toBytes]

end Sys2Proof.Machine
end

