-- ==== Sys2Proof/Laws/Waits.lean ====
section
/-!
SUPPORT. Laws of what an access waits for: a FENCE of its slot, a RED of its thread to the same bytes, and a walk (R189, R264,
R273); and of the operations that leave a state alone where there is nothing for them to do.
-/

namespace Sys2Proof.Machine

/-! ### Waits that are over -/

/-- Behind no FENCE a word goes on. -/
theorem behindFence_clear {s : State} {a : Act} (h : s.me.fenced = false) : behindFence s a = a := by
  simp [behindFence, h]

/-- Without deferred REDs and an outstanding claim nothing of its own stands ahead of an access of a slot. -/
theorem ownAhead_clear {s : State} {c k : Nat} {ea : W64} {n : Nat} (h : s.reds = []) (hc : (s.slot c k).claimOut = false) :
    ownAhead s c k ea n = false := by
  simp [ownAhead, claimMeets, h, hc]

/-- Without them an access goes on. -/
theorem behindOwn_clear {s : State} {ls : List (W64 × Nat)} {a : Act} (h : s.reds = []) (hc : s.me.claimOut = false) :
    behindOwn s ls a = a := by
  have (e : W64 × Nat) : ownAhead s s.cur.1 s.cur.2 e.1 e.2 = false := ownAhead_clear h hc
  simp [behindOwn, this]

/-- An access whose pages need no walk goes on. -/
theorem behindWalk_cached {s : State} {ls : List (W64 × Nat)} {a : Act}
    (h : ∀ e ∈ ls, walkDue s s.cur.1 s.me.thread e.1 = false) : behindWalk s ls a = a := by
  have : ls.find? (fun e => walkDue s s.cur.1 s.me.thread e.1) = none := List.find?_eq_none.2 (by simpa using h)
  simp [behindWalk, this]

/-- An access outside .GLB waits for a FENCE alone. -/
theorem behindReds_local {s : State} {sp : Space} {ls : List (W64 × Nat)} {a : Act} (h : sp ≠ .glb) :
    behindReds s sp ls a = behindFence s a := by
  simp [behindReds, h]

/-- An access in .GLB with nothing to wait for goes on. -/
theorem behindReds_clear {s : State} {sp : Space} {ls : List (W64 × Nat)} {a : Act} (hf : s.me.fenced = false)
    (hr : s.reds = []) (hc : s.me.claimOut = false) (hw : ∀ e ∈ ls, walkDue s s.cur.1 s.me.thread e.1 = false) : behindReds s sp ls a = a := by
  unfold behindReds
  rw [behindFence_clear hf, behindOwn_clear hr hc, behindWalk_cached hw]
  simp

/-- A word that is no release, or one of a thread without deferred REDs and an outstanding claim, waits for a FENCE alone. -/
theorem afterReds_clear {s : State} {release : Bool} {a : Act} (hf : s.me.fenced = false)
    (hr : release = false ∨ redsPending s = false) : afterReds s release a = a := by
  rcases hr with hr | hr <;> simp [afterReds, behindFence_clear hf, hr]

/-! ### Nothing to do -/

/-- A line that no core holds leaves no core. -/
theorem flushFrom_absent {s : State} {p : L1Line → Bool} {cs : List Nat} (h : ∀ c ∈ cs, (s.core c).l1.any p = false) :
    flushFrom s p cs = s := by
  induction cs with
  | nil => rfl
  | cons c cs ih =>
    simp only [flushFrom, h c (by simp), Bool.false_eq_true, ↓reduceIte]
    exact ih (fun d hd => h d (by simp [hd]))

/-- A release writes nothing back from a core without SC lines. -/
theorem scRelease_none {s : State} {c : Nat} (h : (s.core c).l1.any (fun l => l.cls == 1) = false) : scRelease s c = s := by
  simp [scRelease, h]

/-- An acquire invalidates nothing on a core without SC lines. -/
theorem scAcquire_none {s : State} {c : Nat} (h : (s.core c).l1.any (fun l => l.cls == 1) = false) : scAcquire s c = s := by
  simp [scAcquire, h]

end Sys2Proof.Machine
end

