-- ==== Sys2Proof/Tests/Slice0.lean ====
section
/-!
SUPPORT. Tests of the model: ill-formed terms, words of the manual, single steps, and for every statement with hypotheses a
state that meets them. Expected values are the manual's, or computed by hand from its rules.
-/

namespace Sys2Proof.Tests

open Sys2Proof.Machine Sys2Proof.Rules

set_option Elab.async false

/-! ### A small machine -/

/-- The first thread of gang 0 of launch 0 of partition 0, with a rectangle. -/
def thr : Thread := { Thread.none with rect := true }

/-- Registers that hold values, ready. -/
def regs (l : List (Nat × Nat)) : Map (Cell W64) := l.map (fun e => (e.1, { val := BitVec.ofNat 64 e.2, st := .now }))

/-- A header of n words, with the loop and migration flags and no live queue entry. -/
def header (n : Nat) : W64 := BitVec.ofNat 64 (0xFE * 2 ^ 56 + (n - 1) * 2 ^ 50 + 3 * 2 ^ 27)

/-- A slot at the last of n words of a block at 0x1000, its words all zero. -/
def slotAt (n : Nat) (l : List (Nat × Nat)) : Slot :=
  { Slot.reset with
    st := .running, thread := thr, n := regs l, hdr := 0x1000, idx := n, block := header n :: List.replicate n 0 }

/-- A large HC page that maps addresses from 0 on to stack 0, with every permission. -/
def page : TlbEntry := { part := 0, asid := 0, large := true, vpage := 0, leaf := 0x9F }

/-- Gang 0 of launch 0 on cores 0 and 1 of cluster 0, with tile 0, lane slices, and 4 KiB of scratchpad at 0 and of cluster
memory at 8 KiB. -/
def gang0 : Gang :=
  { id := (0, 0), cluster := 0, row := 0, col := 0, w := 2, h := 1, t := 1, tiles := 1, lanes := true, spdBase := 0,
    spdSize := 4096, clsBase := 8192, clsSize := 4096, part := 0, prio := 0, resident := false, order := 0, live := 1,
    since := 0 }

/-- Partition 0 with stack 0, cluster 0 and virtual function 0. -/
def part0 : Partition := { Partition.reset with stackSet := 1, clusters := 1, vfs := 1 }

/-- A machine whose slot 0 of core 0 is a given one, with a memory. -/
def on (x : Slot) (m : Memory := []) : State :=
  { State.reset with
    agenda := [], mem := m, cores := [(0, { Core.reset with slots := [(0, x)] })]
    clusters := [(0, { Cluster.reset with tlb := [page] })], parts := [(0, part0)], gangs := [gang0] }

/-- A machine at a one-word block with registers and a memory. -/
def one (l : List (Nat × Nat)) (m : Memory := []) : State := on (slotAt 1 l) m

/-- A memory with a number of n bytes at an address. -/
def with_ (m : Memory) (a n v : Nat) : Memory := writeLe m a n v

/-- The values of a form's sources, where they can all be read. -/
def valsOf (s : State) (f : Form) : Vals :=
  ((avail s f).vals).getD { a := 0, b := 0, c := 0, k := 0, va := 0, vb := 0, vc := 0 }

/-- The conditions of `Poised`, as far as they can be computed. -/
def poised (s : State) (f : Form) : Bool :=
  s.me.mayIssue && decide ((avail s f).vals = some (valsOf s f)) && !topxDiffers s f && decide (noLinkTrap s f = none) &&
    decide (sealedTrap s f = none) && decide (stallTrap s f (avail s f) = none) && decide (destReason s f.d = none) &&
    decide (destFail s f.d = none) && !s.me.suspect

theorem poised_of {s : State} {f : Form} (h : poised s f = true) : Poised s f (valsOf s f) := by
  simp only [poised, Bool.and_eq_true, decide_eq_true_eq, Bool.not_eq_true'] at h
  obtain ⟨⟨⟨⟨⟨⟨⟨⟨h1, h2⟩, h3⟩, h4⟩, h5⟩, h6⟩, h7⟩, h8⟩, h9⟩ := h
  exact ⟨h1, h2, h3, h4, h5, h6, h7, h8, h9⟩

/-- A form that can issue with the values of its sources. -/
abbrev Ready (s : State) (f : Form) : Prop := Poised s f (valsOf s f)

/-- Whether a result is a given one. -/
def isOk {α ε : Type} [DecidableEq α] (e : Except ε α) (a : α) : Bool :=
  match e with
  | .ok b => decide (b = a)
  | .error _ => false

theorem ok_of {α ε : Type} [DecidableEq α] {e : Except ε α} {a : α} (h : isOk e a = true) : e = .ok a := by
  cases e <;> simp_all [isOk]

/-- Whether a result is one at all. -/
def okAny {α ε : Type} (e : Except ε α) : Bool :=
  match e with
  | .ok _ => true
  | .error _ => false

theorem okAny_of {α ε : Type} {e : Except ε α} (h : okAny e = true) : ∃ l, e = .ok l := by
  cases e with
  | ok a => exact ⟨a, rfl⟩
  | error _ => simp [okAny] at h

/-- Whether a result is a given failure. -/
def isErr {α ε : Type} [DecidableEq ε] (e : Except ε α) (a : ε) : Bool :=
  match e with
  | .ok _ => false
  | .error b => decide (b = a)

theorem err_of {α ε : Type} [DecidableEq ε] {e : Except ε α} {a : ε} (h : isErr e a = true) : e = .error a := by
  cases e <;> simp_all [isErr]

/-- No RED is outstanding, and no claim of the current slot. -/
def calm (u : State) : Bool := u.reds.isEmpty && !(u.me.fetcher.bound && u.me.fetcher.claiming)

theorem calm_of {u : State} (h : calm u = true) : NoRed u := by
  simp only [calm, Bool.and_eq_true, List.isEmpty_iff] at h
  refine ⟨fun r hr => ?_, fun hb => ?_⟩
  · simp [h.1] at hr
  · simpa [hb] using h.2

/-- No ordering of the slot is outstanding. -/
def unfenced (u : State) : Bool := decide (u.me.fence = none) && u.me.owed.all (fun o => decide (o.val ≠ .waiting))

theorem unfenced_of {u : State} (h : unfenced u = true) : Unfenced u := by
  simp only [unfenced, Bool.and_eq_true, decide_eq_true_eq, List.all_eq_true] at h
  exact ⟨h.1, h.2⟩

/-- An address has no walk to wait for. -/
def noWalk (u : State) (a : W64) : Bool :=
  (l1Find u u.cur.1 u.me.thread.part u.me.thread.asid (a.toNat / 32)).isSome ||
    (tlbFind u u.cur.1 u.me.thread.part u.me.thread.asid a.toNat).isSome

theorem cached_of {u : State} {a : W64} (h : noWalk u a = true) : Cached u a := by
  simp only [noWalk, Bool.or_eq_true] at h
  rcases h with h | h
  · exact Or.inl (fun he => by simp [he] at h)
  · exact Or.inr (fun he => by simp [he] at h)

/-- A memory word at an address has nothing to wait for. -/
def free (u : State) (sp : Space) (a : W64) : Bool := unfenced u && (sp != .glb || noWalk u a)

theorem free_of {u : State} {sp : Space} {a : W64} (h : free u sp a = true) : Free u sp a := by
  simp only [free, Bool.and_eq_true, Bool.or_eq_true] at h
  refine ⟨unfenced_of h.1, fun hs => cached_of ?_⟩
  rcases h.2 with h' | h'
  · simp [hs] at h'
  · exact h'

/-! ### Witnesses: integer words and control -/

/-- A header at an address. -/
def headerAt2000 : Memory := with_ [] 0x2000 8 0xFE00000000000000

theorem test_witness_DivisionTruncatesAndNeverTraps :
    Ready (one [(1, 7), (2, 0)]) (formAB (.n 1) (.n 2) (.n 3)) ∧
    Ready (one [(1, 7)]) (formI (.n 1) (.n 3) (extImm false 0)) :=
  ⟨poised_of (by decide +kernel), poised_of (by decide +kernel)⟩

theorem test_witness_IntegerWordsComputeModuloTheirWidth :
    Ready (one [(1, 2 ^ 63), (2, 64)]) (formAB (.n 1) (.n 2) .push) ∧
    Ready (one []) (formI .imm .push (extImm true 0xFFFFFFFF)) :=
  ⟨poised_of (by decide +kernel), poised_of (by decide +kernel)⟩

theorem test_witness_BitWordsCountAndMoveBits :
    Ready (one [(1, 0)]) (formA (.n 1) (.n 3)) ∧
    Ready (one [(1, 9), (2, 63), (3, 127)]) (formABC (.n 1) (.n 2) (.n 3) .z) :=
  ⟨poised_of (by decide +kernel), poised_of (by decide +kernel)⟩

theorem test_witness_CompareSelectAndImmediateWords :
    Ready (one []) (formABC .hb .z .hb (.n 0)) ∧
    Ready (one []) { noOperands with d := .s .push } ∧
    Ready (one []) (formI (.q 15) (.n 3) (BitVec.signExtend 64 (0x80000000 : BitVec 32))) :=
  ⟨poised_of (by decide +kernel), poised_of (by decide +kernel), poised_of (by decide +kernel)⟩

/-- A slot at the first of 32 words. -/
def first32 : State := on { slotAt 32 [(1, 0)] with idx := 1 }

theorem test_witness_SkipsPassOverTheirCount :
    Ready first32 (formSrc (.n 1)) ∧
    first32.me.idx + 31 ≤ hdrLen (first32.me.block.headD 0) + 1 ∧
    hdrLen (first32.me.block.headD 0) + 1 < (on { slotAt 32 [] with idx := 2 }).me.idx + 31 ∧
    first32.me.mayIssue = true ∧ first32.me.suspect = false :=
  ⟨poised_of (by decide +kernel), by decide +kernel, by decide +kernel, by decide +kernel⟩

/-- A slot whose branch target is 0x2000, for a displacement of 0x1FF, and whose n22 and n1 hold that address. -/
def branching (a : Nat) : State := one [(1, a), (22, 0x2000)] headerAt2000

theorem test_witness_TransfersEnterTheirTargetBlock :
    Ready (branching 0) noOperands ∧
    target (branching 0) 0x1FF = 0x2000 ∧ headerAt (branching 0) 0x2000 ∧
    Ready (branching 0) (formSrc (.n 1)) ∧
    (valsOf (branching 0) (formSrc (.n 1))).a = 0 ∧ headerAt (consumeAll (branching 0) (formSrc (.n 1))) 0x2000 ∧
    (valsOf (branching 0x2000) (formSrc (.n 1))).a = 0x2000 ∧
    Ready (branching 0) (formSrc (.n 22)) ∧
    Ready (branching 0) { noOperands with d := .regs 22 1 } ∧
    (branching 0).me.idx = hdrLen ((branching 0).me.block.headD 0) + 1 ∧
    first32.me.idx ≠ hdrLen (first32.me.block.headD 0) + 1 ∧
    Ready (branching 0) { formSrc (.n 1) with d := .regs 22 1 } ∧
    noHeaderAt (branching 0) 0x2004 ∧ noHeaderAt (branching 0) 0x2008 ∧
    ((branching 0).me.mayIssue = true ∧ (branching 0).me.suspect = false ∧ (branching 0).me.chk = false ∧
      target (branching 0) 0x200 = 0x2008) :=
  ⟨poised_of (by decide +kernel), by decide +kernel, ⟨by decide, 0xFE00000000000000, by decide +kernel, by decide⟩,
    poised_of (by decide +kernel), by decide +kernel, ⟨by decide, 0xFE00000000000000, by decide +kernel, by decide⟩,
    by decide +kernel, poised_of (by decide +kernel), poised_of (by decide +kernel), by decide +kernel, by decide +kernel,
    poised_of (by decide +kernel), Or.inl (by decide), Or.inr ⟨0, by decide +kernel, by decide⟩, by decide +kernel⟩

/-- A slot with a bound fetcher. -/
def fetching (cur next : Option (Nat × Nat)) (exhausted : Bool) : State :=
  on { slotAt 1 [(1, 0x4000)] with
    fetcher := { Fetcher.reset with bound := true, desc := 0x4000, total := 9, cur := cur, next := next,
                                    exhausted := exhausted } } headerAt2000

/-- ITER of three registers from n21 on. -/
def iter3 : IterC := { stall := 0, d := 21, cnt := .three, disp := 0x1FF }

theorem test_witness_NestBindsAndIterHandsOutIndices :
    (let s := one [(1, 0x4000)]
     let u := within s (formSrc (.n 1))
     let a := (valsOf s (formSrc (.n 1))).a
     Ready s (formSrc (.n 1)) ∧ a.toNat % 64 = 0 ∧ NoRed u ∧ Free u .glb a ∧
      readGlobal u u.cur.1 u.me.thread needLoad a 64 = .ok (List.replicate 64 0, false)) ∧
    Ready (one [] headerAt2000) (iterForm iter3) ∧
    hdrLoop ((one []).me.block.headD 0) = true ∧ iter3.d.val + iter3.cnt.toNat ≤ 24 ∧ (one []).me.fetcher.bound = false ∧
    headerAt (one [] headerAt2000) (target (one [] headerAt2000) iter3.disp) ∧
    Ready (fetching none none true) (iterForm iter3) ∧
    (fetching none none true).me.fetcher.exhausted = true ∧
    Ready (fetching (some (8, 9)) none false) (iterForm iter3) ∧
    (fetching (some (8, 9)) none false).me.fetcher.cur = some (8, 9) ∧
    Ready (fetching none (some (0, 4)) false) (iterForm iter3) ∧
    (fetching none (some (0, 4)) false).me.fetcher.next = some (0, 4) ∧
    Ready (fetching none none false) (iterForm iter3) ∧
    (fetching none none false).me.fetcher.exhausted = false :=
  ⟨⟨poised_of (by decide +kernel), by decide +kernel, calm_of (by decide +kernel), free_of (by decide +kernel),
      ok_of (by decide +kernel)⟩, poised_of (by decide +kernel), by decide +kernel, by decide, by decide +kernel, ⟨by decide +kernel, 0xFE00000000000000, by decide +kernel, by decide⟩,
    poised_of (by decide +kernel), by decide +kernel, poised_of (by decide +kernel), by decide +kernel,
    poised_of (by decide +kernel), by decide +kernel, poised_of (by decide +kernel), by decide +kernel⟩

/-- A slot that waits, with turns left or a message that has woken it. -/
def waits (left : Option Nat) (woken : Bool) : State := on { slotAt 1 [] with sleepLeft := left, msgWake := woken, since := 1 }

/-- A slot about to exit: a register still owed, or a load in a state. -/
def leaving (owed : Bool) (st : LoadSt) : State :=
  on { slotAt 1 [] with
    n := if owed then [(5, { val := 0, st := .pending 1 1 })] else [], record := { Record.reset with state := st } }

theorem test_witness_WaitsAndExitIssueWhenTheyMay :
    Ready (waits none false) noOperands ∧
    Ready (waits (some 0) true) noOperands ∧
    (waits none false).me.sleepLeft = none ∧ (waits (some 0) true).me.sleepLeft = some 0 ∧
    (1 : Nat) = (waits none false).me.sleepLeft.getD (1 - ((waits none false).me.since - 1)) ∧
    (waits (some 0) true).me.msgWake = true ∧ (waits none false).me.msgWake = false ∧
    Ready (leaving true .none) noOperands ∧
    (leaving true .none).me.anyPending = true ∧
    Ready (leaving false .running) noOperands ∧
    (leaving false .running).me.anyPending = false ∧ (leaving false .running).me.record.state = .running ∧
    Ready (leaving false .done) noOperands ∧
    (leaving false .done).me.record.state ≠ .running ∧ (leaving false .done).me.record.state ≠ .faulted ∧
    (leaving false .done).me.fetcher.claiming = false ∧ (leaving false .done).myCore.isSealed = false :=
  ⟨poised_of (by decide +kernel), poised_of (by decide +kernel), by decide +kernel, by decide +kernel, by decide +kernel,
    by decide +kernel, by decide +kernel, poised_of (by decide +kernel), by decide +kernel, poised_of (by decide +kernel),
    by decide +kernel, by decide +kernel, poised_of (by decide +kernel), by decide +kernel, by decide +kernel, by decide +kernel,
    by decide +kernel⟩

/-! ### Witnesses: floating point and vectors -/

theorem test_witness_FpWordsDeliverTheirOperation :
    Ready (one [(1, 0x7FA00000), (2, 0x3F800000)]) (formAB (.n 1) (.n 2) (.n 3)) ∧
    Ready (one [(1, 0x80000000)]) (formA (.n 1) .push) ∧
    Ready (one [(1, 1), (2, 2), (3, 3)]) (formABC (.n 1) (.n 2) (.n 3) (.n 1)) :=
  ⟨poised_of (by decide +kernel), poised_of (by decide +kernel), poised_of (by decide +kernel)⟩

theorem test_witness_FpResultsAreRoundedOnceAndNansCanonical :
    isNan (fpFmt .f32) 0x7F800001 ∧ isNan (fpFmt .bf16) 0xFFFF ∧ ¬ isNan (fpFmt .f64) 0x7FF0000000000000 ∧
    isInf (fpFmt .f16) 0x7C00 ∧ isInf (fpFmt .f32) 0xFF800000 ∧ negative (fpFmt .f32) 0xFF800000 = true ∧
    isFinite (fpFmt .f32) 0x3F800000 ∧ isFinite (fpFmt .f32) 0xBF800000 ∧ isFinite (fpFmt .f32) 0 ∧
    value (fpFmt .f32) false 0x3F800000 = 1 ∧ value (fpFmt .f32) false 0xBF800000 = -1 ∧ value (fpFmt .f32) false 0 = 0 ∧
    (1 : ℚ) = 2 ^ (0 : Int) ∧ (3 : Int) = 1 + (2 : Nat) := by
  refine ⟨by unfold isNan; decide, by unfold isNan; decide, by unfold isNan; decide, by unfold isInf; decide,
    by unfold isInf; decide, by decide, by unfold isFinite; decide, by unfold isFinite; decide, by unfold isFinite; decide,
    ?_, ?_, ?_, by simp, by decide⟩ <;>
    norm_num [value, magnitude, negative, fpFmt, fmt32, Fmt.bias]

/-- A slot with v1, v2 and v3. -/
def vectors : State := on { slotAt 1 [(4, 0x80000001)] with v := [(1, { val := 0x3F8000007FA00000, st := .now })] }

theorem test_witness_VectorFpActsOnEnabledElements :
    Ready vectors (formVV 1 2 3 (.n 4)) ∧ Ready vectors (formV 1 1 .z) ∧ Ready vectors (formVVV 1 2 3 3 (.n 4)) :=
  ⟨poised_of (by decide +kernel), poised_of (by decide +kernel), poised_of (by decide +kernel)⟩

theorem test_witness_VectorIntegersWrapInTheirLanes : Ready vectors (formVV 1 1 1 (.n 4)) := poised_of (by decide +kernel)

theorem test_witness_VectorComparesAndMoves :
    Ready vectors (formVVS 1 2 (.n 5) (.n 4)) ∧ Ready vectors { formVV 1 2 3 .z with c := .s (.n 4) } ∧
    Ready vectors { noOperands with a := .s (.n 4), k := .s .z, d := .v 3 } ∧
    Ready vectors { noOperands with a := .v 1, b := .s (.n 4), k := .s .z, d := .s .push } ∧
    Ready vectors { a := .v 1, b := .s (.n 4), c := .s (.n 4), k := .s (.n 4), d := .v 1, imm := 0 } ∧
    Ready vectors (formVV 1 2 3 (.n 4)) :=
  ⟨poised_of (by decide +kernel), poised_of (by decide +kernel), poised_of (by decide +kernel), poised_of (by decide +kernel),
    poised_of (by decide +kernel), poised_of (by decide +kernel)⟩

theorem test_witness_ReductionsAndRankingsFollowTheirOrder :
    Ready vectors (formVS 1 (.n 5) (.n 4)) ∧ Ready vectors (formV 1 2 (.n 4)) ∧
    Ready vectors { noOperands with a := .v 1, b := .s (.n 4), k := .s (.n 4), d := .s (.n 5) } ∧
    Ready vectors (formVV 1 2 2 (.n 4)) :=
  ⟨poised_of (by decide +kernel), poised_of (by decide +kernel), poised_of (by decide +kernel), poised_of (by decide +kernel)⟩

/-- MXFP4 in f1, an invalid image in f0. -/
def formats : State :=
  on { slotAt 1 [(1, 0x3F800000), (4, 7)] with fmt := [(0, 1), (1, 0x01011214)] }

theorem test_witness_ConversionsCheckTheirKindsAndFormat :
    Ready formats (formA (.n 1) (.n 3)) ∧ Ready formats { noOperands with a := .v 1, b := .s (.n 4), d := .v 2 } ∧
    (∃ i < 8, imageValid (formats.me.fmtReg i) = true) ∧ imageValid (formats.me.fmtReg 0) = false ∧
    Kind.f64 ≠ Kind.nf :=
  ⟨poised_of (by decide +kernel), poised_of (by decide +kernel), ⟨1, by decide, by decide +kernel⟩, by decide +kernel,
    by decide⟩

/-! ### Witnesses: frames, traps, system registers, steps -/

theorem test_witness_ControlMovesOnAndNothingElse :
    (one []).me.trace = false ∧ Pos.skip 31 ≠ .gone := ⟨by decide +kernel, by decide⟩

theorem test_witness_ScalarWordsChangeOnlyTheirDestination :
    (let i : Instr := .add { stall := 0, d := .n 3, a := .n 1, b := .n 2, w := .d }
     let f := formAB (.n 1) (.n 2) (.n 3)
     scalarForm i = some f ∧ Ready (one [(1, 1), (2, 2)]) f ∧ f.isPlain = true ∧ (one [(1, 1), (2, 2)]).me.trace = false ∧
      f.d = .s (.n 3)) ∧
    scalarForm (.li { stall := 0, d := .push, zx := true, imm := 1 }) = some { noOperands with d := .s .push } ∧
    scalarForm (.fclass { stall := 0, d := .z, a := .n 1, ty := .f16, ftz := false }) = some (formA (.n 1) .z) :=
  ⟨⟨rfl, poised_of (by decide +kernel), by decide, by decide +kernel, rfl⟩, rfl, rfl⟩

theorem test_witness_VectorWordsChangeOnlyTheirRegister :
    (let i : Instr := .vperm { stall := 0, d := 3, a := 1, b := 2, w := .w, k := .n 4 }
     let f := formVV 1 2 3 (.n 4)
     vectorForm i = some f ∧ Ready vectors f ∧ f.isPlain = true ∧ vectors.me.trace = false) :=
  ⟨rfl, poised_of (by decide +kernel), by decide, by decide +kernel⟩

/-- A slot whose trap handler is at an address, and that may be in a handler already. -/
def handled (tvec : W64) (tin : Bool) : State :=
  on { slotAt 1 [] with tvec := tvec, status := if tin then 0x20 else 0 } headerAt2000

/-- The trap of a word that is no instruction. -/
def badWord : Trap := { code := 1, dk := 0, detail := 0 }

theorem test_witness_TrapEntersItsHandlerOrEscalates :
    ((handled 0x2000 false).me.tvec ≠ 0 ∧ (handled 0x2000 false).me.tin = false ∧
      fetchAt (trapWritten (handled 0x2000 false) badWord) (handled 0x2000 false).me.tvec = .word 0xFE00000000000000) ∧
    (handled 0 false).me.tvec = 0 ∧ (handled 0x2000 true).me.tin = true ∧
    fetchAt (trapWritten (handled 0x3000 false) badWord) (handled 0x3000 false).me.tvec = .word 0 ∧
    (∃ e, fetchAt (trapWritten (handled 0xFFFFFFFFFFFFFFF8 false) badWord) (handled 0xFFFFFFFFFFFFFFF8 false).me.tvec = .fail (.trap e)
      ∨ fetchAt (trapWritten (handled 0x0080000000000000 false) badWord) (handled 0x0080000000000000 false).me.tvec = .fail (.trap e)) :=
  ⟨⟨by decide +kernel, by decide +kernel, by decide +kernel⟩, by decide +kernel, by decide +kernel, by decide +kernel,
    ⟨trapAccess 0x0080000000000000, Or.inr (by decide +kernel)⟩⟩

theorem test_witness_TrapAndUnassignedWordsTrap : Ready (one []) noOperands ∧ (one []).me.mayIssue = true :=
  ⟨poised_of (by decide +kernel), by decide +kernel⟩

/-- A slot in a handler, with a saved position. -/
def trapped (tepc : W64) (idx : Nat) : State :=
  on { slotAt 1 [] with tepc := tepc, tcause := BitVec.ofNat 64 (idx * 2 ^ 7) } headerAt2000

theorem test_witness_EretResumesAtTheSavedPosition :
    Ready (trapped 0x2010 2) noOperands ∧
    (let s := trapped 0x2010 2
     let idx := s.me.tcause.toNat / 2 ^ 7 % 2 ^ 7
     let hdr := s.me.tepc - 8 * BitVec.ofNat 64 idx
     idx = 2 ∧ hdr = 0x2000 ∧ fetchAt s hdr = .word 0xFE00000000000000 ∧ idx ≤ hdrLen 0xFE00000000000000 + 2) ∧
    hdrLen 0xFE00000000000000 + 2 < (trapped 0x2018 3).me.tcause.toNat / 2 ^ 7 % 2 ^ 7 :=
  ⟨poised_of (by decide +kernel), by decide +kernel, by decide +kernel⟩

theorem test_witness_SystemRegistersReadAndWriteTheirState :
    Ready (one []) { noOperands with d := .s (.n 4) } ∧
    Ready (one [(4, 0xFFFFFFFF)]) { formSrc (.n 4) with imm := (0x00F : BitVec 32).signExtend 64 } ∧
    (0x00F : BitVec 32).toNat = 0x008 + 7 ∧ (0x000 : BitVec 32).toNat = 0 :=
  ⟨poised_of (by decide +kernel), poised_of (by decide +kernel), by decide, by decide⟩

theorem test_witness_SystemRegisterAccessIsChecked :
    ((one []).me.mayIssue = true ∧ (one []).me.suspect = false) ∧ (one []).isSvc (one []).cur.1 = false ∧ (one []).me.thread.debug = false ∧
    (0x1FF : BitVec 32).toNat ≤ 0x1FF ∧ 0x100 ≤ (0x100 : BitVec 32).toNat ∧ 0x200 ≤ (0x200 : BitVec 32).toNat ∧
    (0x16 : BitVec 32).toNat < 0x20 ∧ (0x30 : BitVec 32).toNat = 0x30 :=
  ⟨by decide +kernel, by decide +kernel, by decide +kernel, by decide, by decide, by decide, by decide, by decide⟩

theorem test_witness_TraceWritesAMarkerOnlyWhenTraced :
    let g : Form := { formSrc (.n 4) with imm := (0xA1 : BitVec 32).signExtend 64 }
    Ready (one [(4, 5)]) g ∧ (consumeAll (one [(4, 5)]) g).me.trace = false :=
  ⟨poised_of (by decide +kernel), by decide +kernel⟩

theorem test_witness_EncodedWordsDecodeToThemselves :
    let i : Instr := .cas { stall := 7, d := .n 23, a := .q 15, b := .m 7, c := .link .dw, w := .d, sp := .chp, ord := .ar .sy }
    i.wf = true ∧ (encode i).isSome = true ∧ i.isWord = true := by decide +kernel

theorem test_witness_TheWordMapAndTheEncoderAgree :
    (∃ i, decodeWord 0x1300004000000000 = .ok i) ∧ 0x00FF000000000000 < 2 ^ 64 ∧
      0x00FF000000000000 / 2 ^ 56 ∉ assigned ∧ 0xFE00000000000000 / 2 ^ 56 ∉ assigned :=
  ⟨⟨.exit { stall := 0 }, by rfl⟩, by decide, by decide, by decide⟩

theorem test_witness_StepKeepsMemoryCanonical :
    ∃ t, (one [] headerAt2000).memWf = true ∧ step (one [] headerAt2000) = .next t :=
  ⟨_, by decide +kernel, rfl⟩

/-- A slot at an ADD word. -/
def atAdd (st : SlotSt) : State := on { (slotAt 1 [(1, 1)]).atWord 0x0109A29000000000 with st := st }

/-- The machine with core 0 about to seal. -/
def sealing (s : State) : State := s.setCore 0 { s.core 0 with sealDue := true }

theorem test_witness_StepRunsTheDecodedWord :
    (atAdd .running).agenda = [] ∧ (atAdd .running).me.st = .running ∧ (atAdd .running).me.stall = 0 ∧
    (atAdd (.parked .sleep)).me.st = .parked .sleep ∧ 1 ≤ (atAdd .running).me.idx ∧
    (atAdd .running).me.idx ≤ hdrLen ((atAdd .running).me.block.headD 0) + 1 ∧
    (atAdd .running).me.block[(atAdd .running).me.idx]? = some 0x0109A29000000000 ∧
    (atAdd .running).stopped (atAdd .running).me.thread = false ∧
    (let s := { on { (slotAt 1 [(1, 1)]).atWord 0x0109A29000000000 with retry := true } with gangs := [{ gang0 with stopping := true }] }
     s.stopped s.me.thread = true ∧ s.me.retry = true) ∧
    (atAdd .running).myCore.sealDue = false ∧ (sealing (atAdd .running)).myCore.sealDue = true ∧
    (sealing (atAdd .running)).me = (atAdd .running).me ∧ (sealing (atAdd .running)).agenda = [] := by
  decide +kernel

/-- A slot at the header of a block at 0x2000 whose first word is an ADD; at 0x3000 stands a header with 17 live entries. -/
def atHeader (stall : Nat) (st : SlotSt) (at_ : W64 := 0x2000) : State :=
  on { slotAt 1 [] with hdr := at_, block := [], stall := stall, st := st, entering := true }
    (with_ (with_ headerAt2000 0x2008 8 0x0109A29000000000) 0x3000 8 (0xFE * 2 ^ 56 + 17 * 2 ^ 29))

theorem test_witness_TurnsEnterBlocksOrCountDown :
    ((atHeader 0 .running).agenda = [] ∧ (atHeader 0 .running).me.st = .running ∧ (atHeader 0 .running).me.stall = 0 ∧
      (atHeader 0 .running).me.entering = true ∧ fetchAt (atHeader 0 .running) 0x2000 = .word 0xFE00000000000000 ∧
      (0xFE00000000000000 : W64).toNat / 2 ^ 29 % 2 ^ 5 ≤ 16 ∧ (atHeader 0 .running).me.trace = false ∧
      fetchAt (atHeader 0 .running) (0x2000 + 8) = .word 0x0109A29000000000 ∧ (atHeader 0 .running).myCore.sealDue = false ∧
      (atHeader 0 .running).me.hdr.toNat % 8 = 0 ∧ (atHeader 0 .running).stopped (atHeader 0 .running).me.thread = false) ∧
    (fetchAt (atHeader 0 .running 0x3000) 0x3000 = .word 0xFE00000220000000 ∧
      16 < (0xFE00000220000000 : W64).toNat / 2 ^ 29 % 2 ^ 5) ∧
    (atHeader 0 .running 0x2004).me.hdr.toNat % 8 ≠ 0 ∧
    fetchAt (atHeader 0 .running 0x2008) 0x2008 = .word 0x0109A29000000000 ∧
    (atHeader 7 .running).me.stall ≠ 0 ∧ (atHeader 0 .faulted).me.st = .faulted ∧
    (let s := { atHeader 0 .running with gangs := [{ gang0 with stopping := true }] }
     s.stopped s.me.thread = true ∧ s.me.retry = false) := by
  decide +kernel

theorem test_witness_AgendaStepsRunAsChosen :
    State.reset.agenda ≠ [] ∧ (State.reset.turnWait = 0 ∧ State.reset.headWait = 0) ∧
    Config.patience < ({ State.reset with turnWait := Config.patience + 1 } : State).turnWait ∧
    Config.patience < ({ State.reset with headWait := Config.patience + 1 } : State).headWait :=
  ⟨by decide, by decide, Nat.lt_succ_self _, Nat.lt_succ_self _⟩

/-! ### Witnesses: memory -/

/-- No line of any L1 is dirty. -/
def clean (u : State) : Bool := u.cores.all (fun e => e.2.l1.all (fun l => l.dirty == 0))

theorem mapGet_all {α : Type} {p : α → Prop} {d : α} {m : Map α} (hd : p d) (h : ∀ e ∈ m, p e.2) (k : Nat) :
    p (mapGet d m k) := by
  induction m with
  | nil => exact hd
  | cons e m ih =>
    obtain ⟨j, a⟩ := e
    by_cases hj : j = k
    · simpa [mapGet, mapFind, hj] using h (j, a) (by simp)
    · simpa [mapGet, mapFind, hj] using ih (fun e he => h e (by simp [he]))

theorem clean_of {u : State} (h : clean u = true) : Clean u := by
  intro e he l hl
  simp only [clean, List.all_eq_true, beq_iff_eq] at h
  exact h e he l hl

/-- Whether no array of a core carries an uncorrectable error and none is about to seal. -/
def flawless (u : State) : Bool :=
  u.cores.all (fun e => e.2.flaws.isEmpty && !e.2.sealDue && e.2.l1.all (fun l => !l.flawed))

theorem flawless_of {u : State} (h : flawless u = true) : Flawless u := by
  intro e he
  simp only [flawless, List.all_eq_true, Bool.and_eq_true, List.isEmpty_iff, Bool.not_eq_true'] at h
  exact ⟨(h e he).1.1, (h e he).1.2, (h e he).2⟩

/-- The conditions of `Reaches`, as far as they can be computed. -/
def reaches (s : State) (f : Form) (sp : Space) (need : Need) (hits : Bool) (e : W64) (n : Nat) (loc : Loc) : Bool :=
  decide (e.toNat % n = 0) && okAny (resolve s s.cur.1 s.me.thread sp need hits e n) &&
    isOk (resolve (within s f) (within s f).cur.1 (within s f).me.thread sp need hits e n) loc && calm (within s f) && free (within s f) sp e

theorem reaches_of {s : State} {f : Form} {sp : Space} {need : Need} {hits : Bool} {e : W64} {n : Nat} {loc : Loc}
    (h : reaches s f sp need hits e n loc = true) : Reaches s f sp need hits e n loc := by
  simp only [reaches, Bool.and_eq_true, decide_eq_true_eq] at h
  obtain ⟨⟨⟨⟨h1, h2⟩, h3⟩, h4⟩, h5⟩ := h
  exact ⟨h1, okAny_of h2, ok_of h3, calm_of h4, free_of h5⟩

/-- The conditions of `AtHome`, as far as they can be computed. -/
def home (s : State) (f : Form) (need : Need) (e : W64) (n pa : Nat) (leaf : W64) : Bool :=
  decide (e.toNat % n = 0) && okAny (resolve s s.cur.1 s.me.thread .glb need false e n) &&
    isOk (translate (within s f) (within s f).cur.1 (within s f).me.thread need e) (pa, leaf) && calm (within s f) && free (within s f) .glb e

theorem home_of {s : State} {f : Form} {need : Need} {e : W64} {n pa : Nat} {leaf : W64}
    (h : home s f need e n pa leaf = true) : AtHome s f need e n pa leaf := by
  simp only [home, Bool.and_eq_true, decide_eq_true_eq] at h
  obtain ⟨⟨⟨⟨h1, h2⟩, h3⟩, h4⟩, h5⟩ := h
  exact ⟨h1, okAny_of h2, ok_of h3, calm_of h4, free_of h5⟩

/-- A location whose home is current, as it is wherever no L1 line is dirty. -/
theorem current_of {u : State} {loc : Loc} (h : clean u = true) : Current u loc := fun _ _ _ e he l hl _ => clean_of h e he l hl

/-- Whether the bytes of a location carry an uncorrectable error. -/
def damaged (u : State) (loc : Loc) (n : Nat) : Bool :=
  match loc with
  | .spd k o => (u.core k).flawIn .spd o n
  | .chip _ _ => false
  | .mem pa _ => u.poisoned pa && (match regionOf pa with | .hbm _ => true | _ => false)
  | .hit vline _ => match l1Find u u.cur.1 u.me.thread.part u.me.thread.asid vline with
    | some l => l.flawed
    | none => false

theorem damaged_of {u : State} {loc : Loc} {n : Nat} (h : damaged u loc n = true) : Damaged u loc n := by
  cases loc with
  | spd k o => exact Or.inl ⟨k, o, rfl, h⟩
  | chip d o => simp [damaged] at h
  | mem pa leaf =>
    simp only [damaged, Bool.and_eq_true] at h
    cases hr : regionOf pa with
    | hbm k => exact Or.inr (Or.inl ⟨pa, leaf, k, rfl, hr, h.1⟩)
    | _ => simp [hr] at h
  | hit vline off =>
    simp only [damaged] at h
    cases hl : l1Find u u.cur.1 u.me.thread.part u.me.thread.asid vline with
    | some l => exact Or.inr (Or.inr ⟨vline, off, l, rfl, hl, by simpa [hl] using h⟩)
    | none => simp [hl] at h

/-- Whether no L1 holds bytes that are not at home, and the own lines hold what their homes hold. -/
def settled (u : State) : Bool :=
  clean u && u.myCore.l1.all (fun l => !l.flawed && !u.poisoned (l.pline * 32) && decide (l.data.toNat = num u.mem (l.pline * 32) 32))

theorem settled_of {u : State} (h : settled u = true) : Settled u := by
  simp only [settled, Bool.and_eq_true, List.all_eq_true, Bool.not_eq_true', decide_eq_true_eq] at h
  exact ⟨clean_of h.1, fun l hl => ⟨(h.2 l hl).1.1, (h.2 l hl).1.2, (h.2 l hl).2⟩⟩

/-- A machine whose n1 and n2 hold an address and a value, with a number of 8 bytes at 0x100. -/
def at100 (a b : Nat) : State := one [(1, a), (2, b)] (with_ [] 0x100 8 0x8877665544332211)

/-- A load's form and a store's. -/
def ldForm : Form := formA (.n 1) (.n 3)

/-- The same of a store. -/
def stForm : Form := { noOperands with a := .s (.n 1), b := .s (.n 2) }

/-- The current core of a machine with more in it. -/
def core0 (s : State) (f : Core → Core) : State := { s with cores := mapSet s.cores 0 (f (s.core 0)) }

/-- Line 8 of the first page in the L1, clean, of a class. -/
def line8 (cls : Nat) : L1Line :=
  { part := 0, asid := 0, vline := 8, pline := 8, cls := cls, dirty := 0, kept := false, data := 0x11 }

theorem test_witness_LoadsYieldTheBytesAtTheirAddress :
    (let s := at100 0x100 0
     Ready s ldForm ∧ Reaches s ldForm .glb needLoad true (ea 0 (valsOf s ldForm).a) 8 (.mem 0x100 0x9F) ∧
      valueAt (within s ldForm) (.mem 0x100 0x9F) 8 = some 0x8877665544332211 ∧ Clean (within s ldForm) ∧
      Current (within s ldForm) (.mem 0x100 0x9F)) ∧
    (let s := { at100 0x107 0 with poison := [4] }
     Ready s ldForm ∧ Reaches s ldForm .glb needLoad true (ea 0 (valsOf s ldForm).a) 1 (.mem 0x107 0x9F) ∧
      Damaged (within s ldForm) (.mem 0x107 0x9F) 1) ∧
    (let s := at100 0xFFC 0
     Ready s ldForm ∧ Reaches s ldForm .spd needLoad true (ea 0 (valsOf s ldForm).a) 4 (.spd 0 0xFFC)) ∧
    (let s := core0 (at100 0xFFC 0) (fun x => { x with flaws := [(.spd, 511)] })
     Ready s ldForm ∧ Reaches s ldForm .spd needLoad true (ea 0 (valsOf s ldForm).a) 4 (.spd 0 0xFFC) ∧
       Damaged (within s ldForm) (.spd 0 0xFFC) 4) ∧
    (let l := { line8 1 with flawed := true, dirty := 1 }
     let s := core0 (at100 0x100 0) (fun x => { x with l1 := [l] })
     Ready s ldForm ∧ Reaches s ldForm .glb needLoad true (ea 0 (valsOf s ldForm).a) 8 (.hit 8 0) ∧
       Damaged (within s ldForm) (.hit 8 0) 8 ∧ Current (within s ldForm) (.hit 8 0)) := by
  refine ⟨⟨poised_of ?_, reaches_of ?_, ?_, clean_of ?_, current_of ?_⟩, ⟨poised_of ?_, reaches_of ?_, damaged_of ?_⟩,
    ⟨poised_of ?_, reaches_of ?_⟩, ⟨poised_of ?_, reaches_of ?_, damaged_of ?_⟩, poised_of ?_, reaches_of ?_, damaged_of ?_,
    fun _ _ h => nomatch h⟩ <;>
    decide +kernel

theorem test_witness_StoresChangeOnlyTheirBytes :
    (let s := at100 0x108 5
     Ready s stForm ∧ Reaches s stForm .glb needStore true (ea (-8) (valsOf s stForm).a) 8 (.mem 0x100 0x9F) ∧
      (∃ l, resolve (orderBefore (within s stForm) 0 .rlx) 0 (within s stForm).me.thread .glb needStore true 0x100 8 = .ok l) ∧
      Clean (within s stForm) ∧ regionOf 0x100 = .hbm 0 ∧ leafClass 0x9F = 0) ∧
    (let s := core0 (at100 0x100 5) (fun x => { x with l1 := [line8 1] })
     Ready s stForm ∧ Reaches s stForm .glb needStore true (ea 0 (valsOf s stForm).a) 4 (.hit 8 0) ∧
      Clean (within s stForm) ∧
      l1Find (within s stForm) 0 0 0 8 = some (line8 1) ∧ (line8 1).cls ≠ 0) ∧
    (let s := at100 0xFF8 5
     Ready s stForm ∧ Reaches s stForm .spd needStore true (ea 0 (valsOf s stForm).a) 8 (.spd 0 0xFF8)) := by
  refine ⟨⟨poised_of ?_, reaches_of ?_, okAny_of ?_, clean_of ?_, ?_, ?_⟩, ⟨poised_of ?_, reaches_of ?_, clean_of ?_, ?_, ?_⟩,
    poised_of ?_, reaches_of ?_⟩ <;> decide +kernel

/-- A slot whose s3 is bound. -/
def bound3 (wr : Bool) (pos count : Nat) (buf : List W64) (sp : Space) : State :=
  on { slotAt 1 [] with
    streams := [(3, { bound := true, wr := wr, size := 2, sp := sp, base := 0x100, stride := 4, count := count, pos := pos, buf := buf })] }
    (with_ [] 0x104 4 7)

theorem test_witness_StreamsPopAndAppendElements :
    (let s := bound3 false 1 2 [] .glb
     let b := s.me.stream 3
     (b.bound = true ∧ b.wr = false ∧ b.pos < b.count) ∧ b.buf = [] ∧
      resolve s 0 s.me.thread b.sp needLoad true (b.base + BitVec.ofNat 64 b.pos * b.stride) (2 ^ b.size) = .ok (.mem 0x104 0x9F) ∧
      valueAt s (.mem 0x104 0x9F) 4 = some 7 ∧ Current s (.mem 0x104 0x9F)) ∧
    (let s := { bound3 false 1 2 [] .glb with poison := [4] }
     let b := s.me.stream 3
     b.buf = [] ∧
      resolve s 0 s.me.thread b.sp needLoad true (b.base + BitVec.ofNat 64 b.pos * b.stride) (2 ^ b.size) = .ok (.mem 0x104 0x9F) ∧
      Damaged s (.mem 0x104 0x9F) 4 ∧ Current s (.mem 0x104 0x9F)) ∧
    (let s := bound3 false 1024 2000 [] .spd
     let b := s.me.stream 3
     b.buf = [] ∧ b.pos < b.count ∧
      resolve s 0 s.me.thread b.sp needLoad true (b.base + BitVec.ofNat 64 b.pos * b.stride) (2 ^ b.size) =
        .error (.trap (trapAccess 0x1100))) ∧
    ((bound3 false 0 2 [9] .glb).me.stream 3).buf = [9] ∧
    (let b := (bound3 false 2 2 [] .glb).me.stream 3
     b.count ≤ b.pos) ∧
    (let s := bound3 true 1 2 [] .spd
     let b := s.me.stream 3
     b.bound = true ∧ b.wr = true ∧ b.pos < b.count ∧
      resolve s 0 s.me.thread b.sp needStore true (b.base + BitVec.ofNat 64 b.pos * b.stride) 4 = .ok (.spd 0 0x104)) ∧
    (let s := one [(1, 0x100), (2, 4), (3, 1)]
     let g : Form := { noOperands with a := .s (.n 1), b := .s (.n 2), c := .s (.n 3) }
     Ready s g ∧ (valsOf s g).a.toNat % 4 = 0 ∧ (valsOf s g).b.toNat % 4 = 0 ∧ canonical (valsOf s g).a = true ∧
      ∃ l, resolve s 0 s.me.thread .spd needLoad false (valsOf s g).a 4 = .ok l) ∧
    Ready (bound3 false 0 2 [] .glb) noOperands ∧ Ready (one []) { noOperands with d := .s (.n 4) } := by
  refine ⟨⟨?_, ?_, ok_of ?_, ?_, current_of ?_⟩, ⟨?_, ok_of ?_, damaged_of ?_, current_of ?_⟩, ⟨?_, ?_, err_of ?_⟩, ?_, ?_,
    ⟨?_, ?_, ?_, ok_of ?_⟩, ⟨poised_of ?_, ?_, ?_, ?_, okAny_of ?_⟩, poised_of ?_, poised_of ?_⟩ <;>
    decide +kernel

/-- The current core of a machine whose link to the west is fed by its neighbour. -/
def linked (fifo : List W64) : State :=
  let s := on { slotAt 1 [] with m := [(2, { val := 9, full := true, topx := false })] }
  { s with
    cores := s.cores ++ [(1, { Core.reset with links := [{ dir := .dw, gang := (0, 0), j := 0, wire := [], fifo := fifo }] })] }

theorem test_witness_LinksAndMessagesHandWordsOn :
    neighbour 0 .de = some 1 ∧ ((linked []).core 1).isSealed = false ∧ ((State.reset.setCore 1 { Core.reset with isSealed := true }).core 1).isSealed = true ∧
    (let s := linked [5, 6]
     linkPeer s 0 s.me.thread .de = some 1 ∧ s.me.fence = none ∧
      ({ s.me with fence := some (.rel .pk) } : Slot).fence ≠ none ∧ (linkFifo s 1 (opposite .de) s.me.thread).fifo = [5, 6] ∧
      (s.me.mreg 2).full = true ∧ (∀ e ∈ s.myCore.inbox, ¬ (e.slot = s.cur.2 ∧ e.reg = 2))) ∧
    (let s := core0 (linked []) (fun x => { x with inbox := [{ slot := 0, reg := 2, value := 1, topx := true }] })
     s.myCore.inbox.find? (fun e => e.slot == s.cur.2 && e.reg == 2) = some { slot := 0, reg := 2, value := 1, topx := true }) := by
  decide +kernel

/-- Lanes of a vector word: the conditions of `LanesReach` for a mask. -/
def lanesReach (s : State) (g : Form) (sp : Space) (need : Need) (k : Src) (m : W64) (addr : Nat → W64) : Bool :=
  calm (within s g) && unfenced (within s g) && (List.range 32).all (fun e => k != .z && !m.getLsbD e ||
    (decide ((addr e).toNat % 4 = 0) && free (within s g) sp (addr e) && okAny (resolve s s.cur.1 s.me.thread sp need true (addr e) 4) &&
    okAny (resolve (within s g) (within s g).cur.1 (within s g).me.thread sp need true (addr e) 4)))

theorem enables_iff {k : Src} {m : W64} {e : Nat} : enables k m e ↔ e < 32 ∧ (k == .z || m.getLsbD e) = true := by
  simp [enables]

theorem lanesReach_of {s : State} {g : Form} {sp : Space} {need : Need} {k : Src} {m : W64} {addr : Nat → W64}
    (h : lanesReach s g sp need k m addr = true) : LanesReach s g sp need k m addr := by
  simp only [lanesReach, Bool.and_eq_true, List.all_eq_true, List.mem_range] at h
  refine ⟨calm_of h.1.1, unfenced_of h.1.2, fun e he => ?_⟩
  obtain ⟨h32, hm⟩ := enables_iff.mp he
  have := h.2 e h32
  have hk : (k != .z && !m.getLsbD e) = false := by
    cases hz : (k == .z) <;> simp_all
  simp only [hk, Bool.false_or, Bool.and_eq_true, decide_eq_true_eq] at this
  exact ⟨this.1.1.1, free_of this.1.1.2, okAny_of this.1.2, okAny_of this.2⟩

/-- What the word of a lane holds, where it can be read. -/
def laneValue (u : State) (sp : Space) (need : Need) (a : W64) : Option Nat :=
  match resolve u u.cur.1 u.me.thread sp need true a 4 with
  | .ok l => valueAt u l 4
  | .error _ => none

/-- Every enabled lane holds a value. -/
theorem lanesHold_of {u : State} {sp : Space} {need : Need} {k : Src} {m : W64} {addr : Nat → W64}
    (h : (List.range 32).all (fun e => k != .z && !m.getLsbD e || (laneValue u sp need (addr e)).isSome) = true) :
    ∃ val : Nat → Nat, ∀ e, enables k m e → ∃ loc, placeOf u sp need (addr e) 4 loc ∧ valueAt u loc 4 = some (val e) := by
  refine ⟨fun e => (laneValue u sp need (addr e)).getD 0, fun e he => ?_⟩
  obtain ⟨h32, hm⟩ := enables_iff.mp he
  simp only [List.all_eq_true, List.mem_range] at h
  have := h e h32
  have hk : (k != .z && !m.getLsbD e) = false := by
    cases hz : (k == .z) <;> simp_all
  simp only [hk, Bool.false_or, laneValue] at this
  cases hr : resolve u u.cur.1 u.me.thread sp need true (addr e) 4 with
  | ok l =>
    simp only [hr] at this
    obtain ⟨b, hb⟩ := Option.isSome_iff_exists.mp this
    exact ⟨l, hr, by simp [laneValue, hr, hb]⟩
  | error _ => simp [hr] at this

/-- A mask of 1 enables lane 0 alone. -/
theorem only_zero {e e' : Nat} (h : enables (.n 4) (BitVec.ofNat 64 1) e) (h' : enables (.n 4) (BitVec.ofNat 64 1) e') : e' = e := by
  have key : ∀ i < 32, (BitVec.ofNat 64 1).getLsbD i = true → i = 0 := by decide
  have one (i : Nat) (hi : enables (.n 4) (BitVec.ofNat 64 1) i) : i = 0 := key i hi.1 (by simpa using hi.2)
  rw [one e h, one e' h']

/-- A slot with vector offsets in v1 and a mask in n4. -/
def lanes32 (a mask : Nat) : State :=
  on { slotAt 1 [(1, a), (2, 8), (4, mask)] with v := [(1, { val := BitVec.ofNat 1024 (16 + 2 ^ 32 * 16), st := .now })] }

theorem test_witness_VectorMemoryActsOnEnabledLanes :
    (let s := lanes32 0x100 3
     let g : Form := { noOperands with a := .s (.n 1), k := .s (.n 4), d := .v 3 }
     let at_ (e : Nat) := (valsOf s g).a + 4 * BitVec.ofNat 64 e
     Ready s g ∧ LanesReach s g .spd needLoad (.n 4) (valsOf s g).k at_ ∧
       ∃ val : Nat → Nat, ∀ e, enables (.n 4) (valsOf s g).k e →
         ∃ loc, placeOf (within s g) .spd needLoad (at_ e) 4 loc ∧ valueAt (within s g) loc 4 = some (val e)) ∧
    (let s := core0 (lanes32 0xFFC 1) (fun x => { x with flaws := [(.spd, 511)] })
     let g : Form := { noOperands with a := .s (.n 1), k := .s (.n 4), d := .v 3 }
     Ready s g ∧ LanesReach s g .spd needLoad (.n 4) (valsOf s g).k (fun e => (valsOf s g).a + 4 * BitVec.ofNat 64 e) ∧
       enables (.n 4) (valsOf s g).k 0 ∧ placeOf (within s g) .spd needLoad (valsOf s g).a 4 (.spd 0 0xFFC) ∧
       Damaged (within s g) (.spd 0 0xFFC) 4) ∧
    (let s := lanes32 0x100 1
     let g : Form := { noOperands with a := .s (.n 1), c := .s (.n 2), k := .s (.n 4), d := .v 3 }
     let at_ (e : Nat) := (valsOf s g).a + BitVec.ofInt 64 (e * (valsOf s g).c.toInt)
     Ready s g ∧ LanesReach s g .glb needLoad (.n 4) (valsOf s g).k at_ ∧ Settled (within s g) ∧
       (∀ e e', enables (.n 4) (valsOf s g).k e → enables (.n 4) (valsOf s g).k e' → e' = e) ∧
       ∃ val : Nat → Nat, ∀ e, enables (.n 4) (valsOf s g).k e →
         ∃ loc, placeOf (within s g) .glb needLoad (at_ e) 4 loc ∧ valueAt (within s g) loc 4 = some (val e)) ∧
    (let s := lanes32 0x100 0
     let g : Form := { noOperands with a := .s (.n 1), b := .v 1, k := .s .z, d := .v 3 }
     Ready s g ∧ LanesReach s g .spd needLoad .z (valsOf s g).k
       (fun e => (valsOf s g).a + BitVec.ofNat 64 (held 32 (valsOf s g).vb e))) ∧
    (let s := lanes32 0xF80 0
     let g : Form := { noOperands with a := .s (.n 1), b := .v 1, k := .s .z }
     Ready s g ∧ LanesReach s g .spd needStore .z (valsOf s g).k (fun e => (valsOf s g).a + 4 * BitVec.ofNat 64 e) ∧
       Clean (within s g)) ∧
    (let s := lanes32 0x100 0x80000000
     let g : Form := { noOperands with a := .s (.n 1), b := .v 1, c := .s (.n 2), k := .s (.n 4) }
     Ready s g ∧ LanesReach s g .glb needStore (.n 4) (valsOf s g).k
       (fun e => (valsOf s g).a + BitVec.ofInt 64 (e * (valsOf s g).c.toInt)) ∧ Clean (within s g) ∧
       placeOf (within s g) .glb needStore ((valsOf s g).a + BitVec.ofInt 64 ((31 : Nat) * (valsOf s g).c.toInt)) 4
         (.mem 0x1F8 0x9F) ∧ leafClass 0x9F = 0 ∧ regionOf 0x1F8 = .hbm 0) ∧
    (let s := lanes32 0x100 3
     let g : Form := { noOperands with a := .s (.n 1), b := .v 2, c := .v 1, k := .s (.n 4) }
     Ready s g ∧ LanesReach s g .spd needStore (.n 4) (valsOf s g).k
       (fun e => (valsOf s g).a + BitVec.ofNat 64 (held 32 (valsOf s g).vc e))) := by
  refine ⟨⟨poised_of ?_, lanesReach_of ?_, lanesHold_of ?_⟩, ⟨poised_of ?_, lanesReach_of ?_, enables_iff.mpr ?_, ok_of ?_, damaged_of ?_⟩,
    ⟨poised_of ?_, lanesReach_of ?_, settled_of ?_, fun e e' he he' => ?_, lanesHold_of ?_⟩, ⟨poised_of ?_, lanesReach_of ?_⟩,
    ⟨poised_of ?_, lanesReach_of ?_, clean_of ?_⟩, ⟨poised_of ?_, lanesReach_of ?_, clean_of ?_, ok_of ?_, ?_, ?_⟩,
    poised_of ?_, lanesReach_of ?_⟩ <;>
    first
    | decide +kernel
    | exact only_zero he he'

/-- The conditions of `BlockReach`, as far as they can be computed. -/
def blockReach (u : State) (sp : Space) (need : Need) (n : Narrow) (a c : W64) : Bool :=
  (List.range (4 * n.width)).all (fun i => okAny (resolve u u.cur.1 u.me.thread sp need true (a + BitVec.ofNat 64 i) 1)) &&
    (List.range (scales n)).all (fun i => okAny (resolve u u.cur.1 u.me.thread sp need true (c + BitVec.ofNat 64 i) 1))

theorem blockReach_of {u : State} {sp : Space} {need : Need} {n : Narrow} {a c : W64}
    (h : blockReach u sp need n a c = true) : BlockReach u sp need n a c := by
  simp only [blockReach, Bool.and_eq_true, List.all_eq_true, List.mem_range] at h
  exact ⟨fun i hi => okAny_of (h.1 i hi), fun i hi => okAny_of (h.2 i hi)⟩

/-- The conditions of `BlockFree`, as far as they can be computed. -/
def blockFree (u : State) (sp : Space) (n : Narrow) (a c : W64) : Bool :=
  calm u && unfenced u && (List.range (4 * n.width)).all (fun i => free u sp (a + BitVec.ofNat 64 i)) &&
    (List.range (scales n)).all (fun i => free u sp (c + BitVec.ofNat 64 i))

theorem blockFree_of {u : State} {sp : Space} {n : Narrow} {a c : W64}
    (h : blockFree u sp n a c = true) : BlockFree u sp n a c := by
  simp only [blockFree, Bool.and_eq_true, List.all_eq_true, List.mem_range] at h
  exact ⟨calm_of h.1.1.1, unfenced_of h.1.1.2, fun i hi => free_of (h.1.2 i hi), fun i hi => free_of (h.2 i hi)⟩

/-- What a byte holds, where it can be read. -/
def byteValue (u : State) (sp : Space) (a : W64) : Option Nat :=
  match resolve u u.cur.1 u.me.thread sp needLoad true a 1 with
  | .ok l => valueAt u l 1
  | .error _ => none

/-- Every byte of a run holds a value. -/
theorem bytesAre_of {u : State} {sp : Space} {n : Nat} {a : W64}
    (h : (List.range n).all (fun i => (byteValue u sp (a + BitVec.ofNat 64 i)).isSome) = true) :
    ∃ A : Nat → Nat, ∀ i < n, ByteIs u sp (a + BitVec.ofNat 64 i) (A i) := by
  refine ⟨fun i => (byteValue u sp (a + BitVec.ofNat 64 i)).getD 0, fun i hi => ?_⟩
  simp only [List.all_eq_true, List.mem_range] at h
  have := h i hi
  simp only [byteValue] at this
  cases hr : resolve u u.cur.1 u.me.thread sp needLoad true (a + BitVec.ofNat 64 i) 1 with
  | ok l =>
    simp only [hr] at this
    obtain ⟨b, hb⟩ := Option.isSome_iff_exists.mp this
    exact ⟨l, hr, by simp [byteValue, hr, hb]⟩
  | error _ => simp [hr] at this

/-- A slot with MXFP4 in f2, elements at n1, scales at n2, a mask in n4. -/
def blocks : State :=
  on { slotAt 1 [(1, 0x100), (2, 0x200), (4, 0xFF)] with fmt := [(2, 0x01011214)], v := [(1, { val := 0x3F800000, st := .now })] }

/-- The same image. -/
def mxfp4 : Narrow := narrowOf 0x01011214

theorem test_witness_BlockScaledAndSliceWordsMoveLanes :
    (let s := blocks
     let g : Form := { noOperands with a := .s (.n 1), c := .s (.n 2), k := .s (.n 4), d := .v 3 }
     Ready s g ∧ imageValid (s.me.fmtReg 2) = true ∧ (narrowOf (s.me.fmtReg 2)).scale = 1 ∧
       BlockReach s .spd needLoad mxfp4 (valsOf s g).a (valsOf s g).c ∧
       BlockReach (within s g) .spd needLoad mxfp4 (valsOf s g).a (valsOf s g).c ∧
       BlockFree (within s g) .spd mxfp4 (valsOf s g).a (valsOf s g).c ∧
       (∃ A : Nat → Nat, ∀ i < 4 * mxfp4.width, ByteIs (within s g) .spd ((valsOf s g).a + BitVec.ofNat 64 i) (A i)) ∧
       ∃ C : Nat → Nat, ∀ i < scales mxfp4, ByteIs (within s g) .spd ((valsOf s g).c + BitVec.ofNat 64 i) (C i)) ∧
    (let s := blocks
     let g : Form := { noOperands with a := .s (.n 1), b := .v 1, c := .s (.n 2), k := .s (.n 4) }
     Ready s g ∧ BlockReach s .spd needStore mxfp4 (valsOf s g).a (valsOf s g).c ∧
       BlockReach (within s g) .spd needStore mxfp4 (valsOf s g).a (valsOf s g).c ∧
       BlockFree (within s g) .spd mxfp4 (valsOf s g).a (valsOf s g).c ∧
       ∀ i < 4 * mxfp4.width, ∀ j < scales mxfp4, (valsOf s g).a + BitVec.ofNat 64 i ≠ (valsOf s g).c + BitVec.ofNat 64 j) ∧
    (let s := lanes32 4092 0
     let g : Form := { noOperands with a := .s (.n 1), k := .s (.n 4), d := .v 3 }
     let h : Form := { noOperands with a := .s (.n 1), b := .v 1, k := .s .z }
     Ready s g ∧ Ready s h ∧ (valsOf s g).a.toNat ≤ 4092 ∧ s.gangOf s.me.thread = some gang0 ∧ gang0.lanes = true ∧
       gang0.covers s.cur.1 = true ∧ (∀ e < 32, (consumeAll s g).myCore.flawIn .slice (4096 * e + 4092) 4 = false)) ∧
    (let s := core0 (lanes32 4092 1) (fun x => { x with flaws := [(.slice, 511)] })
     let g : Form := { noOperands with a := .s (.n 1), k := .s (.n 4), d := .v 3 }
     Ready s g ∧ (valsOf s g).k.getLsbD 0 = true ∧ (consumeAll s g).myCore.flawIn .slice (4096 * 0 + 4092) 4 = true) ∧
    (let s := blocks
     let g : Form := { noOperands with a := .s (.n 1), b := .v 1, c := .s (.n 2), k := .s (.n 4) }
     let u := within s g
     Ready s g ∧ BlockReach s .glb needStore mxfp4 (valsOf s g).a (valsOf s g).c ∧
       BlockReach u .glb needStore mxfp4 (valsOf s g).a (valsOf s g).c ∧ BlockFree u .glb mxfp4 (valsOf s g).a (valsOf s g).c ∧
       Clean u ∧ (∀ i < 4 * mxfp4.width, isOk (resolve u 0 u.me.thread .glb needStore true
         ((valsOf s g).a + BitVec.ofNat 64 i) 1) (.mem (0x100 + i) 0x9F) = true ∧ 0x100 + i ≠ 0x200) ∧
       isOk (resolve u 0 u.me.thread .glb needStore true ((valsOf s g).c + BitVec.ofNat 64 0) 1) (.mem 0x200 0x9F) = true ∧
       leafClass 0x9F = 0 ∧ regionOf 0x200 = .hbm 0) ∧
    Ready (one [(1, 3)]) (formSrc (.n 1)) := by
  refine ⟨⟨poised_of ?_, ?_, ?_, blockReach_of ?_, blockReach_of ?_, blockFree_of ?_, bytesAre_of ?_, bytesAre_of ?_⟩,
    ⟨poised_of ?_, blockReach_of ?_, blockReach_of ?_, blockFree_of ?_, ?_⟩, ⟨poised_of ?_, poised_of ?_, ?_, ?_, ?_, ?_, ?_⟩,
    ⟨poised_of ?_, ?_, ?_⟩,
    ⟨poised_of ?_, blockReach_of ?_, blockReach_of ?_, blockFree_of ?_, clean_of ?_, ?_, ?_, ?_, ?_⟩, poised_of ?_⟩ <;>
    decide +kernel

/-! ### Witnesses: atomic words, buffers, tiles -/

/-- A machine whose n1, n2 and n3 hold values. -/
def three (a b c : Nat) : State := one [(1, a), (2, b), (3, c)] (with_ [] 0x100 8 0x8877665544332211)

theorem test_witness_AtomicsReadAndWriteAtOnce :
    (let s := three 0x100 5 0
     let f := formAB (.n 1) (.n 2) (.n 3)
     Ready s f ∧ Reaches s f .glb needAtomic false (valsOf s f).a 8 (.mem 0x100 0x9F) ∧ Clean (within s f) ∧
       valueAt (within s f) (.mem 0x100 0x9F) 8 = some 0x8877665544332211) ∧
    (let s := three 0x104 5 7
     let f := formABC (.n 1) (.n 2) (.n 3) .push
     Ready s f ∧ Reaches s f .glb needAtomic false (valsOf s f).a 4 (.mem 0x104 0x9F) ∧ Clean (within s f) ∧
       valueAt (within s f) (.mem 0x104 0x9F) 4 = some 0x88776655) ∧
    (let s := { three 0x100 5 7 with poison := [4] }
     let f := formAB (.n 1) (.n 2) (.n 3)
     Ready s f ∧ Reaches s f .glb needAtomic false (valsOf s f).a 4 (.mem 0x100 0x9F) ∧ Damaged (within s f) (.mem 0x100 0x9F) 4) ∧
    (let s := { three 0x100 5 7 with poison := [4] }
     let f := formABC (.n 1) (.n 2) (.n 3) .push
     Ready s f ∧ Reaches s f .glb needAtomic false (valsOf s f).a 4 (.mem 0x100 0x9F) ∧ Damaged (within s f) (.mem 0x100 0x9F) 4) ∧
    (let s := three 0xFF8 5 0
     Ready s stForm ∧ canonical (valsOf s stForm).a = true ∧ NoRed (within s stForm) ∧ Unfenced (within s stForm) ∧
       Unfenced (consumeAll s stForm) ∧ Clean (consumeAll s stForm) ∧
       resolve s 0 s.me.thread .spd needAtomic false (valsOf s stForm).a 8 = .ok (.spd 0 0xFF8) ∧
       valueAt (consumeAll s stForm) (.spd 0 0xFF8) 8 = some 0) := by
  refine ⟨⟨poised_of ?_, reaches_of ?_, clean_of ?_, ?_⟩, ⟨poised_of ?_, reaches_of ?_, clean_of ?_, ?_⟩,
    ⟨poised_of ?_, reaches_of ?_, damaged_of ?_⟩, ⟨poised_of ?_, reaches_of ?_, damaged_of ?_⟩,
    poised_of ?_, ?_, calm_of ?_, unfenced_of ?_, unfenced_of ?_, clean_of ?_, ok_of ?_, ?_⟩ <;> decide +kernel

theorem test_witness_FullEmptyWordsHandDataOver :
    (let s := three 0x104 5 0
     let f := formA (.n 1) (.n 3)
     Ready s f ∧ AtHome s f needLdc (ea 0 (valsOf s f).a) 4 0x104 0x9F ∧ Clean (within s f) ∧
       (within s f).poisoned 0x104 = false ∧ isFullAt (within s f) 0x104 = false ∧
       isFullAt { within s f with full := [0x41] } 0x107 = true) ∧
    (let s := { three 0x108 5 0 with full := [0x41] }
     Ready s stForm ∧ AtHome s stForm needStf (ea (-4) (valsOf s stForm).a) 4 0x104 0x9F ∧
       Clean (within s stForm) ∧ (within s stForm).poisoned 0x104 = false ∧
       isFullAt (within s stForm) 0x104 = true ∧ isFullAt (within s stForm) 0x108 = false) := by
  refine ⟨⟨poised_of ?_, home_of ?_, clean_of ?_, ?_, ?_, ?_⟩, poised_of ?_, home_of ?_, clean_of ?_, ?_, ?_, ?_⟩ <;> decide +kernel

/-- A machine with a reservation queue for line 4. -/
def reserved (tids : List Nat) (asked : Bool) : State :=
  let s := on { slotAt 1 [(1, 0x100), (2, 5)] with asked := asked }
  { s with res := tids.map (fun t => { line := 4, tid := BitVec.ofNat 64 t, held := none }) }

theorem test_witness_ReservationsPassInOrder :
    (let s := reserved [] false
     let f := formA (.n 1) (.n 3)
     Ready s f ∧ AtHome s f needLrw (valsOf s f).a 8 0x100 0x9F ∧ Clean (within s f) ∧
       (within s f).poisoned 0x100 = false ∧ queueOf (within s f) 4 = [] ∧ s.me.asked = false ∧ tid (within s f) = 0) ∧
    (let s := reserved [0, 7] true
     let f := formAB (.n 1) (.n 2) (.n 3)
     Ready s f ∧ AtHome s f needLrw (valsOf s f).a 8 0x100 0x9F ∧ Clean (within s f) ∧ (within s f).poisoned 0x100 = false ∧
       (queueOf (within s f) 4).head? = some (tid (within s f)) ∧ tenureOver (within s f) 4 = false) ∧
    (let s := reserved [0, 7] true
     let s := { s with res := s.res.map (fun e => { e with held := some 0 }), parts := [(0, { part0 with tau := 1024 })], clk := 1024 }
     tenureOver (within s (formAB (.n 1) (.n 2) (.n 3))) 4 = true) ∧
    (let s := reserved [7] false
     let f := formA (.n 1) (.n 3)
     Ready s f ∧ AtHome s f needLrw (valsOf s f).a 4 0x100 0x9F ∧ queueOf (within s f) 4 ≠ [] ∧
       tid (within s f) ∉ queueOf (within s f) 4 ∧ s.me.trace = false ∧
       ((within s f).res.filter (fun e => bankOf e.line == bankOf 4)).length < 64) ∧
    64 ≤ ((reserved (List.replicate 64 7) false).res.filter (fun e => bankOf e.line == bankOf 4)).length ∧
    (let s := reserved [0] true
     Ready s (formSrc (.n 1)) ∧ AtHome s (formSrc (.n 1)) needLrw (valsOf s (formSrc (.n 1))).a 4 0x100 0x9F ∧
       Clean (within s (formSrc (.n 1)))) := by
  refine ⟨⟨poised_of ?_, home_of ?_, clean_of ?_, ?_, ?_, ?_, ?_⟩, ⟨poised_of ?_, home_of ?_, clean_of ?_, ?_, ?_, ?_⟩, ?_,
    ⟨poised_of ?_, home_of ?_, ?_, ?_, ?_, ?_⟩, ?_, poised_of ?_, home_of ?_, clean_of ?_⟩ <;> decide +kernel

theorem holdsTile_of {s : State} {k : Nat} {g : Gang} (h : s.gangOf s.me.thread = some g)
    (h' : (s.me.thread.rect && g.covers s.cur.1 && g.tiles.getLsbD k) = true) : HoldsTile s k := by
  simp only [Bool.and_eq_true] at h'
  exact ⟨h'.1.1, g, h, h'.1.2, h'.2⟩

/-- Whether some load of the current core satisfies a test. -/
def someLoad (s : State) (p : Record → Bool) : Bool :=
  s.myCore.slots.any (fun e => (e.2.record.state == .running || e.2.record.state == .faulted) && p e.2.record)

theorem someLoad_iff {s : State} {p : Record → Bool} : someLoad s p = true ↔ SomeLoad s (fun r => p r = true) := by
  simp [someLoad, SomeLoad, loads]

/-- Operand slot 1 of gang 0. -/
def oslot1 : OpSlot := { OpSlot.reset with owner := some (0, 0), base := 0, rows := 4, cols := 8, gen := 3 }

/-- A slot with a load record, on a core whose operand slot 1 is bound. -/
def loading (r : Record) (l : List (Nat × Nat)) : State :=
  core0 (on { slotAt 1 l with record := r, v := [(1, { val := 5, st := .now })] }) (fun x => { x with opslots := [(1, oslot1)] })

/-- A running load of tile 0 and operand slot 1. -/
def run0 : Record := { Record.reset with state := .running, sectors := 4, oslot := 1, gen := 4, inflight := [2] }

theorem test_witness_OperandSlotsAndTilesAreWritten :
    (let s := loading Record.reset [(1, 262112), (2, 128), (3, 1048576)]
     let g : Form := { noOperands with a := .s (.n 1), b := .s (.n 2), c := .s (.n 3) }
     Ready s g ∧ (valsOf s g).a.toNat % 32 = 0 ∧ (valsOf s g).a.toNat < 262144 ∧ (valsOf s g).b.toNat ≤ 128 ∧
       (valsOf s g).c.toNat ≤ 1048576 ∧ (s.myCore.opslot 1).owner = some (s.me.thread.launch, s.me.thread.gang) ∧
       (s.myCore.opslot 0).owner = none) ∧
    (let s := loading run0 []
     SomeLoad s (fun r => decide (r.oslot = 1 ∧ r.gen = ((s.myCore.opslot 1).gen + 1) % 256) = true) ∧
       SomeLoad s (fun r => decide (r.tile = 0) = true)) ∧
    (let s := loading Record.reset [(1, 127)]
     ¬ SomeLoad s (fun r => decide (r.tile = 0) = true) ∧ Ready s noOperands ∧ HoldsTile s 0 ∧
       Ready s { noOperands with a := .s (.n 1), d := .v 3 } ∧ Ready s { noOperands with a := .s (.n 1), b := .v 1 } ∧
       (consumeAll s { noOperands with a := .s (.n 1), d := .v 3 }).myCore.flawIn .tile (4 * (32 * 127)) 128 = false) ∧
    (let s := core0 (loading Record.reset [(1, 127)]) (fun x => { x with flaws := [(.tile, 2047)] })
     Ready s { noOperands with a := .s (.n 1), d := .v 3 } ∧ HoldsTile s 0 ∧
       (consumeAll s { noOperands with a := .s (.n 1), d := .v 3 }).myCore.flawIn .tile (4 * (32 * 127)) 128 = true) := by
  refine ⟨⟨poised_of ?_, ?_, ?_, ?_, ?_, ?_, ?_⟩, ⟨someLoad_iff.mp ?_, someLoad_iff.mp ?_⟩,
    ⟨fun h => absurd (someLoad_iff.mpr h) ?_, poised_of ?_, holdsTile_of (g := gang0) ?_ ?_, poised_of ?_, poised_of ?_, ?_⟩,
    poised_of ?_, holdsTile_of (g := gang0) ?_ ?_, ?_⟩ <;>
    decide +kernel

/-- CLD.F32 a0, o1, [n1], n2. -/
def cld1 : CldR := { stall := 0, a := .n 1, b := .n 2, c := .z, tile := 0, os := 1, kind := .f32, fmt := 0 }

/-- Its form. -/
def cldForm : Form := { noOperands with a := .s (.n 1), b := .s (.n 2), c := .s .z }

/-- A geometry: k-rows of 32 granules in .GLB, and a number of them, one after another. -/
def geo32 (k : Nat) : Nat := 32 + k * 2 ^ 16

theorem test_witness_ContractingLoadsAreStartedAndWatched :
    (let s := loading Record.reset [(1, 0x100), (2, geo32 8)]
     Ready s cldForm ∧ (cldCheck cld1).pre s (avail s cldForm) = none ∧ (cldCheck cld1).mid s (avail s cldForm) = none ∧
       ¬ loads s.me ∧ ¬ SomeLoad s (fun r => decide (r.tile = 0) = true) ∧ HoldsTile s 0 ∧ Ready s noOperands ∧
       Unfenced s ∧ Ready s { noOperands with d := .s (.n 3) }) ∧
    (let s := loading run0 [(1, 0x100), (2, geo32 8)]
     loads s.me ∧ s.me.record.tile = 0 ∧ s.me.record.base ≠ s.me.record.sectors ∧ s.me.record.inflight ≠ [] ∧ HoldsTile s 0 ∧
       Ready s noOperands ∧ (cldCheck cld1).mid s (avail s cldForm) = none) ∧
    (let r := { run0 with inflight := [] }
     r.state = .running ∧ r.base ≠ r.sectors ∧ ({ run0 with state := .faulted } : Record).tile = 0) := by
  refine ⟨⟨poised_of ?_, ?_, ?_, ?_, fun h => absurd (someLoad_iff.mpr h) ?_, holdsTile_of (g := gang0) ?_ ?_, poised_of ?_,
    unfenced_of ?_, poised_of ?_⟩, ⟨Or.inl ?_, ?_, ?_, ?_, holdsTile_of (g := gang0) ?_ ?_, poised_of ?_, ?_⟩, ?_⟩ <;>
    first
    | decide +kernel
    | (unfold loads; decide +kernel)

/-- A core whose buffer 2 has counts. -/
def buffered (b : CBuf) (l : List (Nat × Nat)) : State :=
  core0 (one l) (fun x => { x with cbufs := [(2, { b with owner := some (0, 0), base := 0x100, size := 32, count := 4 })] })

theorem test_witness_CircularBuffersCountTheirSlots :
    (let s := one [(1, 0), (2, 32), (3, 128)]
     let g : Form := { noOperands with a := .s (.n 1), b := .s (.n 2), c := .s (.n 3) }
     Ready s g ∧ (valsOf s g).b.toNat = 32 ∧ (valsOf s g).c.toNat ≤ 256 ∧ (s.myCore.cbuf 2).owner = none ∧
       ∃ l, resolve s 0 s.me.thread .spd needStore false (valsOf s g).a 4096 = .ok l) ∧
    (let s := buffered { CBuf.reset with free := 1, filled := 1, reserved := 1, taken := 1, rsv := 3, take := 3 } []
     let g : Form := { noOperands with d := .s (.n 4) }
     Ready s g ∧ OwnsBuffer s 2 ∧ waitersBefore s.myCore (s.myCore.cbuf 2) 0 false < 1 ∧
       waitersBefore s.myCore (s.myCore.cbuf 2) 0 true < 1 ∧ NoRed (settle s) ∧ (s.myCore.cbuf 2).reserved ≠ 0 ∧
       (s.myCore.cbuf 2).taken ≠ 0 ∧ Ready s noOperands) ∧
    (let s := buffered CBuf.reset []
     OwnsBuffer s 2 ∧ (s.myCore.cbuf 2).free = 0 ∧ (s.myCore.cbuf 2).filled = 0 ∧ s.me.trace = false ∧
       (s.myCore.cbuf 2).reserved = 0 ∧ (s.myCore.cbuf 2).taken = 0) := by
  refine ⟨⟨poised_of ?_, ?_, ?_, ?_, okAny_of ?_⟩, ⟨poised_of ?_, ?_, ?_, ?_, calm_of ?_, ?_, ?_, poised_of ?_⟩, ?_⟩ <;>
    first
    | decide +kernel
    | (unfold OwnsBuffer; decide +kernel)

theorem test_witness_MessageWordsSendPeekAndClear :
    (let s := one [(1, 1 * 64 + 3 * 4), (2, 5)]
     Ready s stForm ∧ Unfenced s ∧ ¬ (bits (valsOf s stForm).a 1 1 = 1 ∧ bits (valsOf s stForm).a 10 4 ≠ 0) ∧
       s.ownsCluster s.me.thread.part (locCore (valsOf s stForm).a / 16) = true ∧ waiting (consumeAll s stForm) 0 < 8 ∧
       waiting (consumeAll s stForm) ((s.cur.1 + 3) % 4) < 8) ∧
    (let f : Flit := { kind := 1, part := 0, plane := 0, age := 0, seq := 0, nfl := 1, stamp := 0, msgid := 0, drouter := 0, dend := 0, srouter := 0, send := 0, dcore := 1, scoreId := 0, sslot := 0, at_ := 0, due := 0, payload := .chunk 0 [] }
     8 ≤ waiting (core0 (one []) (fun x => { x with inject := List.replicate 8 f })) 0) ∧
    (let s := linked []
     let g : Form := { noOperands with d := .s (.n 4) }
     Ready s g ∧ (s.me.mreg 2).full = true ∧ (s.me.mreg 2).topx = s.me.status.getLsbD 0 ∧ (s.me.mreg 3).full = false ∧
       Ready s noOperands ∧ (∀ e ∈ s.myCore.inbox, ¬ (e.slot = s.cur.2 ∧ e.reg = 2))) ∧
    (on { slotAt 1 [] with m := [(2, { val := 9, full := true, topx := true })] }).me.mreg 2 = { val := 9, full := true, topx := true } ∧
    (let x : Slot := { slotAt 1 [] with thread := { thr with spill := true } }
     let y : Core := { Core.reset with slots := [(15, x)], inbox := [{ slot := 1, reg := 2, value := 5, topx := false }] }
     let s : State := { one [] with cur := (0, 15), cores := [(0, y)] }
     let g : Form := { noOperands with d := .s (.n 4) }
     Ready s g ∧ s.cur.2 = 15 ∧ s.me.thread.spill = true ∧ (s.me.mreg 6).full = false ∧ s.myCore.inbox ≠ []) := by
  refine ⟨⟨poised_of ?_, unfenced_of ?_, ?_, ?_, ?_, ?_⟩, ?_, ⟨poised_of ?_, ?_, ?_, ?_, poised_of ?_, ?_⟩, ?_, poised_of ?_, ?_⟩ <;>
    decide +kernel

/-- A slot about to migrate, with n1 naming cluster 0 and v0 to v3. -/
def migrating (granted : Option (Nat × Nat)) : State :=
  on { slotAt 1 [(1, 0xF0000)] with granted := granted, asked := granted.isSome }

theorem test_witness_MigratingThreadsLeaveTheirSlot :
    (let s := migrating (some (1, 3))
     let a := (valsOf s (formSrc (.n 1))).a
     let h := s.me.block.headD 0
     Ready s (formSrc (.n 1)) ∧ Unfenced s ∧ Clean (within s (formSrc (.n 1))) ∧ s.me.fetcher.claiming = false ∧ bits h 27 1 = 1 ∧ s.me.tin = false ∧ a.toNat < 2 ^ 32 ∧ bits a 6 10 = 0 ∧
       ones (bits a 16 16) ≤ 4 ∧ 64 + 8 * (ones (bits h 34 16) + 8) + 8 * bits h 29 5 + 128 * ones (bits a 16 16) ≤ 768 ∧
       s.ownsCluster s.me.thread.part (a.toNat % 64) = true ∧ ¬ loads s.me ∧ s.me.anyPending = false ∧
       s.me.granted = some (1, 3) ∧ s.me.trace = false) ∧
    Ready (migrating none) (formSrc (.n 1)) ∧ (migrating none).me.granted = none ∧ (migrating none).me.asked = false ∧
    (let s := one [(1, 0x1234)]
     let f := formA (.n 1) (.n 3)
     Ready s f ∧ (∃ l, resolve s 0 s.me.thread .glb needLoad false (valsOf s f).a 1 = .ok l) ∧
       translate (consumeAll s f) 0 s.me.thread needLoad (valsOf s f).a = .ok (0x1234, 0x9F) ∧ Cached (consumeAll s f) (valsOf s f).a ∧
       (0x9F : W64).getLsbD 9 = false ∧ regionOf 0x1234 = .hbm 0 ∧ (0x29F : W64).getLsbD 9 = true) := by
  refine ⟨⟨poised_of ?_, unfenced_of ?_, clean_of ?_, ?_, ?_, ?_, ?_, ?_, ?_, ?_, ?_, ?_, ?_, ?_, ?_⟩, poised_of ?_, ?_, ?_,
    poised_of ?_, okAny_of ?_, ok_of ?_, cached_of ?_, ?_⟩ <;>
    first
    | decide +kernel
    | (unfold loads; decide +kernel)

/-- A machine with a dirty line in the L1 and an alias page in the TLB. -/
def cached (a n : Nat) : State :=
  let s := core0 (one [(1, a), (2, n)]) (fun x => { x with l1 := [{ line8 1 with dirty := 1 }] })
  let alias_ : TlbEntry := { part := 0, asid := 0, large := false, vpage := 2 ^ 14, leaf := 0x400000000001F }
  { s with
    clusters := [(0, { Cluster.reset with tlb := [page, alias_] })]
    windows := [(0, { Window.reset with alias_ := 2 ^ 50, len := 65536, ctl := 8 })]
    aliases := [(2 ^ 44, List.replicate 64 0)] }

theorem test_witness_RangeWordsCleanAndInvalidate :
    (let s := cached 0 (2 ^ 32)
     let u := within s stForm
     Ready s stForm ∧ NoRed u ∧ Unfenced u ∧ (valsOf s stForm).b.toNat ≤ 2 ^ 32 ∧
       (ea 0 (valsOf s stForm).a).toNat + (valsOf s stForm).b.toNat ≤ 2 ^ 64 ∧ (∀ l ∈ u.myCore.l1, l.vline < 2 ^ 59) ∧
       u.myCore.l1 ≠ []) ∧
    (let s := cached (2 ^ 30) 65536
     let u := within s stForm
     let e := ea 0 (valsOf s stForm).a
     Ready s stForm ∧ NoRed u ∧ Unfenced u ∧ 0 < (valsOf s stForm).b.toNat ∧ e.toNat % 2 ^ 16 + (valsOf s stForm).b.toNat ≤ 2 ^ 16 ∧
       canonical e = true ∧ lookup u 0 0 0 e.toNat = .leaf false 0x400000000001F ∧
       regionOf (leafAddr false 0x400000000001F (e.toNat % 2 ^ 55)) = .aliased) ∧
    (let s := cached 0 (2 ^ 32 + 1)
     s.me.mayIssue = true ∧ s.me.suspect = false ∧ (avail s stForm).b.val? = some 0x100000001) := by
  refine ⟨⟨poised_of ?_, calm_of ?_, unfenced_of ?_, ?_, ?_, ?_, ?_⟩,
    ⟨poised_of ?_, calm_of ?_, unfenced_of ?_, ?_, ?_, ?_, ?_, ?_⟩, ?_⟩ <;> decide +kernel

/-! ### Witnesses: barriers, launches, engines, handles -/

/-- A machine with a barrier object at 0x100: expected, count and phase word; and n1 and n2. -/
def barrier (exp cnt st a b : Nat) : State :=
  one [(1, a), (2, b)] (with_ (with_ (with_ [] 0x100 4 exp) 0x104 4 cnt) 0x108 4 st)

theorem test_witness_BarriersCountArrivalsAndWait :
    (let s := barrier 2 1 7 0x100 7
     let f := formA (.n 1) (.n 3)
     Ready s f ∧ AtHome s f needArrive (valsOf s f).a 64 0x100 0x9F ∧ Clean (within s f) ∧
       (within s f).poisoned 0x100 = false ∧ s.me.arrived = none ∧ num (within s f).mem 0x100 4 = 2 ∧
       num (within s f).mem 0x100 4 ≤ (num (within s f).mem 0x104 4 + 1) % 2 ^ 32 ∧
       Ready s stForm ∧ AtHome s stForm needWaitBar (valsOf s stForm).a 64 0x100 0x9F ∧ Clean (within s stForm) ∧
       (within s stForm).poisoned 0x100 = false ∧ num (within s stForm).mem 0x108 4 % 2 ^ 31 = (valsOf s stForm).b.toNat % 2 ^ 31) ∧
    (let s := barrier 0 1 7 0x100 8
     Ready s stForm ∧ num (within s stForm).mem 0x108 4 % 2 ^ 31 ≠ (valsOf s stForm).b.toNat % 2 ^ 31 ∧
       num (within s stForm).mem 0x100 4 = 0) ∧
    (let s := on { slotAt 1 [(1, 0x100)] with arrived := some 1 }
     let f := formA (.n 1) (.n 3)
     Ready s f ∧ AtHome s f needArrive (valsOf s f).a 64 0x100 0x9F ∧ Clean (within s f) ∧ s.me.arrived = some 1 ∧
       num (within s f).mem 0x108 4 % 2 ^ 31 ≠ 1) ∧
    (let s := on { slotAt 1 [(1, 0x100)] with monitor := { armed := true, woken := true, line := 8 } }
     let f := formSrc (.n 1)
     Ready s f ∧ (∃ l, resolve s 0 s.me.thread .glb needMonitor false (valsOf s f).a 1 = .ok l) ∧
       translate (consumeAll s f) 0 s.me.thread needMonitor (valsOf s f).a = .ok (0x100, 0x9F) ∧ Unfenced s ∧
       s.me.monitor.armed = true ∧ s.me.monitor.line = 0x100 / 32 ∧ s.me.monitor.woken = true) := by
  refine ⟨⟨poised_of ?_, home_of ?_, clean_of ?_, ?_, ?_, ?_, ?_, poised_of ?_, home_of ?_, clean_of ?_, ?_, ?_⟩,
    ⟨poised_of ?_, ?_, ?_⟩, ⟨poised_of ?_, home_of ?_, clean_of ?_, ?_, ?_⟩, poised_of ?_, okAny_of ?_, ok_of ?_,
    unfenced_of ?_, ?_⟩ <;> decide +kernel

/-- A launch record: entry 0x2000, one gang of one thread, partition and space 0. -/
def record : List Byte :=
  toBytes 8 0x2000 ++ List.replicate 24 0 ++ toBytes 4 1 ++ [1, 1, 1] ++ List.replicate 25 0

/-- A machine whose core 0 is a service core, with the record at 0x100 and the space recorded, or not. -/
def launching (known : Bool) : State :=
  { one [(1, 0x100)] (with_ [] 0x100 64 (fieldAt record 0 64)) with
    svcCores := [0], asrec := if known then [(0, 0)] else [] }

/-- Nothing of the slot is under way on the network, a link or the agenda. -/
def quiet (u : State) : Bool :=
  u.flits.isEmpty && u.cores.all (fun e => e.2.inject.isEmpty && e.2.links.all (fun f => f.wire.isEmpty)) && u.agenda.isEmpty

theorem arrived_of {u : State} (h : quiet u = true) : AllArrived u := by
  simp only [quiet, Bool.and_eq_true, List.isEmpty_iff, List.all_eq_true] at h
  obtain ⟨⟨h1, h2⟩, h3⟩ := h
  refine ⟨fun f m hf => ?_, fun e he f hf => Or.inl ((h2 e he).2 f hf), fun m hm => by simp [h3] at hm⟩
  rcases hf with hf | ⟨e, he, hf⟩
  · simp [h1] at hf
  · simp [(h2 e he).1] at hf

/-- A FENCE of any ordering has nothing to wait for. -/
theorem owesNothing_of {u : State} {o : Ord} (h : (calm u && quiet u) = true) : ¬ StillOwes u o := by
  simp only [Bool.and_eq_true] at h
  exact fun hs => hs.2 ⟨calm_of h.1, arrived_of h.2⟩

/-- A flit with the message of core 0, slot 0 to slot 0 of core 1. -/
def sent : Flit :=
  { kind := 1, part := 0, plane := 1, age := 0, seq := 0, nfl := 0, stamp := 0, msgid := 0, drouter := 1, dend := 1, srouter := 0, send := 0, dcore := 1, scoreId := 0, sslot := 0, at_ := 0, due := 0
    payload := .reg { core := 1, slot := 0, reg := 0, value := 0, topx := false, svc := false, srcCore := 0, srcSlot := 0, notice := false } }

/-- That message still waits for injection. -/
theorem stillOwes_sent : StillOwes (core0 (one []) (fun x => { x with inject := [sent] })) (.rel .cl) :=
  ⟨⟨.cl, Or.inl rfl⟩, fun h => h.2.1 sent _
    (Or.inr ⟨_, List.mem_of_mem_head? (l := (core0 (one []) (fun x => { x with inject := [sent] })).cores) rfl, List.mem_singleton.mpr rfl⟩)
    rfl ⟨by decide +kernel, rfl⟩⟩

theorem test_witness_FencesJoinsAndLaunchesAreTaken :
    (let s := one []
     ¬ StillOwes s (.ar .sy) ∧ StillOwes (core0 (one []) (fun x => { x with inject := [sent] })) (.rel .cl)) ∧
    (let s := on { slotAt 1 [(1, 0x100), (2, 5)] with fence := some (.rel .pk) }
     Ready s stForm ∧ (ea 0 (valsOf s stForm).a).toNat % 8 = 0 ∧
       (∃ l, resolve s 0 s.me.thread .glb needStore true (ea 0 (valsOf s stForm).a) 8 = .ok l) ∧ (within s stForm).me.fence ≠ none) ∧
    (let s := { one [] with clusters := [(0, { Cluster.reset with queues := [(3, { CopyQueue.reset with items := [.op false 0 0x800 0 0 0 thr 0 none none] })] })] }
     (BitVec.ofNat 6 8).getLsbD 3 = true ∧ ((s.cluster 0).queue 3).items ≠ [] ∧ ((s.cluster 0).queue 3).items.length < 64 ∧
       ∀ id g, ((s.cluster 0).queue 3).items.head? ≠ some (.marker id g)) ∧
    (let s := one []
     Ready s noOperands ∧ Unfenced s ∧ NoRed (settle s) ∧ (∀ q < 4, ((s.cluster 0).queue q).items.length < 64) ∧
       s.myCore.rdq.length < 16 ∧ s.myCore.rqq.length < 16) ∧
    (let s := launching true
     let f := formA (.n 1) (.n 3)
     let u := within s f
     Ready s f ∧ (valsOf s f).a.toNat % 64 = 0 ∧ s.isSvc 0 = true ∧ NoRed u ∧ Free u .glb (valsOf s f).a ∧
       readGlobal s 0 s.me.thread needLoad (valsOf s f).a 64 = .ok (record, false) ∧
       readGlobal u 0 u.me.thread needLoad (valsOf s f).a 64 = .ok (record, false) ∧
       recordOk (orderBefore u u.cur.1 (.rel .pk)) record = true ∧
       (u.launches.filter (fun e => decide (e.2.next < e.2.gangs))).length < 4096) ∧
    (let u := within (launching false) (formA (.n 1) (.n 3))
     recordOk (orderBefore u u.cur.1 (.rel .pk)) record = false) := by
  refine ⟨⟨owesNothing_of ?_, stillOwes_sent⟩, ⟨poised_of ?_, ?_, okAny_of ?_, ?_⟩, ⟨?_, ?_, ?_, fun id g h => ?_⟩,
    ⟨poised_of ?_, unfenced_of ?_, calm_of ?_, ?_, ?_, ?_⟩, ⟨poised_of ?_, ?_, ?_, calm_of ?_, free_of ?_, ok_of ?_, ok_of ?_, ?_, ?_⟩, ?_⟩ <;>
    first
    | decide +kernel
    | cases h

/-- A machine with n1 to n3, an RDX descriptor at 0x400 that fails (no sources), and an RQZ entry at 0x100. -/
def engines (n1 n2 n3 : Nat) : State := one [(1, n1), (2, n2), (3, n3)]

/-- The conditions of `BarrierReach`, as far as they can be computed. -/
def barrierReach (s : State) (g : Form) (b : W64) (bar : Nat) (leaf : W64) : Bool :=
  calm (within s g) && free (within s g) .glb b && decide (b.toNat % 64 = 0) &&
    okAny (resolve s s.cur.1 s.me.thread .glb needEngineBar false b 64) && isOk (translate (within s g) (within s g).cur.1 (within s g).me.thread needEngineBar b) (bar, leaf)

theorem barrierReach_of {s : State} {g : Form} {b : W64} {bar : Nat} {leaf : W64}
    (h : barrierReach s g b bar leaf = true) : BarrierReach s g b bar := by
  simp only [barrierReach, Bool.and_eq_true, decide_eq_true_eq] at h
  exact ⟨calm_of h.1.1.1.1, free_of h.1.1.1.2, h.1.1.2, okAny_of h.1.2, leaf, ok_of h.2⟩

theorem test_witness_EngineWordsJoinTheirQueue :
    (let s := engines 0x400 0x800 0
     Ready s stForm ∧ (valsOf s stForm).a.toNat % 64 = 0 ∧ BarrierReach s stForm (valsOf s stForm).b 0x800 ∧
       NoRed (within s stForm) ∧ (copyQueue (within s stForm) 3).length < 64) ∧
    (let s := engines 0x420 0x800 (2 ^ 32 - 1)
     let g : Form := { noOperands with a := .s (.n 1), b := .s (.n 2), c := .s (.n 3) }
     Ready s g ∧ (valsOf s g).a.toNat % 32 = 0 ∧ (valsOf s g).c.toNat ≤ 2 ^ 32 - 1 ∧ BarrierReach s g (valsOf s g).b 0x800) ∧
    (let s := { engines 0 0 0 with clusters := [(0, { Cluster.reset with queues := [(3, { CopyQueue.reset with items := List.replicate 64 (.marker 0 (0, 0)) })] })] }
     64 ≤ (copyQueue s 3).length ∧ Ready s { noOperands with d := .s (.n 4) }) ∧
    (let s := engines 0x400 0x800 0
     let u := within s stForm
     Ready s stForm ∧ (rdxCheck .f32).mid s (avail s stForm) = none ∧ NoRed u ∧ Free u .glb (valsOf s stForm).a ∧
       (rangeStarts (rdxRanges .f32 (List.replicate 128 0) (valsOf s stForm).b)).all (fun e => noWalk u e.1) = true ∧
       readGlobal u 0 u.me.thread needLoad (valsOf s stForm).a 128 = .ok (List.replicate 128 0, false) ∧
       rangesFault u 0 u.me.thread (rdxRanges .f32 (List.replicate 128 0) (valsOf s stForm).b) = none ∧
       translate u 0 u.me.thread needEngineBar (valsOf s stForm).b = .ok (0x800, 0x9F) ∧ u.myCore.rdq.length < 16) ∧
    (let s := engines 0x100 5 0x800
     let g : Form := { noOperands with a := .s (.n 1), b := .s (.n 2), c := .s (.n 3) }
     let u := within s g
     Ready s g ∧ rqzCheck.mid s (avail s g) = none ∧ NoRed u ∧ Unfenced u ∧
       (rangeStarts (rqzRanges (valsOf s g).a (valsOf s g).c)).all (fun e => noWalk u e.1) = true ∧
       rangesFault u 0 u.me.thread (rqzRanges (valsOf s g).a (valsOf s g).c) = none ∧
       translate u 0 u.me.thread needEngineBar (valsOf s g).c = .ok (0x800, 0x9F) ∧ u.myCore.rqq.length < 16) ∧
    16 ≤ (core0 (one []) (fun x => { x with rqq := List.replicate 16 (.marker 0) })).myCore.rqq.length := by
  refine ⟨⟨poised_of ?_, ?_, barrierReach_of (leaf := 0x9F) ?_, calm_of ?_, ?_⟩,
    ⟨poised_of ?_, ?_, ?_, barrierReach_of (leaf := 0x9F) ?_⟩, ⟨?_, poised_of ?_⟩, ⟨poised_of ?_, ?_, calm_of ?_, free_of ?_, ?_, ok_of ?_, ?_, ok_of ?_, ?_⟩,
    ⟨poised_of ?_, ?_, calm_of ?_, unfenced_of ?_, ?_, ?_, ok_of ?_, ?_⟩, ?_⟩ <;> decide +kernel

/-- An object table of two entries at 0x1000, its heap at 0x10000: entry 0 live under generation 5 with one strong handle or
as many as given, 64 bytes from offset 64 on. -/
def objects (strong : Nat) (l : List (Nat × Nat)) : State :=
  let m := with_ (with_ (with_ (with_ (with_ [] 0x1000 8 64) 0x1008 8 64) 0x1010 4 strong) 0x1014 1 0x12) 0x1018 4 5
  { one l m with
    parts := [(0, { part0 with table := 0x1000, capacity := 2, hbase := 0x10000, hphys := 0x10000, hsize := 4096, low := 64, high := 128 })] }

/-- A strong handle of object 0. -/
def strong0 : Nat := 2 ^ 63 + 5 * 2 ^ 32

/-- Object 0. -/
def object0 (strong : Nat) : Entry := { off := 64, size := 64, strong := strong, prio := 2, state := 1, gen := 5, own := 0 }

theorem test_witness_HandlesCountTheirReferences :
    (let s := objects 1 [(1, 4096 - 128), (2, 3)]
     let f := formAB (.n 1) (.n 2) (.n 3)
     let u := within s f
     Ready s f ∧ Unfenced u ∧ (valsOf s f).a.toNat ≤ (u.part 0).hsize ∧ freeEntry u (u.part 0) = some 1 ∧
       freeRun u (u.part 0) (valsOf s f).a.toNat = some 128 ∧ (u.part 0).low ≤ freeMemory u (u.part 0) ∧ tableHome u 1 ∧
       Clean u ∧ u.me.thread.part < 16) ∧
    (let s := objects 1 [(1, 4096), (2, 3)]
     let u := within s (formAB (.n 1) (.n 2) (.n 3))
     Ready s (formAB (.n 1) (.n 2) (.n 3)) ∧ freeRun u (u.part 0) 4096 = none ∧ (u.part 0).hsize < 4097) ∧
    (let s := objects 1 [(1, strong0), (2, 3)]
     let u := within s (formSrc (.n 1))
     Ready s (formSrc (.n 1)) ∧ NoRed u ∧ Unfenced u ∧ Clean u ∧ hStrong (valsOf s (formSrc (.n 1))).a = true ∧
       Names u (valsOf s (formSrc (.n 1))).a 0 (object0 1) ∧ tableHome u 0 ∧ Ready s (formA (.n 1) (.n 3)) ∧ Ready s stForm) ∧
    (let u := objects (2 ^ 32 - 1) []
     Names u (BitVec.ofNat 64 strong0) 0 (object0 (2 ^ 32 - 1)) ∧ liveObject u 0 (BitVec.ofNat 64 (strong0 + 2 ^ 32)) = none) ∧
    (let k : Collective := { addr := 0, src := 0, dst := 0, stage := 0, status := 0, bar := 0, nblk := 2, image := 0x01011214, inPorts := 1, outPorts := 1, id := 0, masks := [], enq := [0], queue := [(0, 1, false)], claims := 0, anyInc := false, since := 0 }
     let s : State := { one [] with cur := (1024, 0), cores := [(1024, { Core.reset with slots := [(0, slotAt 1 [])] })], coll := some k }
     Ready s { noOperands with d := .s (.n 4) } ∧ Unfenced s ∧ isGateway s.cur.1 = true ∧ k.queue ≠ [] ∧ k.claims + 1 ≠ k.nblk ∧ ({ k with claims := 1 } : Collective).claims + 1 = k.nblk) ∧
    (Ready (one []) { noOperands with d := .s (.n 4) } ∧ isGateway (one []).cur.1 = false) := by
  refine ⟨⟨poised_of ?_, unfenced_of ?_, ?_, ?_, ?_, ?_, ⟨0, ?_⟩, clean_of ?_, ?_⟩, ⟨poised_of ?_, ?_, ?_⟩,
    ⟨poised_of ?_, calm_of ?_, unfenced_of ?_, clean_of ?_, ?_, ?_, ⟨0, ?_⟩, poised_of ?_, poised_of ?_⟩, ⟨?_, ?_⟩, ⟨poised_of ?_, unfenced_of ?_, ?_⟩, poised_of ?_, ?_⟩ <;>
    first
    | decide +kernel
    | (unfold Names; decide +kernel)

/-- Whether the table's line for a handle's index carries no error. -/
def entrySound (u : State) (h : W64) : Bool := !u.poisoned ((u.part u.me.thread.part).table + 32 * (h.toNat % 2 ^ 32))

/-- The conditions of `ByHandle` for an object of entry e, as far as they can be computed. -/
def byHandle (s : State) (f : Form) (h : W64) (off : BitVec 24) (need : Need) (n : Nat) (a : W64) (loc : Loc) (e : Entry) : Bool :=
  hStrong h && decide (off.toNat < 2 ^ 23 ∧ off.toNat % n = 0) && decide (s.me.entryRead = some (h, .live e)) &&
    decide (off.toNat + n ≤ e.size ∧ (objectAddr s e off).toNat % n = 0) &&
    okAny (resolve s s.cur.1 s.me.thread .glb need true (objectAddr s e off) n) && decide (a = objectAddr (within s f) e off) &&
    isOk (resolve (within s f) (within s f).cur.1 (within s f).me.thread .glb need true a n) loc && calm (within s f) &&
    free (within s f) .glb a

theorem entrySound_of {u : State} {x : W64} (h : entrySound u x = true) : EntrySound u x := fun _ _ => by
  simpa [entrySound] using h

theorem byHandle_of {s : State} {f : Form} {h : W64} {off : BitVec 24} {need : Need} {n : Nat} {a : W64} {loc : Loc}
    (e : Entry) (hb : byHandle s f h off need n a loc e = true) : ByHandle s f h off need n a loc := by
  simp only [byHandle, Bool.and_eq_true, decide_eq_true_eq] at hb
  obtain ⟨⟨⟨⟨⟨⟨⟨⟨h1, h2⟩, h3⟩, h4⟩, h5⟩, h6⟩, h7⟩, h8⟩, h9⟩ := hb
  exact ⟨h1, h2, ⟨e, h3, h4.1, h4.2, okAny_of h5, h6⟩, ok_of h7, calm_of h8, free_of h9⟩

/-- The word on the slot has read what the entry of a handle holds. -/
def havingRead (r : EntryRead) (s : State) (h : Nat) : State :=
  s.setMe { s.me with entryRead := some (BitVec.ofNat 64 h, r) }

theorem test_witness_ObjectsAreReachedThroughHandles :
    (let s := havingRead (.live (object0 1)) (objects 1 [(1, strong0), (2, 3)]) strong0
     let f := formA (.n 1) (.n 3)
     ByHandle s f (valsOf s f).a 56 needLoad 8 0x10078 (.mem 0x10078 0x9F) ∧ Current (within s f) (.mem 0x10078 0x9F) ∧
       ByHandle s stForm (valsOf s stForm).a 56 needStore 8 0x10078 (.mem 0x10078 0x9F) ∧
       Damaged { within s f with poison := [0x10078 / 64] } (.mem 0x10078 0x9F) 8 ∧ Unfenced (within s f)) ∧
    (let s := objects 1 [(1, strong0 - 2 ^ 63), (2, 3)]
     Ready s stForm ∧ hStrong (valsOf s stForm).a = false) ∧
    (((0xFFFFFF : BitVec 24).signExtend 64 : W64).toNat % 8 ≠ 0 ∧ ((56 : BitVec 24).signExtend 64 : W64).toNat % 8 = 0 ∧
      ((0xFFFFF8 : BitVec 24).signExtend 64 : W64).toNat % 8 = 0 ∧ 2 ^ 23 ≤ (0xFFFFF8 : BitVec 24).toNat) ∧
    (let s := objects 1 [(1, strong0 + 2 ^ 32), (2, 3)]
     Ready s stForm ∧ hStrong (valsOf s stForm).a = true ∧ liveObject s 0 (valsOf s stForm).a = none) ∧
    (let s := on { slotAt 1 [(1, 0x100), (2, 0x140), (3, 0x180)] with fmt := [(2, 0x01011214)] }
     let g : Form := { noOperands with a := .s (.n 1), b := .s (.n 2), c := .s (.n 3) }
     let u := within s g
     NoRed u ∧ Unfenced u ∧ Flawless u ∧ Settled u ∧
       (List.range 20).all (fun i => noWalk u ((valsOf s g).a + BitVec.ofNat 64 i) && noWalk u ((valsOf s g).b + BitVec.ofNat 64 i) &&
         noWalk u ((valsOf s g).c + BitVec.ofNat 64 i) && isOk (resolve u 0 u.me.thread .glb needStore true
         ((valsOf s g).a + BitVec.ofNat 64 i) 1) (.mem (0x100 + i) 0x9F)) = true ∧
       (∃ B : Nat → Nat, ∀ i < 20, ByteIs u .glb ((valsOf s g).b + BitVec.ofNat 64 i) (B i)) ∧
       (∃ C : Nat → Nat, ∀ i < 20, ByteIs u .glb ((valsOf s g).c + BitVec.ofNat 64 i) (C i)) ∧
       leafClass 0x9F = 0 ∧ regionOf 0x113 = .hbm 0) ∧
    (let s := objects 1 [(1, strong0), (2, 3)]
     let f := formA (.n 1) (.n 3)
     let u := within s f
     Ready s f ∧ hStrong (valsOf s f).a = true ∧ Names u (valsOf s f).a 0 (object0 1) ∧ Names s (valsOf s f).a 0 (object0 1) ∧
       (56 : BitVec 24).toNat + 8 ≤ (object0 1).size ∧
       (∃ l, resolve s 0 s.me.thread .glb needLoad true (BitVec.ofNat 64 (0x10000 + 64 + 56)) 8 = .ok l) ∧
       resolve u 0 u.me.thread .glb needLoad true (BitVec.ofNat 64 (0x10000 + 64 + 56)) 8 = .ok (.mem 0x10078 0x9F) ∧
       NoRed u ∧ valueAt u (.mem 0x10078 0x9F) 8 = some 0 ∧ regionOf 0x10078 = .hbm 0 ∧ u.poisoned 0x10078 = false) ∧
    (let s := objects 1 [(1, strong0), (2, 3)]
     let u := within s stForm
     Ready s stForm ∧ Names u (valsOf s stForm).a 0 (object0 1) ∧ Clean u ∧
       resolve u 0 u.me.thread .glb needStore true (BitVec.ofNat 64 (0x10000 + 64 + 56)) 8 = .ok (.mem 0x10078 0x9F)) ∧
    (object0 1).size < (57 : BitVec 24).toNat + 8 ∧ 2 ^ 23 ≤ (0xFFFFFF : BitVec 24).toNat ∧
    (let s := on { slotAt 1 [(1, 0x100), (2, 0x140), (3, 0x180)] with fmt := [(2, 0x01011214)] }
     let g : Form := { noOperands with a := .s (.n 1), b := .s (.n 2), c := .s (.n 3) }
     let u := within s g
     Ready s g ∧ imageValid (s.me.fmtReg 2) = true ∧ mxfp4.scale = 1 ∧ mxfp4.width = 4 ∧ (valsOf s g).a.toNat % 4 = 0 ∧
       (∀ i < 20, ∃ l, resolve s 0 s.me.thread .glb needStore true ((valsOf s g).a + BitVec.ofNat 64 i) 1 = .ok l) ∧
       (∀ i < 20, ∃ l, resolve u 0 u.me.thread .glb needStore true ((valsOf s g).a + BitVec.ofNat 64 i) 1 = .ok l) ∧
       u.poison = []) := by
  refine ⟨⟨byHandle_of (object0 1) ?_, current_of ?_, byHandle_of (object0 1) ?_, damaged_of ?_, unfenced_of ?_⟩,
    ⟨poised_of ?_, ?_⟩, ?_, ⟨poised_of ?_, ?_, ?_⟩,
    ⟨calm_of ?_, unfenced_of ?_, flawless_of ?_, settled_of ?_, ?_, bytesAre_of ?_, bytesAre_of ?_, ?_, ?_⟩,
    ⟨poised_of ?_, ?_, ?_, ?_, ?_, okAny_of ?_, ok_of ?_, calm_of ?_, ?_, ?_, ?_⟩,
    ⟨poised_of ?_, ?_, clean_of ?_, ok_of ?_⟩, ?_, ?_, poised_of ?_, ?_, ?_, ?_, ?_, fun i hi => okAny_of ?_,
    fun i hi => okAny_of ?_, ?_⟩ <;>
    first
    | decide +kernel
    | (unfold Names; decide +kernel)
    | (revert i hi; decide +kernel)

/-! ### Witnesses: steps of other agents -/

/-- The result owed under tag 4 by a slot. -/
def owing (val : OwedVal) : State := on { slotAt 1 [] with owed := [{ tag := 4, val := val }], n := [(5, { val := 0, st := .pending 4 1 })] }

/-- A machine with a page table at 0x10000 that maps addresses from 0 on to stack 0 by a large page. -/
def walked : State :=
  { one [] (with_ (with_ [] 0x10000 8 (1 + 0x20000)) 0x20000 8 0x9F) with asrec := [(0, 0x10000)] }

/-- A RED of 1 to the word at 0x100. -/
def red1 : DefRed :=
  { id := 3, core := 0, slot := 0, thr := thr, op := .add, w := .w, addr := 0x100, val := 1, word := 0, failed := false }

/-- A running load of 8 k-rows of 32 granules from 0x100 on. -/
def run1 : Record := { run0 with sectors := 8, geo := BitVec.ofNat 64 (geo32 8), a := 0x100, rows := 4, rK := 8 }

theorem test_witness_ArrivalsComeToTheirSlots :
    (((owing (.scalar 0 9)).slot 0 0).owed.find? (fun o => o.tag == 4) = some { tag := 4, val := .scalar 0 9 } ∧
      ((owing (.vector 9)).slot 0 0).owed.find? (fun o => o.tag == 4) = some { tag := 4, val := .vector 9 } ∧
      ((owing .poison).slot 0 0).owed.find? (fun o => o.tag == 4) = some { tag := 4, val := .poison } ∧
      ((owing (.scalar 0 9)).core 0).sealDue = false ∧ ((sealing (owing (.vector 9))).core 0).sealDue = true) ∧
    (let f : Fetcher := { Fetcher.reset with bound := true, claiming := true, desc := 0xF8, total := 2 ^ 64 - 1 }
     let s := on { slotAt 1 [] with fetcher := f }
     (s.slot 0 0).fetcher = f ∧ f.failed = false ∧ f.total < 2 ^ 64 ∧ Clean s ∧ s.poisoned 0x100 = false ∧
       latePlace s 0 (s.slot 0 0).thread (f.desc + 8) = .ok (0x100, 0x9F) ∧ num s.mem 0x100 8 < f.total) ∧
    (let f : Fetcher := { Fetcher.reset with bound := true, claiming := true, desc := 2 ^ 40 }
     let s := on { slotAt 1 [] with fetcher := f }
     (s.slot 0 0).fetcher = f ∧ latePlace s 0 (s.slot 0 0).thread (f.desc + 8) = .error 4) ∧
    (let s := { on { slotAt 1 [] with record := run1 } with gangs := [{ gang0 with stopping := true }] }
     s.stopped (s.slot 0 0).thread = true) ∧
    (let s := on { slotAt 1 [] with record := { run1 with data := [(2, [])] } }
     let r := (s.slot 0 0).record
     r.state = .running ∧ 2 ∈ r.inflight ∧ r.base ≤ 2 ∧ 2 < r.base + 256 ∧ Flawless s ∧ (mapFind r.data 2).isSome = true) ∧
    (let s := on { slotAt 1 [] with owed := [{ tag := 4, val := .scalar 0 9 }] }
     let x := s.slot 0 0
     Config.freeNat s.free % (((one []).slot 0 0).owed.length + 1) = ((one []).slot 0 0).owed.length ∧
       (Config.freeNat s.free % 2 = 0 → x.owed[Config.freeNat s.free % 2]? = some { tag := 4, val := .scalar 0 9 })) ∧
    (let s := on { slotAt 1 [] with suspect := true }
     s.me.mayIssue = true ∧ s.me.suspect = true ∧ s.me.block[s.me.idx]? = some 0 ∧ s.me.retry = false) ∧
    (let s := core0 (one []) (fun x => { x with links := [{ dir := .de, gang := (0, 0), j := 0, wire := [5], fifo := [4] }] })
     (linkFifo s 0 .de { Thread.none with launch := 0, gang := 0, j := 0 }).wire = [5]) ∧
    (let s := on { slotAt 1 [] with record := run1 }
     let r := (s.slot 0 0).record
     nextSector r = some 0 ∧ sectorFails s 0 (s.slot 0 0).thread r 0 = none ∧ r.state = .running ∧ 2 ∈ r.inflight ∧
       sectorFails s 0 (s.slot 0 0).thread r 2 = none ∧ r.base ≤ 2 ∧ 2 < r.base + 256 ∧ mapFind r.data 2 = none ∧
       s.stopped (s.slot 0 0).thread = false ∧
       (sectorData s 0 (s.slot 0 0).thread r (sectorReads r 2)).2.1 = false ∧ Flawless s ∧ 2 ∉ r.retried ∧ 2 ∈ ({ r with retried := [2] } : Record).retried ∧ r.failing = false ∧ r.aborting = false ∧
       r.held = none ∧ r.base ≠ r.sectors) ∧
    (let s := bound3 false 1 2 [] .glb
     let b := (s.slot 0 0).stream 3
     b.bound = true ∧ b.wr = false ∧ b.pos + b.buf.length < b.count ∧ b.buf.length < 16 ∧ Clean s ∧
       (∀ x ∈ s.reds, threadId x.thr ≠ threadId (s.slot 0 0).thread) ∧ valueAt s (.mem 0x104 0x9F) 4 = some 7 ∧
       resolve s 0 (s.slot 0 0).thread b.sp needLoad true (b.base + BitVec.ofNat 64 1 * b.stride) (2 ^ b.size) = .ok (.mem 0x104 0x9F)) ∧
    (let s := { one [] with reds := [red1] }
     s.reds.find? (fun x => x.id == 3) = some red1 ∧ (∀ x ∈ s.reds, threadId x.thr = threadId red1.thr → x.id = red1.id) ∧
       Clean s ∧ latePlace s 0 red1.thr red1.addr = .ok (0x100, 0x9F) ∧ s.poisoned 0x100 = false) ∧
    ((waits none false).slot 0 0).st ≠ .parked .monitor ∧
    ((on { slotAt 1 [] with st := .parked .monitor }).slot 0 0).st = .parked .monitor ∧
    (let x := (one []).slot 0 0
     x.mayIssue = true ∧ 1 ≤ x.idx ∧ x.idx ≤ hdrLen (x.block.headD 0) + 1 ∧ x.block[x.idx]? = some 0 ∧ x.trace = false ∧
       x.retry = false) ∧
    (∃ leaf, walk walked 0 0 0x100 = .leaf true leaf) ∧
    (let s := on { slotAt 1 [] with st := .parked .reservation, asked := true }
     (s.slot 0 0).st = .parked .reservation ∧ (s.slot 0 0).asked = true) ∧
    (let e : ResEntry := { line := 4, tid := 0, held := some 0 }
     let s := { one [] with res := [e], parts := [(0, { part0 with tau := 1024 })] }
     s.res.find? (fun e => e.line == 4) = some e ∧ s.partOfLine 4 = some { part0 with tau := 1024 } ∧
       s.clk.toNat < 0 + 1024 ∧ 0 + 1024 ≤ ({ s with clk := 1024 } : State).clk.toNat) := by
  refine ⟨⟨?_, ?_, ?_, ?_, ?_⟩, ⟨?_, ?_, ?_, clean_of ?_, ?_, ok_of ?_, ?_⟩, ⟨?_, err_of ?_⟩, ?_,
    ⟨?_, ?_, ?_, ?_, flawless_of ?_, ?_⟩, ⟨Nat.mod_one _, fun h => ?_⟩, ?_, ?_,
    ⟨?_, ?_, ?_, ?_, ?_, ?_, ?_, ?_, ?_, ?_, flawless_of ?_, ?_, ?_, ?_, ?_, ?_, ?_⟩,
    ⟨?_, ?_, ?_, ?_, clean_of ?_, ?_, ?_, ok_of ?_⟩, ⟨?_, ?_, clean_of ?_, ok_of ?_, ?_⟩, ?_, ?_, ?_, ⟨0x9F, ?_⟩, ?_, ?_⟩ <;>
    first
    | decide +kernel
    | (show _ = some _; rw [h]; decide +kernel)

/-- A register message of service core 0 to m7 of core 0, slot 0. -/
def msg (svc : Bool) (v : Nat) : RegMsg :=
  { core := 0, slot := 0, reg := 7, value := BitVec.ofNat 64 v, topx := false, svc := svc, srcCore := 1, srcSlot := 0, notice := false }

/-- A flit with a register message, at a router. -/
def flitAt (at_ : Nat) : Flit :=
  { kind := 1, part := 0, plane := 2, age := 0, seq := 0, nfl := 1, stamp := 0, msgid := 0, drouter := 0, dend := 0, srouter := at_, send := 0, dcore := 0, scoreId := 1, sslot := 0, at_ := at_, due := 0, payload := .reg (msg false 5) }

/-- A slot that trapped at word 1 of the block at 0x2000, whose word 2 is all zero, and has faulted. -/
def faulted : State :=
  on { slotAt 1 [] with st := .faulted, faultedBy := some .trap, tcause := 0x80, tepc := 0x2008 } headerAt2000

theorem test_witness_MessagesWakesAndFlitsAreDelivered :
    (let s := (one []).setCore 0 { (one []).core 0 with isSealed := true }
     (s.core 0).isSealed = true ∧ ¬ wakes (msg false 5)) ∧
    (((on Slot.reset).core 0).isSealed = false ∧ ((on Slot.reset).slot 0 0).st = .empty) ∧
    (let s := core0 (on { slotAt 1 [] with m := [(7, { val := 1, full := true, topx := false })] })
        (fun x => { x with inbox := List.replicate 16 { slot := 0, reg := 1, value := 0, topx := false } })
     ((s.slot 0 0).mreg 7).full = true ∧ 16 ≤ (s.core 0).inbox.length) ∧
    (noReinstate faulted 0 = false ∧ noReinstate (core0 faulted (fun x => { x with isHeld := true })) 0 = true) ∧
    (let s := on { slotAt 1 [] with st := .sealed }
     faultedSlot s 0 0 = none ∧ failedClaim s 0 0 = none ∧ sealedThread s 0 0 = some 0) ∧
    (let s := one []
     s.ownsCluster (flitAt 0).part ((flitAt 0).dcore / 16) = true ∧ s.ownsCluster (flitAt 0).part (16 / 16) = false ∧
       isGateway 16 = false ∧ (flitAt 0).kind ≠ 0x06 ∧ (flitAt 3).at_ ≠ (flitAt 3).drouter ∧ (msg false 5).notice = false) ∧
    ((one []).core 0).isSealed = false ∧ ((one []).slot 0 0).st ≠ .sealed ∧ ((one []).slot 0 0).st ≠ .empty ∧
    (let m := msg true (5 * 2 ^ 56)
     m.reg = 7 ∧ m.svc = true ∧ m.notice = false ∧ m.value.toNat / 2 ^ 56 = 5) ∧ (msg false 5).svc = false ∧
    (((one []).slot 0 0).mreg 7).full = false ∧ ((one []).core 0).inbox.length < 16 ∧
    (let s := faulted
     let x := s.slot 0 0
     faultedSlot s 0 0 = some 0 ∧ x.tcause.toNat / 2 ^ 7 % 2 ^ 7 = 1 ∧ x.faultedBy = some .trap ∧
       (x.tepc + 8 - 8 * BitVec.ofNat 64 2).toNat % 8 = 0 ∧
       fetchAt { s.setSlot 0 16 x with cur := (0, 16) } (x.tepc + 8 - 8 * BitVec.ofNat 64 2) = .word 0xFE00000000000000 ∧
       1 + 1 ≤ hdrLen 0xFE00000000000000 + 2) ∧
    waitingLoad (loading { run0 with state := .faulted, msgOut := true } []) 0 0 = some 0 ∧
    waitingLoad (loading { run0 with msgOut := true } []) 0 0 = some 0 ∧
    (let s := core0 (one []) (fun x => { x with waiting := [slotAt 1 []] })
     (s.core 0).waiting ≠ [] ∧ (freeSlotsOf s 0).head? = some 1 ∧ noReinstate s 0 = false) ∧
    (let s := { one [] with flits := [flitAt 3] }
     (∀ e ∈ s.cores, e.2.inject = []) ∧ (flitAt 3).due ≤ s.clk.toNat ∧ (flitAt 3).at_ ≠ (flitAt 3).drouter ∧
       (flitAt 0).at_ = (flitAt 0).drouter ∧ (flitAt 3).at_ < 256) ∧
    (let s := { one [] with clusters := [(0, { Cluster.reset with migpool := 0x8000 })] }
     (s.core 0).requests = [] ∧ freePoolSlot s 0 = some (0, 15) ∧ freePoolSlot (one []) 0 = none) ∧
    (let r : XferReq := { srcCore := 0, srcSlot := 0, dest := 0 }
     16 ≤ ((core0 (one []) (fun x => { x with requests := List.replicate 16 r })).core 0).requests.length) ∧
    (let s := on { slotAt 1 [] with st := .parked .grant, asked := true }
     (s.slot 0 0).asked = true ∧ (s.slot 0 0).st = .parked .grant ∧ (s.slot 0 0).granted = none ∧
       ((one []).slot 0 0).asked = false) ∧
    (let q : Reasm := { srcCore := 1, srcSlot := 2, slot := 15, nfl := 1, chunks := [(0, List.replicate 128 0)] }
     let s := core0 (one []) (fun x => { x with reasm := [q] })
     (s.core 0).reasm.find? (fun q => q.slot == 15 && q.nfl != 0 && q.chunks.length == q.nfl) = some q) ∧
    (let p : Nat × SvcBody := (15, .launch 0 "BADWAIT")
     let s := { one [] with posted := [p] }
     s.posted.find? (fun p => p.1 == 15) = some p) := by
  refine ⟨⟨?_, fun h => ?_⟩, ?_⟩
  · decide +kernel
  · exact absurd h.2.1 (by decide)
  · decide +kernel

/-- A launch of one gang of one thread. -/
def launch1 : Launch := launchOf record 0

/-- A machine with that launch under number 7, with n gangs placed. -/
def launched (next : Nat) : State := { one [] with launches := [(7, { launch1 with next := next })], gangs := [] }

/-- A place on cluster 0 as a launch or a saved gang finds it, where it finds one. -/
theorem some_of {α : Type} {o : Option α} (h : o.isSome = true) : ∃ a, o = some a := Option.isSome_iff_exists.mp h

/-- Gang 0, saved with one context. -/
def saved0 : SavedGang :=
  { gang := { gang0 with w := 1 }, slots := [{ place := some (0, 0), cluster := 0, slot := slotAt 1 [] }], cores := [{ tiles := [], spd := [], lanes := [], opslots := [], cbufs := [], links := [] }], cls := [[]], inbox := [], copies := [], wakes := [] }

theorem test_witness_GangsAreScheduledSavedAndCleared :
    (let s := launched 0
     let l : Launch := { launch1 with next := 0 }
     s.saved = [] ∧ s.launches = [(7, l)] ∧ l.next < l.gangs ∧ l.prio < 8 ∧ l.waiton = 0 ∧ l.layer = false ∧
       eligible s 7 l = .yes ∧ (∀ e ∈ s.clusters, e.2.reserving ≠ some (7, 0)) ∧ s.saved = []) ∧
    (∃ pl, findPlace (launched 0) (Launch.want 7 { launch1 with next := 0 }) [] = some pl) ∧
    (let l : Launch := { launch1 with next := 0 }
     let s := { launched 0 with clk := 10, policy := { Policies.reset with placement := 9 } }
     let u := { s with parts := [(0, { part0 with clusters := 0 })] }
     s.policy.placement ≠ 0 ∧ l.since + s.policy.placement < s.clk.toNat ∧ s.ownsCluster l.part 0 = true ∧
       (fitOn s (l.want 7) (looseGangs s 0) 0).isSome = true ∧ (s.cluster 0).reserving = none ∧
       eligible u 7 l = .yes ∧ (∀ p < 64, u.ownsCluster l.part p = false) ∧
       ({ s with clk := 9 } : State).clk.toNat ≤ l.since + s.policy.placement) ∧
    (let s := launched 1
     let l : Launch := { launch1 with next := 1 }
     mapFind s.launches 7 = some l ∧ l.gangs ≤ l.next ∧ launchBusy s 7 = false ∧ l.done = 0) ∧
    (let l : Launch := { launch1 with next := 1, done := 0x100 }
     let s := { walked with launches := [(7, l)], gangs := [] }
     launchBarrier s l l.done = some 0x100 ∧ launchBusy s 7 = false ∧ Clean s ∧ regionOf 0x100 = .hbm 0) ∧
    (let s := { one [] with launches := [(7, { launch1 with next := 0 })] }
     s.gangs.find? (fun g => g.id == (0, 0)) = some gang0 ∧ gang0.resident = false ∧ gang0.stopping = false ∧
       copiesFill s gang0 = false ∧ ({ gang0 with stopping := true } : Gang).stopping = true ∧
       ({ gang0 with resident := true } : Gang).resident = true ∧
       (∀ h ∈ s.gangs, h.resident = false → h.prio = gang0.prio → gang0.order ≤ h.order) ∧ someoneWaits s gang0.prio = true ∧
       gangInFlight s gang0 = false ∧ slotsHold s gang0.id = false ∧ copiesHold s gang0 = false) ∧
    (let q : Reasm := { srcCore := 1, srcSlot := 2, slot := 15, nfl := 1, chunks := [], gang := (0, 0) }
     gangInFlight (core0 (on Slot.reset) (fun x => { x with reasm := [q] })) gang0 = true) ∧
    (let d := toBytes 8 0 ++ toBytes 8 0 ++ toBytes 4 16 ++ toBytes 4 1 ++ List.replicate 16 0 ++ toBytes 4 0x11 ++ List.replicate 20 0
     let q : CopyQueue := { CopyQueue.reset with bufwait := true, items := [.op false 0x400 0x800 0 0 0 thr 0 (some d) (some gang0)] }
     copiesFill { one [] with clusters := [(0, { Cluster.reset with queues := [(3, q)] })] } gang0 = true) ∧
    (let s := { on Slot.reset with gangs := [], saved := [saved0] }
     s.saved.find? (fun g => g.gang.id == (0, 0)) = some saved0) ∧
    (∃ pl, findRestore { on Slot.reset with gangs := [], saved := [saved0] } saved0 [] = some pl) ∧
    (saved0.wakes = [] ∧ (0 : Nat) < saved0.gang.h ∧ 0 < saved0.gang.w ∧ 1 ≤ saved0.gang.t ∧
      (slotAt 1 []).thread.spill = (spillCore { on Slot.reset with gangs := [], saved := [saved0] } saved0).isSome) ∧
    (∀ e ∈ (one []).clusters, e.2.clearing = false) ∧
    (let s (t : Bool) := { one [] with clusters := [(0, { Cluster.reset with clearing := true, testing := t })] }
     ((s false).cluster 0).clearing = true ∧ ((s false).cluster 0).testing = false ∧ gangsOn (s false) 0 ≠ [] ∧
       gangsOn { s false with gangs := [] } 0 = [] ∧ (∀ c ∈ (s false).coresOf 0, ((s false).core c).reasm = [] ∧ ((s false).core c).inject = []) ∧
       ((s true).cluster 0).testing = true) ∧
    (let s := core0 { one [] with clusters := [(0, { Cluster.reset with clearing := true })], gangs := [] }
       (fun x => { x with reasm := [{ srcCore := 1, srcSlot := 2, slot := 15, nfl := 1, chunks := [] }] })
     gangsOn s 0 = [] ∧ ∃ c ∈ s.coresOf 0, (s.core c).reasm ≠ []) ∧
    (let s := launched 0
     let l : Launch := { launch1 with next := 0 }
     let s := { s with clk := 10, policy := { Policies.reset with placement := 9 },
                       clusters := [(0, { Cluster.reset with reserving := some (8, 0) })] }
     (fitOn s (l.want 7) (looseGangs s 0) 0).isSome = true ∧ s.ownsCluster l.part 0 = true ∧ (s.cluster 0).reserving ≠ none ∧
       ∀ p < 64, p ≠ 0 → s.ownsCluster l.part p = false) := by
  refine ⟨?_, some_of ?_, ?_, ?_, ⟨?_, ?_, clean_of ?_, ?_⟩, ?_, ?_, ?_, ?_, some_of ?_, ?_, ?_, ?_, ?_, ?_⟩ <;> decide +kernel

/-- A descriptor at 0x400 that copies 16 bytes from the scratchpad of core 0 at 0 to 256. -/
def copying : State :=
  one [] (putBytes [] 0x400 (toBytes 8 0 ++ toBytes 8 256 ++ toBytes 4 16 ++ toBytes 4 1 ++ List.replicate 16 0 ++ toBytes 4 5 ++ List.replicate 20 0))

theorem test_witness_EnginesAndReclaimPerformTheirWork :
    (let s := copying
     let d := bytesAt s.mem 0x400 64
     engineRecord s 0 thr 0x400 64 = .ok (d, false) ∧ cpyReserved d = true ∧ field d 20 4 = 1 ∧ field d 16 4 = 16 ∧
       field d 40 4 / 16 % 2 = 0 ∧ s.stopped thr = false ∧ rowCheck s 0 thr (some gang0) (cpyRow d 0) = .ok [(.spd 0 0, 16)] [(.spd 0 256, 16)] ∧
       regionOf 0x800 = .hbm 0 ∧ Clean s ∧ Flawless s ∧
       engineRecord s 0 thr (2 ^ 55) 64 = .error (.trap (trapAccess (2 ^ 55)))) ∧
    (let s := core0 (one []) (fun x => { x with rdq := [.rdx .f32 [(0, [(0x100, 4, true)]), (1, [(0x140, 4, true)])] [(0x180, 4, true)] 1 false 0x800 thr] })
     s.poison = [] ∧ Clean s ∧ regionOf 0x100 = .hbm 0 ∧ regionOf 0x140 = .hbm 0 ∧ 0x180 + 4 ≤ 0x800) ∧
    (let s := objects 1 []
     (core0 s (fun x => { x with rqq := [.rqz (0x100, 16, true) 5 0x800 thr] })).myCore.rqq ≠ [] ∧ Clean s ∧ s.poison = [] ∧
       0x100 % 16 = 0 ∧ 0x100 + 16 ≤ 0x800 ∧ num s.mem 0x108 1 = 0 ∧ num (with_ s.mem 0x108 1 1) 0x108 1 ≠ 0 ∧ regionOf 0x100 = .hbm 0) ∧
    (let m := with_ (with_ (with_ (with_ [] 0x1020 8 128) 0x1028 8 2048) 0x1030 4 1) 0x1034 1 0x12
     let m := with_ (with_ (with_ (with_ m 0x1000 8 4096) 0x1008 8 2048) 0x1010 4 1) 0x1014 1 0x12
     let m := with_ (with_ (with_ m 0x100 8 (2 ^ 63)) 0x109 1 4) 0x10A 1 1
     let s := { objects 1 [] with mem := m }
     let u := homeWrite s none true 0x108 [3]
     (rqzObjects u 0 (BitVec.ofNat 64 (num s.mem 0x100 8)) (BitVec.ofNat 64 (2 ^ 63 + 1)) (num s.mem 0x109 1) (num s.mem 0x10A 1)).isSome =
       true) ∧
    (let s := { objects 0 [] with parts := [(0, { part0 with table := 0x1000, capacity := 1, hbase := 0x10000, hphys := 0x10000, hsize := 4096, high := 4096, pass := true })] }
     let p := s.part 0
     p.pass = true ∧ p.hnews = [] ∧ freeMemory s p < p.high ∧ p.capacity = 1 ∧ (entryAt s p 0).state = 1 ∧
       (entryAt s p 0).strong = 0 ∧ p.table % 32 = 0 ∧ regionOf p.table = .hbm 0 ∧ ({ p with high := 0 } : Partition).high ≤ freeMemory s p) := by
  refine ⟨⟨ok_of ?_, ?_, ?_, ?_, ?_, ?_, ?_, ?_, clean_of ?_, flawless_of ?_, err_of ?_⟩, ⟨?_, clean_of ?_, ?_, ?_, ?_⟩,
    ⟨?_, clean_of ?_, ?_⟩, ?_, ?_⟩ <;> decide +kernel

/-- A collective of two blocks from port 3, to stage at 0x1000. -/
def coll1 : Collective :=
  { addr := 0, src := 0, dst := 0, stage := 0x1000, status := 0, bar := 0, nblk := 2, image := 0x01011214, inPorts := 8, outPorts := 8, id := 5, masks := [], enq := [], queue := [], claims := 0, anyInc := false, since := 0 }

/-- A link flit as a port sends it. -/
def flitOf (seq : Nat) (k : LinkKind) (ack : Nat) : List Byte := linkFlit seq k ack []

set_option maxRecDepth 20000 in
theorem test_witness_PortsHostAndBootActAsDescribed :
    (let x : Port := { Port.reset with todo := [{ id := 5, src := 0x1000, bb := 20, next := 0, nblk := 3 }] }
     let s := { one [] with ports := [(3, x)] }
     s.ports = [(3, x)] ∧ x.down = false ∧ x.retrain = false ∧ x.unacked = [] ∧ (3 : Nat) ≤ 0 + 3) ∧
    (let s := { one [] with coll := some coll1 }
     s.coll = some coll1 ∧ s.gqclms = [] ∧ coll1.inPorts.getLsbD 3 = true ∧ (1 : Nat) < coll1.nblk ∧
       (coll1.mask 1).getLsbD 3 = false ∧ 1 ∉ coll1.enq ∧ (List.replicate 20 (0 : Byte)).length = coll1.bb ∧
       regionOf (coll1.stage + (16 * 1 + 3) * coll1.bb) = .hbm 0 ∧
       (let u := { s with clk := 10, policy := { Policies.reset with collective := 10 } }
        u.policy.collective ≠ 0 ∧ coll1.since + u.policy.collective ≤ u.clk.toNat ∧
          ({ u with clk := 9 } : State).clk.toNat < coll1.since + u.policy.collective)) ∧
    (Passes (flitOf 0 .data 0) .data ∧ flitSeq (flitOf 0 .data 0) = Port.reset.rxSeq ∧
      Passes (flitOf 4095 .data 0) .data ∧ flitSeq (flitOf 4095 .data 0) ≠ Port.reset.rxSeq ∧ Port.reset.retrain = false) ∧
    (Passes (flitOf 0 .idle 7) .idle ∧ flitAck (flitOf 0 .idle 7) = 7 ∧ Passes (flitOf 6 .replay 5) .replay ∧
      flitSeq (flitOf 6 .replay 5) = 6 ∧ flitAck (flitOf 6 .replay 5) ≠ 6 ∧ PortIdle Port.reset) ∧
    flitCrcOk (List.replicate 256 0) = false ∧ Port.reset.lanes = 8 ∧
    ((one []).faq.length < 256 ∧ (5 : BitVec 3).toNat < 6 ∧ 6 ≤ (6 : BitVec 3).toNat) ∧
    (let e : ResEntry := { line := 2 ^ 10, tid := 0, held := none }
     let s := { one [] with res := [{ e with held := some 0 }, e] }
     (s.res.any (fun e => e.held.isSome && decide (1 * 2 ^ 10 ≤ e.line ∧ e.line < 1 * 2 ^ 10 + 2 ^ 10))) = true ∧
       e.held = none ∧ lineClass s (2 ^ 16) = 0 ∧ (s.sideOf (2 ^ 16)).lay = false) ∧
    ((one []).memWf = true ∧ (one []).boot.badList.length < 16384 ∧ (3 : Nat) ≠ 4) ∧
    (0xFFC + 4 ≤ 2 ^ (30 + Config.barDoublings 1) ∧ (one []).boot.leftOut = [] ∧ Clean (one [])) ∧
    Attached (one []) 1 0 ∧
    ((List.range 12).filter ((one []).part 0).stackSet.testBit)[0xFFC / 2 ^ 36]? = some 0 ∧ (0xFFC + 4) / 2 ^ 36 = 0xFFC / 2 ^ 36 ∧
    ({ State.reset.boot with recovery := true } : BootState).recovery = true := by
  refine ⟨?_, ?_, ⟨?_, ?_, ?_, ?_, ?_⟩, ⟨?_, ?_, ?_, ?_, ?_, ?_⟩, ?_, ?_, ?_, ?_, ?_,
    ⟨Nat.le_trans (by decide) (Nat.pow_le_pow_right (by decide) (Nat.le_add_right 30 _)), ?_, clean_of ?_⟩, ?_, ?_, ?_, ?_⟩ <;>
    first
    | decide +kernel
    | (unfold Passes; decide +kernel)
    | (unfold PortIdle; decide +kernel)
    | (unfold Attached; decide +kernel)

/-- A machine in which core 15 has a command with arguments. -/
def commanded (code : Nat) (args : List Nat) : State :=
  { one [] with
    commands := [15]
    cores := (one []).cores ++ [(15, { Core.reset with svcBusy := true, svcCmd := BitVec.ofNat 64 code, cmdArgs := args.zipIdx.map (fun a => (a.2, BitVec.ofNat 64 a.1)) })] }

theorem commanded_ok (code : Nat) (args : List Nat) (h : code < 256) : Commanded (commanded code args) 15 code := by
  refine ⟨rfl, rfl, rfl, ?_⟩
  show (BitVec.ofNat 64 code).toNat % 256 = code
  simp only [BitVec.toNat_ofNat]
  omega

theorem test_witness_ServiceCommandsComplete :
    (let s := commanded 0x01 [4095, 0x8000, 11]
     Commanded s 15 0x01 ∧ arg s 15 0 ≤ 4095 ∧ arg s 15 2 ≤ 11 ∧ asidInUse s (arg s 15 2) (arg s 15 0) = false) ∧
    (let s := commanded 0x02 [63, 64 * 1023]
     Commanded s 15 0x02 ∧ arg s 15 0 ≤ 63 ∧ arg s 15 1 = 64 * 1023) ∧
    (let q : CopyQueue := { CopyQueue.reset with faulted := true, items := [.op false 0 0x800 0 0 0 thr 0 none none] }
     let s := { commanded 0x03 [0, 3, 1] with clusters := [(0, { Cluster.reset with queues := [(3, q)] })] }
     Commanded s 15 0x03 ∧ ((s.cluster (arg s 15 0)).queue (arg s 15 1)).faulted = true ∧
       ((s.cluster (arg s 15 0)).queue (arg s 15 1)).items ≠ [] ∧ arg s 15 2 = 1 ∧ Clean s) ∧
    (let r := { red1 with failed := true }
     let s := { commanded 0x04 [0, 0, 0] with reds := [r] }
     Commanded s 15 0x04 ∧ replied s 15 r ∧ (∀ x ∈ s.reds, threadId x.thr = threadId r.thr → x.id = r.id) ∧ arg s 15 2 = 0 ∧
       latePlace s r.core r.thr r.addr = .ok (0x100, 0x9F) ∧ s.poisoned 0x100 = false ∧ Clean s) ∧
    (let s := commanded 0x05 [63, 2 ^ 16 - 1]
     Commanded s 15 0x05 ∧ arg s 15 0 ≤ 63 ∧ arg s 15 1 < 2 ^ 16) ∧
    (let s := commanded 0x06 [11, 7, 0x100]
     Commanded s 15 0x06 ∧ arg s 15 0 ≤ 11 ∧ arg s 15 1 ≤ 7 ∧ regionOf (arg s 15 2) = .hbm 0 ∧ num s.mem (arg s 15 2 + 16) 8 = 0) ∧
    (let s := { commanded 0x07 [0, 0x100] with mem := with_ [] 0x108 8 (2 ^ 26) }
     Commanded s 15 0x07 ∧ num s.mem (arg s 15 1 + 8) 8 = 2 ^ 26 ∧ num s.mem (arg s 15 1 + 16) 8 % 65536 = 0 ∧
       anyLive s (s.part (arg s 15 0)) = false) ∧
    (let s := commanded 0x08 []
     Commanded s 15 0x08 ∧ s.faq = []) ∧
    (let s := commanded 0x09 [3]
     Commanded s 15 0x09 ∧ arg s 15 0 ≤ 3) ∧
    (let s := commanded 0x0A [4, 1024, 11]
     Commanded s 15 0x0A ∧ arg s 15 0 = 4 ∧ arg s 15 2 ≤ 11 ∧ 1024 ≤ arg s 15 1) ∧
    (let s := { commanded 0x0B [0, 0x100, 0x2000] with
        launches := [(0, launch1)]
        cores := [(0, { Core.reset with slots := [(0, { slotAt 1 [] with st := .faulted })] }), (15, ((commanded 0x0B [0, 0x100, 0x2000]).core 15))] }
     Commanded s 15 0x0B ∧ slotOfLoc (mapGet 0 (s.core 15).cmdArgs 0) = some (0, 0) ∧ noReinstate s 0 = false ∧ spillMode s 0 = false ∧ (s.slot 0 0).st = .faulted ∧
       (s.slot 0 0).loadActive = false ∧ recordLaunch s (bytesAt s.mem (arg s 15 2) 4096) = some (0, launch1) ∧
       launch1.part = (s.slot 0 0).thread.part) ∧
    (let s := commanded 0x0C [64 * 3, 0]
     Commanded s 15 0x0C ∧ arg s 15 0 = 64 * 3 ∧ arg s 15 1 = 0) ∧
    (let s := commanded 0x0D [0, 0x1000, 2 ^ 30]
     Commanded s 15 0x0D ∧ arg s 15 1 % 4096 = 0 ∧ 4096 ≤ arg s 15 2 ∧ arg s 15 2 ≤ 2 ^ 30 ∧ arg s 15 2 % 4096 = 0) ∧
    (let s := core0 (commanded 0x0E [0, 4080]) (fun x => { x with ring := { TraceRing.reset with bound := true, size := 4096 } })
     Commanded s 15 0x0E ∧ (s.core 0).ring.bound = true ∧ arg s 15 1 < (s.core 0).ring.size ∧ arg s 15 1 % 16 = 0) ∧
    (let s := commanded 0x0F [11, 0x800, 2, 0, 0, 6]
     Commanded s 15 0x0F ∧ arg s 15 0 ≤ 11 ∧ arg s 15 1 < 2 ^ 12 ∧ arg s 15 5 ≤ 6 ∧
       partConflict s (arg s 15 0) (arg s 15 1) (arg s 15 2) (arg s 15 3 + arg s 15 4 * 2 ^ 64) = false ∧
       ∀ p < 64, (arg s 15 2).testBit p = true → clusterIdle s p = true) ∧
    (let s := commanded 0x10 [11, 64 * 15]
     Commanded s 15 0x10 ∧ s.isSvc 15 = true ∧ s.isSvc 0 = false) := by
  refine ⟨⟨commanded_ok _ _ (by decide), ?_⟩, ⟨commanded_ok _ _ (by decide), ?_⟩, ⟨⟨rfl, rfl, rfl, rfl⟩, ?_, ?_, ?_, clean_of ?_⟩,
    ⟨⟨rfl, rfl, rfl, rfl⟩, ?_, ?_, ?_, ok_of ?_, ?_, clean_of ?_⟩, ⟨commanded_ok _ _ (by decide), ?_⟩,
    ⟨commanded_ok _ _ (by decide), ?_⟩, ⟨⟨rfl, rfl, rfl, rfl⟩, ?_⟩, ⟨commanded_ok _ _ (by decide), ?_⟩,
    ⟨commanded_ok _ _ (by decide), ?_⟩, ⟨commanded_ok _ _ (by decide), ?_⟩, ⟨⟨rfl, rfl, rfl, rfl⟩, ?_⟩,
    ⟨commanded_ok _ _ (by decide), ?_⟩, ⟨commanded_ok _ _ (by decide), ?_⟩, ⟨⟨rfl, rfl, rfl, rfl⟩, ?_⟩,
    ⟨commanded_ok _ _ (by decide), ?_⟩, commanded_ok _ _ (by decide), ?_⟩ <;>
    first
    | decide +kernel
    | (unfold replied; decide +kernel)

/-! ### Witnesses: the clauses of several cases -/

/-- A target at which no page is mapped: its fetch page-faults. -/
def faulting : State := { branching (2 ^ 30) with asrec := [(0, 0x10000)] }

theorem test_witness_TransfersEnterTheirTargetBlock_pageFault :
    Ready faulting (formSrc (.n 1)) ∧ (valsOf faulting (formSrc (.n 1))).a = 0x40000000 ∧
    (0x40000000 : W64).toNat % 8 = 0 ∧
    (∃ fa flags, fetchAt (consumeAll faulting (formSrc (.n 1))) 0x40000000 = .fail (.page fa flags)) ∧
    (valsOf faulting (formSrc (.n 1))).a ≠ 0 ∧
    (let f : Form := { formSrc (.n 1) with d := .regs 22 1 }
     Ready faulting f ∧ ∃ fa flags, fetchAt (consumeAll faulting f) 0x40000000 = .fail (.page fa flags)) := by
  refine ⟨poised_of ?_, ?_, ?_, ⟨0x40000000, 4, ?_⟩, ?_, poised_of ?_, ⟨0x40000000, 4, ?_⟩⟩ <;> decide +kernel

theorem test_witness_NestBindsAndIterHandsOutIndices_badTarget :
    Ready (one []) (iterForm iter3) ∧ hdrLoop ((one []).me.block.headD 0) = true ∧ (one []).me.fetcher.bound = false ∧
      noHeaderAt (one []) (target (one []) iter3.disp) :=
  ⟨poised_of (by decide +kernel), by decide +kernel, by decide +kernel, Or.inr ⟨0, by decide +kernel, by decide⟩⟩

theorem test_witness_FpResultsAreRoundedOnceAndNansCanonical_classes :
    isNan (fpFmt .f32) 0xFFC00000 ∧ isInf (fpFmt .f64) 0xFFF0000000000000 ∧ isFinite (fpFmt .f16) 0x8001 ∧
      isFinite (fpFmt .bf16) 0x7F7F := by
  refine ⟨?_, ?_, ?_, ?_⟩ <;> first | (unfold isNan; decide) | (unfold isInf; decide) | (unfold isFinite; decide)

theorem test_witness_ReductionsAndRankingsFollowTheirOrder_ranking :
    let l : List (Machine.Num × Nat) := [(.fin false 0 0, 0), (.fin true 0 0, 1), (.nan, 31)]
    (∀ x ∈ l, ∀ y ∈ l, x.2 = y.2 → x = y) ∧ winner l = some (.fin false 0 0, 0) := by decide

theorem test_witness_ConversionsCheckTheirKindsAndFormat_kinds :
    imageValid 0x01011214 = true ∧ ¬ (Kind.f32 = .nf ∧ Kind.nf = .nf) ∧ kindWidth .f32 ≠ 64 ∧ kindWidth .f64 = 64 ∧
      (narrowOf 0x01011214).scale = 1 ∧ (narrowOf 1).scale = 0 ∧ enables .z 0 31 ∧ ¬ enables (.n 4) 0 0 := by
  refine ⟨?_, ?_, ?_, ?_, ?_, ?_, ?_, ?_⟩ <;> first | decide | (unfold enables; decide)

theorem test_witness_ResultsArePushedAndWritten :
    Dst.push ≠ .z ∧ neighbour (one []).cur.1 .de = some 1 ∧ ((one []).core 1).isSealed = false ∧
    (let b := (bound3 true 1 2 [] .spd).me.stream 3
     b.bound = true ∧ b.wr = true ∧ b.pos < b.count ∧ destFail (bound3 true 1 2 [] .spd) (.s (.s 3)) = none) := by
  decide +kernel

/-- A word about to be rejected by the checker. -/
def suspected (w : W64) : State := on { (slotAt 1 [(1, 1)]).atWord w with suspect := true }

theorem test_witness_TrapAndUnassignedWordsTrap_suspect :
    (suspected 0).me.mayIssue = true ∧ (suspected 0).me.suspect = true := by decide +kernel

theorem test_witness_StepRunsTheDecodedWord_suspect :
    (suspected 0).agenda = [] ∧ (suspected 0).me.st = .running ∧ (suspected 0).me.stall = 0 ∧ 1 ≤ (suspected 0).me.idx ∧
    (suspected 0).me.block[(suspected 0).me.idx]? = some 0 ∧ (∀ i, decodeWord (0 : W64).toNat ≠ .ok i) ∧
    (suspected 0).me.suspect = true ∧ ({ (suspected 0).me with suspect := false } : Slot).suspect = false :=
  ⟨by decide +kernel, by decide +kernel, by decide +kernel, by decide +kernel, by decide +kernel, fun i h => (nomatch h),
    by decide +kernel, rfl⟩

/-- A slot of a service core. -/
def serving (x : Slot) (f : Core → Core := id) : State := { core0 (on x) f with svcCores := [0] }

theorem test_witness_SystemRegistersReadAndWriteTheirState_service :
    (let s := on { slotAt 1 [(4, 5)] with thread := { thr with debug := true } }
     Ready s { noOperands with d := .s (.n 4) } ∧ s.me.thread.debug = true ∧
       Ready s (syswrForm { stall := 0, a := .n 4, reg := 0x030 })) ∧
    (let s := serving (slotAt 1 [(4, 0x0C)])
     let g := syswrForm { stall := 0, a := .n 4, reg := 0x100 }
     Ready s { noOperands with d := .s (.n 4) } ∧ onService s ∧ Ready s g ∧ s.me.asked = false ∧ s.myCore.svcBusy = false ∧
       NoRed (within s g) ∧ Unfenced (within s g) ∧ s.myCore.svcDone = false ∧
       startsAs 12 (mapGet 0 s.myCore.svcArg 1) = .inl .coreRestart ∧ startsAs 17 0 = .inr 1 ∧ startsAs 12 3 = .inr 2) ∧
    (let s := serving { slotAt 1 [(4, 0x0C)] with asked := true } (fun x => { x with svcBusy := true, svcDone := true })
     onService s ∧ Ready s (syswrForm { stall := 0, a := .n 4, reg := 0x100 }) ∧ s.me.asked = true ∧ s.myCore.svcDone = true) ∧
    (let s := serving { slotAt 1 [(4, 0x0C)] with asked := true } (fun x => { x with svcBusy := true })
     s.myCore.svcDone = false ∧ s.myCore.svcBusy = true) := by
  refine ⟨⟨poised_of ?_, ?_, poised_of ?_⟩, ⟨poised_of ?_, ?_, poised_of ?_, ?_, ?_, calm_of ?_, unfenced_of ?_, ?_, ?_, ?_, ?_⟩,
    ⟨?_, poised_of ?_, ?_, ?_⟩, ?_, ?_⟩ <;> first | decide +kernel | (unfold onService; decide +kernel)

/-- A record of a collective at 0x400: two blocks, MXFP4 elements, one port in and out. -/
def collective (n4 : Nat) : State :=
  let m := with_ (with_ (with_ (with_ (with_ [] 0x420 8 0x800) 0x428 4 2) 0x42C 4 0x01011214) 0x430 2 8) 0x432 2 8
  { serving (slotAt 1 [(4, n4)]) with mem := m }

theorem test_witness_SystemRegistersReadAndWriteTheirState_collective :
    let s := collective 0x400
    let u := within s (syswrForm { stall := 0, a := .n 4, reg := 0x110 })
    let n := narrowOf (BitVec.ofNat 32 (num u.mem 0x42C 4))
    Ready s (syswrForm { stall := 0, a := .n 4, reg := 0x110 }) ∧ NoRed u ∧ Unfenced u ∧ Clean u ∧ regionOf 0x400 = .hbm 0 ∧
      u.coll = none ∧ imageValid (BitVec.ofNat 32 (num u.mem 0x42C 4)) = true ∧ n.scale = 1 ∧ n.width = 4 ∧
      num u.mem 0x428 4 = 2 ∧ num u.mem 0x436 10 = 0 ∧ num u.mem 0x420 8 = 0x800 ∧ regionOf 0x800 = .hbm 0 ∧
      lineClass u 0x800 = 0 ∧ num u.mem 0x430 2 ≠ 0 := by
  refine ⟨poised_of ?_, calm_of ?_, unfenced_of ?_, clean_of ?_, ?_⟩ <;> decide +kernel

theorem test_witness_SystemRegisterAccessIsChecked_service :
    let s := serving (slotAt 1 [(4, 0)])
    s.me.mayIssue = true ∧ s.me.suspect = false ∧ s.isSvc s.cur.1 = true ∧ (0x1FF : BitVec 32).toNat < 0x200 ∧
      (0x10A : BitVec 32).toNat ≤ 0x10A := by decide +kernel

theorem test_witness_AgendaStepsRunAsChosen_seal :
    0 ∈ (sealing (one [])).coreKeys ∧ ((sealing (one [])).core 0).sealDue = true ∧
      (∀ c ∈ (one []).coreKeys, ((one []).core c).sealDue = false) := by decide +kernel

theorem test_witness_StreamsPopAndAppendElements_stores :
    (let s := bound3 true 1 2 [] .glb
     let b := s.me.stream 3
     b.bound = true ∧ b.wr = true ∧ b.pos < b.count ∧ (b.base + BitVec.ofNat 64 b.pos * b.stride).toNat % 4 = 0 ∧ Clean s ∧
      resolve s 0 s.me.thread b.sp needStore true (b.base + BitVec.ofNat 64 b.pos * b.stride) 4 = .ok (.mem 0x104 0x9F)) ∧
    (let s := on { slotAt 1 [(1, 0x100), (2, 4), (3, 1)] with fence := some (.acq .cl) }
     let g : Form := { noOperands with a := .s (.n 1), b := .s (.n 2), c := .s (.n 3) }
     Ready s g ∧ (valsOf s g).c ≠ 0 ∧ ¬ Unfenced (consumeAll s g)) := by
  refine ⟨⟨?_, ?_, ?_, ?_, clean_of ?_, ok_of ?_⟩, poised_of ?_, ?_, fun h => absurd h.1 ?_⟩ <;> decide +kernel

theorem test_witness_AtomicsReadAndWriteAtOnce_damaged :
    Clean (within { three 0x100 5 7 with poison := [4] } (formAB (.n 1) (.n 2) (.n 3))) := clean_of (by decide +kernel)

theorem test_witness_MigratingThreadsLeaveTheirSlot_fence :
    let s := on { slotAt 1 [(1, 0xF0000)] with granted := some (1, 3), asked := true, fence := some (.ar .cl) }
    Ready s (formSrc (.n 1)) ∧ (within s (formSrc (.n 1))).me.fence = some (.ar .cl) ∧ bits (s.me.block.headD 0) 27 1 = 1 := by
  refine ⟨poised_of ?_, ?_, ?_⟩ <;> decide +kernel

theorem test_witness_BarriersCountArrivalsAndWait_monitor :
    (let s := on { slotAt 1 [(1, 2 ^ 40)] with monitor := { armed := true, woken := true, line := 8 } }
     Ready s (formSrc (.n 1)) ∧ s.me.monitor.armed = true ∧ s.me.monitor.woken = true) ∧
    (let s := on { slotAt 1 [(1, 0x100)] with monitor := { armed := true, woken := false, line := 9 } }
     s.me.monitor.line ≠ 0x100 / 32 ∧ s.me.monitor.woken = false) ∧
    (on { slotAt 1 [(1, 0x100)] with monitor := { armed := true, woken := false, line := 8 } }).me.monitor.line = 0x100 / 32 ∧
    (one []).me.monitor.armed = false := by
  refine ⟨⟨poised_of ?_, ?_, ?_⟩, ?_, ?_, ?_⟩ <;> decide +kernel

theorem test_witness_FencesJoinsAndLaunchesAreTaken_record :
    RecordKeeps (within (launching true) (formA (.n 1) (.n 3))) record ∧
      ¬ RecordKeeps (within (launching false) (formA (.n 1) (.n 3))) record := by
  constructor
  · unfold RecordKeeps; decide +kernel
  · unfold RecordKeeps; decide +kernel

/-- An RDX of two sources of one element: 0x1000 and 0x1040 into 0x1080, barrier 0x800. -/
def adding : State :=
  { engines 0x400 0x800 0 with
    mem := with_ (with_ (with_ (with_ (with_ [] 0x400 8 0x1000) 0x408 8 0x1040) 0x440 8 0x1080) 0x448 4 1) 0x44C 1 3 }

theorem test_witness_HandlesCountTheirReferences_entry :
    EntrySound (objects 1 []) (BitVec.ofNat 64 strong0) ∧
      ¬ EntrySound { objects 1 [] with poison := [0x1000 / 64] } (BitVec.ofNat 64 strong0) := by
  unfold EntrySound; decide +kernel

theorem test_witness_ArrivalsComeToTheirSlots_shootDown :
    (let s := { walked with cores := [(0, { Core.reset with slots := [(0, { slotAt 1 [] with monitor := { armed := true, woken := false, line := 8 } })] })] }
     ∃ leaf, walk s 0 0 0x100 = .leaf true leaf ∧ leafFrame leaf ≤ 8 * 32 ∧ 8 * 32 < leafFrame leaf + 2 ^ 29 ∧
       (s.slot 0 0).monitor.armed = true) ∧
    (∀ x ∈ (on { slotAt 1 [] with record := run1 }).reds, threadId x.thr ≠ threadId ((on (slotAt 1 [])).slot 0 0).thread) :=
  ⟨⟨0x9F, by decide +kernel⟩, by decide +kernel⟩

theorem test_witness_MessagesWakesAndFlitsAreDelivered_turnedAway :
    ((on { slotAt 1 [] with st := .sealed }).slot 0 0).st = .sealed ∧ (wakes (msg true (2 * 2 ^ 56)) ∧ (msg true (2 * 2 ^ 56)).value.toNat / 2 ^ 56 = 2) ∧
    (let m : RegMsg := { msg false 5 with core := 16, srcCore := 0 }
     let f := { flitAt 0 with dcore := 16, payload := .reg m }
     let s := { one [] with flits := [f] }
     f.at_ = f.drouter ∧ isGateway f.dcore = false ∧ s.ownsCluster f.part (f.dcore / 16) = false ∧ m.notice = false ∧
       BitVec.ofNat 64 (threadId (s.slot m.srcCore m.srcSlot).thread) = m.tid ∧ (s.slot m.srcCore m.srcSlot).st = .running) ∧
    (let q : Reasm := { srcCore := 0, srcSlot := 0, slot := 15, nfl := 0, chunks := [], gang := (0, 0) }
     let s := core0 (on { slotAt 1 [] with st := .parked .grant, asked := true }) (fun x => { x with reasm := [q] })
     let x := s.slot 0 0
     (x.asked = true ∧ x.st = .parked .grant ∧ x.granted = none) ∧ q.gang = gangId x ∧
       (s.core 0).reasm.find? (fun q => q.slot == 15 && q.srcCore == 0 && q.srcSlot == 0) = some q ∧
       (s.core 0).reasm.find? (fun q => q.slot == 14 && q.srcCore == 0 && q.srcSlot == 0) = none) := by
  unfold wakes; decide +kernel

/-! A copy that begins: queue 3 of cluster 0 holds it. -/

/-- The machine of a CPY with one row, or of a list of entries, at 0x400. -/
def beginning (item : CopyItem) (m : Memory) : State :=
  { one [] m with clusters := [(0, { Cluster.reset with tlb := [page], queues := [(3, { CopyQueue.reset with items := [item] })] })] }

/-- A CPY of 16 bytes of the scratchpad of core 0, from 0 to 256. -/
def cpy1 : CopyItem := .op false 0x400 0x800 0 0 0 thr 0 none (some gang0)

def copies : State := beginning cpy1 copying.mem

theorem begins_of {s : State} {p q : Nat} {thr : Thread} {bar : Nat} {item : CopyItem} {rest : List CopyItem}
    (h1 : ((s.cluster p).queue q).items = item :: rest) (h2 : ((s.cluster p).queue q).faulted = false)
    (h3 : s.stopped thr = false) (h4 : bar % 64 = 0) (h5 : regionOf bar = .hbm 0) (h6 : clean s = true)
    (h7 : s.poison = []) (h8 : flawless s = true) : Begins s p q thr bar item rest :=
  ⟨h1, h2, h3, ⟨h4, 0, h5⟩, clean_of h6, h7, flawless_of h8⟩

/-- Words of one scratchpad that do not overlap. -/
theorem apart_spd {c o o' : Nat} (h : o + 4 ≤ o' ∨ o' + 4 ≤ o) : Apart (.spd c o) (.spd c o') := by
  refine ⟨fun _ _ _ _ h1 h2 => ?_, fun _ _ _ _ h1 _ => ?_, fun _ _ _ _ h1 _ => ?_⟩
  · cases h1; cases h2; exact Or.inr h
  · cases h1
  · cases h1

/-- A row that stays in the scratchpad of core 0, 16 bytes from a to b, which do not overlap. -/
theorem copyable_of {s : State} {g : Option Gang} {row : CopyRow} {a b : Nat} (hr : rowCheck s 0 thr g row = .ok [(.spd 0 a, 16)] [(.spd 0 b, 16)])
    (hl : row.len = 16) (hs : row.ssp = .spd) (hd : row.cb = none → row.dsp = .spd) (hab : a + 16 ≤ b) (bar : Nat) :
    Copyable s 0 thr g bar 1 (fun _ => row) (fun _ w => .spd 0 (a + 4 * w)) (fun _ w => .spd 0 (b + 4 * w)) where
  checked _ _ := by
    refine ⟨_, _, hr, fun w hw => ?_⟩
    rw [hl] at hw
    have : w < 4 := by omega
    interval_cases w <;> exact ⟨rfl, rfl⟩
  cached _ _ := ⟨fun h => by simp [hs] at h, fun hc h => by simp [hd hc] at h⟩
  plain _ _ _ _ _ _ h := by rcases h with h | h <;> cases h
  apart i w j v hi hj hw hv := by
    rw [hl] at hw hv
    refine ⟨apart_spd (by omega), fun hne => apart_spd ?_⟩
    have : w ≠ v := fun e => hne (by rw [e, Nat.lt_one_iff.mp hi, Nat.lt_one_iff.mp hj])
    omega
  barrier _ _ _ _ _ _ h := by cases h

theorem test_witness_EnginesAndReclaimPerformTheirWork_row :
    let s := copies
    let d := bytesAt s.mem 0x400 64
    Begins s 0 3 thr 0x800 cpy1 [] ∧ engineRecord s 0 thr 0x400 64 = .ok (d, false) ∧ descClean d ∧ field d 20 4 = 1 ∧
      bufferOf (field d 40 4) = none ∧
      Copyable s 0 thr (some gang0) 0x800 1 (fun _ => rowOf d 0) (fun _ w => .spd 0 (0 + 4 * w)) (fun _ w => .spd 0 (256 + 4 * w)) := by
  refine ⟨begins_of ?_ ?_ ?_ ?_ ?_ ?_ ?_ ?_, ok_of ?_, ?_, ?_, ?_, copyable_of ?_ ?_ ?_ (fun _ => ?_) ?_ _⟩ <;>
    first | decide +kernel | (unfold descClean; decide +kernel)

/-- A buffer of two slots of 16 bytes at 512, the second of them free. -/
def buf2 : CBuf :=
  { CBuf.reset with owner := some (0, 0), sp := .spd, base := 512, size := 16, count := 2, free := 1, rsv := 1 }

/-- The same CPY with buffer 2 as its destination, or with a source that page-faults. -/
def filling (b : CBuf) (src flags : Nat) : State :=
  core0 (beginning cpy1 (putBytes [] 0x400 (toBytes 8 src ++ toBytes 8 256 ++ toBytes 4 16 ++ toBytes 4 1 ++ List.replicate 16 0 ++
    toBytes 4 flags ++ List.replicate 20 0))) (fun x => { x with cbufs := [(2, b)] })

theorem test_witness_EnginesAndReclaimPerformTheirWork_buffer :
    let s := filling buf2 0 0x51
    let d := bytesAt s.mem 0x400 64
    Begins s 0 3 thr 0x800 cpy1 [] ∧ engineRecord s 0 thr 0x400 64 = .ok (d, false) ∧ descClean d ∧ field d 20 4 = 1 ∧
      bufferOf (field d 40 4) = some 2 ∧
      Copyable s 0 thr (some gang0) 0x800 1 (fun _ => rowOf d 0) (fun _ w => .spd 0 (0 + 4 * w)) (fun _ w => .spd 0 (528 + 4 * w)) ∧
      ((s.core 0).cbuf 2).base + ((s.core 0).cbuf 2).rsv * ((s.core 0).cbuf 2).size = 528 := by
  refine ⟨begins_of ?_ ?_ ?_ ?_ ?_ ?_ ?_ ?_, ok_of ?_, ?_, ?_, ?_, copyable_of ?_ ?_ ?_ (fun h => ?_) ?_ _, ?_⟩ <;>
    first | decide +kernel | (unfold descClean; decide +kernel) | (exact absurd h (by decide +kernel))

theorem test_witness_EnginesAndReclaimPerformTheirWork_stops :
    (let s := filling { buf2 with free := 0 } 0 0x51
     let d := bytesAt s.mem 0x400 64
     Begins s 0 3 thr 0x800 cpy1 [] ∧ engineRecord s 0 thr 0x400 64 = .ok (d, false) ∧ descClean d ∧ field d 20 4 = 1 ∧
       rowCheck s 0 thr (some gang0) (rowOf d 0) = .full) ∧
    (let s := filling { buf2 with size := 12 } 0 0x51
     let d := bytesAt s.mem 0x400 64
     engineRecord s 0 thr 0x400 64 = .ok (d, false) ∧ descClean d ∧ 0 < field d 20 4 ∧
       rowCheck s 0 thr (some gang0) (rowOf d 0) = .err) ∧
    (let s := filling buf2 (2 ^ 30) 4
     let d := bytesAt s.mem 0x400 64
     engineRecord s 0 thr 0x400 64 = .ok (d, false) ∧ descClean d ∧ 0 < field d 20 4 ∧ isGateway 0 = false ∧
       ∃ flags, rowCheck s 0 thr (some gang0) (rowOf d 0) = .fault (2 ^ 30) flags) := by
  refine ⟨⟨begins_of ?_ ?_ ?_ ?_ ?_ ?_ ?_ ?_, ok_of ?_, ?_, ?_, ?_⟩, ⟨ok_of ?_, ?_, ?_, ?_⟩, ⟨ok_of ?_, ?_, ?_, ?_, ⟨4, ?_⟩⟩⟩ <;>
    first | decide +kernel | (unfold descClean; decide +kernel)

/-- A list of two entries: the row of the CPY, and one whose reserved bytes are not zero. -/
def listed (n : Nat) : State :=
  beginning (.op true 0x400 0x800 n 0 0 thr 0 none (some gang0))
    (putBytes [] 0x400 (toBytes 8 0 ++ toBytes 8 256 ++ toBytes 4 16 ++ toBytes 4 5 ++ List.replicate 24 0 ++ toBytes 4 4 ++
      toBytes 4 5 ++ [1]))

theorem test_witness_EnginesAndReclaimPerformTheirWork_list :
    let s := listed 2
    let e (i : Nat) : List Byte := bytesAt s.mem (0x400 + 32 * i) 32
    Begins s 0 3 thr 0x800 (.op true 0x400 0x800 2 0 0 thr 0 none (some gang0)) [] ∧
      (∀ i < 1, engineRecord s 0 thr (0x400 + 32 * BitVec.ofNat 64 i) 32 = .ok (e i, false) ∧ entryClean (e i) ∧
        (entryOf (e i)).cb = none) ∧
      Copyable s 0 thr (some gang0) 0x800 1 (fun _ => entryOf (e 0)) (fun _ w => .spd 0 (0 + 4 * w)) (fun _ w => .spd 0 (256 + 4 * w)) ∧
      engineRecord s 0 thr (0x400 + 32 * BitVec.ofNat 64 1) 32 = .ok (e 1, false) ∧ ¬ entryClean (e 1) := by
  refine ⟨begins_of ?_ ?_ ?_ ?_ ?_ ?_ ?_ ?_, fun i hi => ⟨ok_of ?_, ?_, ?_⟩, copyable_of ?_ ?_ ?_ (fun _ => ?_) ?_ _, ok_of ?_, ?_⟩ <;>
    first
    | decide +kernel
    | (unfold entryClean; decide +kernel)
    | (obtain rfl : i = 0 := by omega
       decide +kernel)
    | (obtain rfl : i = 0 := by omega
       unfold entryClean
       decide +kernel)

theorem test_witness_EnginesAndReclaimPerformTheirWork_page :
    let m := with_ (with_ (with_ (with_ [] 0x1020 8 128) 0x1028 8 2048) 0x1030 4 1) 0x1034 1 0x12
    let m := with_ (with_ (with_ (with_ m 0x1000 8 4096) 0x1008 8 2048) 0x1010 4 1) 0x1014 1 0x12
    let m := with_ (with_ (with_ m 0x100 8 (2 ^ 63)) 0x109 1 4) 0x10A 1 1
    let s := { objects 1 [] with mem := m }
    let u := homeWrite s none true 0x108 [3]
    ∃ i e f, rqzObjects u 0 (BitVec.ofNat 64 (num s.mem 0x100 8)) (BitVec.ofNat 64 (2 ^ 63 + 1)) (num s.mem 0x109 1) (num s.mem 0x10A 1) =
        some ((i, e), f) ∧ num s.mem 0x109 1 * (32 * num s.mem 0x10A 1) = 128 ∧ i = 0 ∧ e.off = 4096 ∧ f.off = 128 ∧
      (s.part 0).hphys = 0x10000 ∧ (s.part 0).table = 0x1000 ∧ regionOf 0x1000 = .hbm 0 ∧
      ∀ a < 68, regionOf (0x10080 + a) = .hbm 0 := by
  refine ⟨0, { off := 4096, size := 2048, strong := 1, prio := 2, state := 1, gen := 0, own := 0 },
    { off := 128, size := 2048, strong := 1, prio := 2, state := 1, gen := 0, own := 0 }, ?_⟩
  decide +kernel

theorem test_witness_EnginesAndReclaimPerformTheirWork_table :
    ∀ i < ((objects 1 []).part 0).capacity, regionOf (((objects 1 []).part 0).table + 32 * i) = .hbm 0 := by decide +kernel

theorem test_witness_PortsHostAndBootActAsDescribed_port :
    (({ one [] with ports := [(3, { Port.reset with down := true })] } : State).port 3).down = true ∧
      ((one []).port 3).down = false ∧
    (let e : ResEntry := { line := 3 * 2 ^ 10, tid := 0, held := some 0 }
     (3 * 2 ^ 10 ≤ e.line ∧ e.line < (3 + 1) * 2 ^ 10) ∧ e.held ≠ none) := by decide +kernel

/-- A window of stack 11: one 4 KiB page of MXFP4 whose alias stands at 2^50, with n as its reserved byte. -/
def windowed (n : Nat) : State :=
  { commanded 0x06 [11, 7, 0x100] with
    mem := with_ (with_ (with_ (with_ (with_ [] 0x100 8 (11 * 2 ^ 36)) 0x108 8 (2 ^ 50)) 0x110 8 4096) 0x118 8 (11 * 2 ^ 36 + 4096)) 0x127 1 n }

theorem test_witness_ServiceCommandsComplete_window :
    (Commanded (windowed 0) 15 0x06 ∧ arg (windowed 0) 15 0 = 11 ∧ arg (windowed 0) 15 1 = 7 ∧ arg (windowed 0) 15 2 = 0x100 ∧
      regionOf 0x100 = .hbm 0 ∧ (windowIn (windowed 0) 0x100).len ≠ 0 ∧
      WindowTaken (windowed 0) 11 7 (num (windowed 0).mem (0x100 + 37) 3) (windowIn (windowed 0) 0x100)) ∧
    ¬ ((windowIn (windowed 1) 0x100).len = 0 ∨
      WindowTaken (windowed 1) 11 7 (num (windowed 1).mem (0x100 + 37) 3) (windowIn (windowed 1) 0x100)) := by
  refine ⟨⟨⟨rfl, rfl, rfl, rfl⟩, ?_, ?_, ?_, ?_, ?_, ⟨?_, ?_, ?_, ?_, ?_, ?_⟩⟩, ?_⟩
  all_goals first | decide +kernel | skip
  rintro (h | h)
  · exact absurd h (by decide +kernel)
  · exact absurd h.ctl.2.2.2 (by decide +kernel)

theorem test_witness_ServiceCommandsComplete_restart :
    let s := commanded 0x0C [0, 0]
    Commanded s 15 0x0C ∧ arg s 15 0 = 64 * 0 ∧ arg s 15 1 = 0 ∧ gang0 ∈ s.gangs ∧ gang0.touches s 0 = true := by
  refine ⟨⟨rfl, rfl, rfl, rfl⟩, ?_⟩; decide +kernel

/-! ### Witnesses: waits, scales, trace records, headers reached -/

theorem test_witness_NestBindsAndIterHandsOutIndices_fence :
    (let s := fetching none (some (0, 4)) false
     Unfenced s ∧ ¬ Unfenced (s.setMe { s.me with fence := some .rlx })) :=
  ⟨unfenced_of (by decide +kernel), fun h => absurd h.1 (by decide +kernel)⟩

theorem test_witness_ConversionsCheckTheirKindsAndFormat_scales :
    imageValid 0x01011214 = true ∧ (narrowOf 0x01011214).scale = 1 ∧ imageValid 0x01021214 = true ∧ (narrowOf 0x01021214).scale = 2 ∧
    scaleValue 1 127 ≠ some 0 ∧ scaleValue 2 0x38 ≠ some 0 ∧ scaleValue 1 255 = none ∧ (7 : Nat) < 2 ^ (narrowOf 0x01011214).width := by
  refine ⟨?_, ?_, ?_, ?_, ?_, ?_, ?_, ?_⟩ <;> first | decide | (unfold scaleValue; norm_num)

/-- A traced slot of a core whose ring has places for two records at 0x3000, one of them written, and a read offset. -/
def tracing (rd : Nat) : State :=
  core0 (on { slotAt 1 [(4, 5)] with status := 4 }) (fun x =>
    { x with ring := { TraceRing.reset with bound := true, base := 0x3000, size := 32, wr := 16, rd := rd } })

theorem test_witness_TraceWritesAMarkerOnlyWhenTraced_ring :
    let g : Form := { formSrc (.n 4) with imm := (0xA1 : BitVec 32).signExtend 64 }
    Ready (tracing 16) g ∧ (let u := consumeAll (tracing 16) g
      u.me.trace = true ∧ (tracing 16).me.st = .running ∧ (tracing 16).cur.2 < 16 ∧ u.myCore.ring.bound = true ∧
      u.myCore.ring.lost = 0 ∧ u.myCore.ring.size ≠ 0 ∧ u.clk.toNat - u.myCore.ring.lastClk ≤ 0xFFFFFE ∧ Clean u ∧
      regionOf (u.myCore.ring.base + u.myCore.ring.wr) = .hbm 0 ∧
      (u.myCore.ring.wr + 16) % u.myCore.ring.size ≠ u.myCore.ring.rd) ∧
    (tracing 0).myCore.ring.rd = ((tracing 0).myCore.ring.wr + 16) % (tracing 0).myCore.ring.size := by
  refine ⟨poised_of ?_, ⟨?_, ?_, ?_, ?_, ?_, ?_, ?_, clean_of ?_, ?_, ?_⟩, ?_⟩ <;> decide +kernel

theorem test_witness_StepKeepsMemoryCanonical_arrays :
    ∃ t, (one [] headerAt2000).arraysWf = true ∧ step (one [] headerAt2000) = .next t :=
  ⟨_, by decide +kernel, rfl⟩

theorem test_witness_TurnsEnterBlocksOrCountDown_reached :
    (let s := atHeader 0 .running
     s.me.entering = true ∧ s.me.trace = false ∧ s.me.hdr.toNat % 8 = 0 ∧ fetchAt s s.me.hdr = .word 0xFE00000000000000 ∧
       (0xFE00000000000000 : W64).toNat / 2 ^ 56 = 0xFE) ∧
    (let s := on { slotAt 1 [] with hdr := 0x2000 - 16, idx := 2 } headerAt2000
     s.me.entering = false ∧ s.me.block ≠ [] ∧ s.me.idx = hdrLen (s.me.block.headD 0) + 2 ∧
       s.me.hdr + 8 * BitVec.ofNat 64 s.me.idx = 0x2000) ∧
    (atAdd .running).me.entering = false := by
  decide +kernel

/-! ### Witnesses: engines and handles -/

theorem opens_of {u : State} {need : Need} {a : W64} {n : Nat}
    (h : (List.range n).all (fun d => okAny (translate u u.cur.1 u.me.thread need (a + BitVec.ofNat 64 d))) = true) :
    Opens u need a n := fun d hd => by
  obtain ⟨⟨pa, leaf⟩, h⟩ := okAny_of ((List.all_eq_true.mp h) d (List.mem_range.mpr hd))
  exact ⟨pa, leaf, h⟩

theorem cachedAt_of {u : State} {a : W64} {n : Nat} (h : (List.range n).all (fun d => noWalk u (a + BitVec.ofNat 64 d)) = true) :
    CachedAt u a n := fun d hd => cached_of ((List.all_eq_true.mp h) d (List.mem_range.mpr hd))

/-- Every byte of an RDX's ranges translates, with no walk to wait for. -/
def rdxReach (u : State) (ty : RdxTy) (bs : List Byte) : Bool :=
  let n := field bs 72 4 * rdxWidth ty
  let ok (need : Need) (a : W64) : Bool := (List.range n).all (fun d =>
    okAny (translate u u.cur.1 u.me.thread need (a + BitVec.ofNat 64 d)) && noWalk u (a + BitVec.ofNat 64 d))
  (List.range 8).all (fun i => !(field bs 76 1).testBit i || ok needEngineSrc (BitVec.ofNat 64 (field bs (8 * i) 8))) &&
    ok needEngineDst (BitVec.ofNat 64 (field bs 64 8))

theorem rdxReach_of {u : State} {ty : RdxTy} {bs : List Byte} (h : rdxReach u ty bs = true) :
    RdxOpens u ty bs (CachedAt u) := fun _ => by
  simp only [rdxReach, Bool.and_eq_true, List.all_eq_true, List.mem_range, Bool.or_eq_true, Bool.not_eq_true'] at h
  have go {need : Need} {a : W64} (h : ∀ d < field bs 72 4 * rdxWidth ty,
      okAny (translate u u.cur.1 u.me.thread need (a + BitVec.ofNat 64 d)) = true ∧ noWalk u (a + BitVec.ofNat 64 d) = true) :
      Opens u need a (field bs 72 4 * rdxWidth ty) ∧ CachedAt u a (field bs 72 4 * rdxWidth ty) :=
    ⟨fun d hd => by obtain ⟨⟨pa, leaf⟩, h⟩ := okAny_of (h d hd).1; exact ⟨pa, leaf, h⟩, fun d hd => cached_of (h d hd).2⟩
  refine ⟨fun i hi => ?_, go h.2⟩
  rcases h.1 i hi.1 with h | h
  · simp [hi.2] at h
  · exact go h

/-- The rules of R309, as far as they can be computed. -/
def rdxKeeps (bs : List Byte) : Bool :=
  decide (field bs 76 1 ≠ 0 ∧ 1 ≤ field bs 72 4 ∧ field bs 72 4 ≤ 1048576 ∧ field bs 64 8 % 64 = 0) &&
    (List.range 8).all (fun i => !(field bs 76 1).testBit i || field bs (8 * i) 8 % 64 == 0) &&
    (List.range 51).all (fun i => bs.getD (77 + i) 0 == 0)

theorem rdxKeeps_of {bs : List Byte} (h : rdxKeeps bs = true) : RdxKeeps bs := by
  simp only [rdxKeeps, Bool.and_eq_true, decide_eq_true_eq, List.all_eq_true, List.mem_range, Bool.or_eq_true, Bool.not_eq_true',
    beq_iff_eq] at h
  refine ⟨h.1.1.1, h.1.1.2.1, h.1.1.2.2.1, h.1.1.2.2.2, fun i hi => ?_, fun i h1 h2 => ?_⟩
  · exact (h.1.2 i hi.1).resolve_left (by simp [hi.2])
  · have := h.2 (i - 77) (by omega)
    rwa [Nat.add_sub_cancel' h1] at this

theorem test_witness_EngineWordsJoinTheirQueue_rdxRanges :
    let s := adding
    let u := within s stForm
    let bs := bytesAt s.mem 0x400 128
    Ready s stForm ∧ (valsOf s stForm).a.toNat % 64 = 0 ∧ (valsOf s stForm).b.toNat % 64 = 0 ∧ NoRed u ∧
      Free u .glb (valsOf s stForm).a ∧
      (∀ z ∈ [settle s, u], readGlobal z z.cur.1 z.me.thread needLoad (valsOf s stForm).a 128 = .ok (bs, false)) ∧
      RdxKeeps bs ∧ ¬ RdxKeeps (List.replicate 128 0) ∧ rdxUses bs 0 ∧ rdxUses bs 1 ∧
      RdxOpens (settle s) .f32 bs (CachedAt (settle s)) ∧ RdxOpens u .f32 bs (CachedAt u) ∧
      Opens s needEngineBar (valsOf s stForm).b 64 ∧ Opens u needEngineBar (valsOf s stForm).b 64 ∧
      CachedAt u (valsOf s stForm).b 64 := by
  refine ⟨poised_of ?_, ?_, ?_, calm_of ?_, free_of ?_, ?_, rdxKeeps_of ?_, fun h => absurd h.1 ?_, ?_, ?_, rdxReach_of ?_, rdxReach_of ?_, opens_of ?_,
    opens_of ?_, cachedAt_of ?_⟩ <;> first
    | decide +kernel
    | (unfold rdxUses; decide +kernel)

theorem test_witness_EngineWordsJoinTheirQueue_rqz :
    let s := engines 0x100 5 0x800
    let g : Form := { noOperands with a := .s (.n 1), b := .s (.n 2), c := .s (.n 3) }
    let u := within s g
    (valsOf s g).a.toNat % 16 = 0 ∧ (valsOf s g).c.toNat % 64 = 0 ∧
      (∀ z ∈ [s, u], Opens z needEngineEntry (valsOf s g).a 16 ∧ Opens z needEngineBar (valsOf s g).c 64) ∧
      CachedAt u (valsOf s g).a 16 ∧ CachedAt u (valsOf s g).c 64 := by
  refine ⟨?_, ?_, ?_, cachedAt_of ?_, cachedAt_of ?_⟩ <;> first
    | decide +kernel
    | (intro z hz; rcases List.mem_cons.mp hz with rfl | hz
       · exact ⟨opens_of (by decide +kernel), opens_of (by decide +kernel)⟩
       · rw [List.mem_singleton.mp hz]; exact ⟨opens_of (by decide +kernel), opens_of (by decide +kernel)⟩)

theorem lowestFree_of {u : State} {p : Partition} {size i o : Nat} (hb : o = 0 ∨ ∀ b < o, ¬ Fits u p size b)
    (hi : i < p.capacity ∧ (entryAt u p i).state = 0 ∧ ∀ j < i, (entryAt u p j).state ≠ 0) (hf : Fits u p size o) :
    LowestFree u p size i o :=
  ⟨hi, hf, hb.elim (fun h => by subst h; exact fun b hb => absurd hb (Nat.not_lt_zero b)) id⟩

theorem test_witness_HandlesCountTheirReferences_lowest :
    (let s := objects 1 [(1, 4096 - 128), (2, 3)]
     let u := within s (formAB (.n 1) (.n 2) (.n 3))
     let p := u.part u.me.thread.part
     OnGranules u p ∧ LowestFree u p (4096 - 128) 1 128 ∧ p.low ≤ freeBytes u p ∧ u.poisoned (p.table + 32 * 1) = false ∧
       ({ u with poison := [0x1000 / 64] } : State).poisoned (p.table + 32 * 1) = true ∧ MustWait u p 4033 ∧ 4033 ≤ p.hsize ∧
       MustWait u { p with capacity := 1 } 64 ∧ MustWait u { p with low := 4096 } 64) := by
  unfold OnGranules LowestFree MustWait Fits
  refine ⟨?_, ⟨?_, ?_, ?_⟩, ?_, ?_, ?_, Or.inr (Or.inl ?_), ?_, Or.inl ?_, Or.inr (Or.inr ?_)⟩
  · decide +kernel
  · decide +kernel
  · decide +kernel
  · decide +kernel
  · decide +kernel
  · decide +kernel
  · decide +kernel
  · rintro o ⟨h1, h2, h3⟩
    have h2 : o + 4096 ≤ 4096 := h2
    have := h3 0 (by decide +kernel) (by decide +kernel)
    obtain rfl : o = 0 := by omega
    revert this
    decide +kernel
  · decide +kernel
  · decide +kernel
  · decide +kernel

theorem test_witness_ObjectsAreReachedThroughHandles_read :
    (let s := objects 1 [(1, strong0), (2, 3)]
     let h := (valsOf s stForm).a
     Ready s stForm ∧ hStrong h = true ∧ Unfenced (within s stForm) ∧ Unread s h ∧ EntrySound s h ∧ Names s h 0 (object0 1) ∧
       ((56 : BitVec 24).signExtend 64 : W64).toNat % 8 = 0 ∧ (∀ r, s.me.entryRead ≠ some (h, r))) ∧
    (let s := havingRead .marked (objects 1 [(1, strong0), (2, 3)]) strong0
     Ready s stForm ∧ s.me.entryRead = some ((valsOf s stForm).a, .marked) ∧ Unfenced (within s stForm)) ∧
    (let s := havingRead .gone (objects 1 [(1, strong0), (2, 3)]) strong0
     Ready s stForm ∧ s.me.entryRead = some ((valsOf s stForm).a, .gone)) ∧
    (let s := havingRead .sent (objects 1 [(1, strong0), (2, 3)]) strong0
     Ready s (formA (.n 1) (.n 3)) ∧ s.me.entryRead = some ((valsOf s (formA (.n 1) (.n 3))).a, .sent)) ∧
    (let s := havingRead (.live (object0 1)) (objects 1 [(1, strong0), (2, 3)]) strong0
     Ready s stForm ∧ s.me.entryRead = some ((valsOf s stForm).a, .live (object0 1)) ∧
       (object0 1).size < (64 : BitVec 24).toNat + 8 ∧ ((64 : BitVec 24).signExtend 64 : W64).toNat % 8 = 0) := by
  refine ⟨⟨poised_of ?_, ?_, unfenced_of ?_, ?_, entrySound_of ?_, ?_, ?_, ?_⟩, ⟨poised_of ?_, ?_, unfenced_of ?_⟩,
    ⟨poised_of ?_, ?_⟩, ⟨poised_of ?_, ?_⟩, ⟨poised_of ?_, ?_, ?_, ?_⟩⟩ <;> first
    | decide +kernel
    | (unfold Names; decide +kernel)
    | (intro r h; exact absurd (show (none : Option (W64 × EntryRead)) = some _ from h) nofun)

/-! ### Witnesses: claims, shoot-downs, contexts, gangs that have ended -/

theorem test_witness_ArrivalsComeToTheirSlots_claim :
    (let f : Fetcher := { Fetcher.reset with bound := true, claiming := true, desc := 0xF8, total := 9 }
     let s := { on { slotAt 1 [] with fetcher := f } with reds := [red1] }
     (s.slot 0 0).fetcher = f ∧ (∃ x ∈ s.reds, threadId x.thr = threadId (s.slot 0 0).thread ∧ x.addr = f.desc + 8) ∧
       NoRedOf (on { slotAt 1 [] with fetcher := f }) 0 0) ∧
    NoRedOf (one []) 0 0 ∧ NoClaimOf (one []) 0 0 := by
  unfold NoRedOf NoClaimOf; decide +kernel

theorem test_witness_ArrivalsComeToTheirSlots_dirtyLine :
    let l := { line8 1 with dirty := 2 }
    let s := core0 walked (fun x => { x with l1 := [l] })
    clusterOf 0 = 0 ∧ l ∈ (s.core 0).l1 ∧ heldUnder l 0 0 false 0x100 ∧ heldUnder l 0 0 true 0x100 ∧ l.cls ≠ 0 ∧
      l.dirty.getLsbD 1 = true ∧ regionOf (l.pline * 32 + 1) = .hbm 0 ∧ ∀ d, ∀ q ∈ (s.core d).l1, q.pline = l.pline → q = l := by
  refine ⟨?_, ?_, ?_, ?_, ?_, ?_, ?_, ?_⟩
  all_goals first | decide +kernel | (unfold heldUnder; decide +kernel) | skip
  refine mapGet_all (p := fun x : Core => ∀ q ∈ x.l1, q.pline = _ → q = _) ?_ ?_ <;> decide +kernel

theorem test_witness_MessagesWakesAndFlitsAreDelivered_denied :
    (let q : Reasm := { srcCore := 1, srcSlot := 0, slot := 15, nfl := 1, chunks := [(0, List.replicate 128 0)], denied := true }
     let s := core0 (one []) (fun x => { x with reasm := [q] })
     (s.core 0).reasm.find? (fun q => q.slot == 15 && q.nfl != 0 && q.chunks.length == q.nfl) = some q ∧ q.srcCore ≠ 0 ∧
       (s.core 1).isSealed = false ∧ noReinstate s 1 = false ∧ (s.core 1).waiting = [] ∧ (freeSlotsOf s 1).head? = some 0 ∧
       field (q.chunks.flatMap (·.2)) 8 8 = 0) ∧
    (let q : Reasm := { srcCore := 1, srcSlot := 2, slot := 15, nfl := 1, chunks := [(0, List.replicate 128 0)], own := some thr }
     q.denied = false ∧ q.own = some thr) := by decide +kernel

theorem test_witness_GangsAreScheduledSavedAndCleared_spent :
    let g := { gang0 with live := 0 }
    let s := { one [] with gangs := [g] }
    s.gangs.find? (fun g => g.id == (0, 0)) = some g ∧ g.live = 0 ∧ gang0.live ≠ 0 := by decide +kernel

/-! ### Witnesses: rows, reductions, requantisations, passes -/

/-- A row of the scratchpad of core 0 into a space, or into buffer 2. -/
def rowFrom (src len : Nat) (dst : Nat) (cb : Option Nat) : CopyRow :=
  { src := BitVec.ofNat 64 src, dst := BitVec.ofNat 64 dst, len := len, ssp := .spd, dsp := .spd, cb := cb }

/-- Where an engine finds the bytes of a range, as far as it can be computed. -/
def allFound (z : State) (sp : Space) (need : Need) (a : W64) (len : Nat) : Bool :=
  (List.range len).all (fun d => okAny (engineAt z 0 thr sp need a len d))

theorem allFound_of {z : State} {sp : Space} {need : Need} {a : W64} {len : Nat} (h : allFound z sp need a len = true) :
    ∀ d < len, ∃ l, engineAt z 0 thr sp need a len d = .ok l := fun d hd =>
  okAny_of (List.all_eq_true.mp h d (List.mem_range.mpr hd))

theorem test_witness_EnginesAndReclaimPerformTheirWork_rowCheck :
    (let s := filling buf2 0 0x51
     let z := { s with gangs := [gang0] }
     (rowFrom 0 16 256 none).src.toNat % 4 = 0 ∧ allFound z .spd needLoad 0 16 = true ∧ allFound z .spd needStore 256 16 = true ∧
       FirstFails z 0 thr .spd needLoad 4090 16 (.trap (trapAccess 4090)) ∧
       ((s.core 0).cbuf 2).owner = some (thr.launch, thr.gang) ∧ (16 : Nat) ≤ ((s.core 0).cbuf 2).size ∧
       ((s.core 0).cbuf 2).free ≠ 0 ∧ (17 : Nat) % 4 ≠ 0) ∧
    (((filling { buf2 with free := 0 } 0 0x51).core 0).cbuf 2).free = 0 := by
  refine ⟨⟨?_, ?_, ?_, ⟨0, ?_, err_of ?_, fun e he => absurd he (Nat.not_lt_zero e)⟩, ?_, ?_, ?_, ?_⟩, ?_⟩ <;> decide +kernel

/-- A machine with an RDX of BF16 at the head of core 0: buffers 0, 2 and 7, two elements, and poisoned lines. -/
def reducing (bad : List Nat) : State :=
  { core0 (one []) (fun x => { x with rdq := [.rdx .bf16 srcs2 [(0x200, 4, true)] 2 false 0x800 thr] }) with poison := bad }
where
  /-- its sources -/
  srcs2 : Map (List Piece) := [(0, [(0x100, 2, true), (0x140, 2, true)]), (2, [(0x180, 4, true)]), (7, [(0x1C0, 4, true)])]

theorem test_witness_EnginesAndReclaimPerformTheirWork_rdx :
    Reducible (reducing []) .bf16 reducing.srcs2 [(0x200, 4, true)] 2 0x800 ∧
    (∃ e ∈ reducing.srcs2, ∃ pa, elementAt .bf16 e.2 1 = some pa ∧ (reducing [5]).poisoned pa = true) ∧
    (reducing []).myCore.rdq ≠ [] ∧ Clean (reducing [5]) := by
  refine ⟨⟨⟨?_, ?_⟩, ?_, ?_⟩, ?_, ?_, clean_of ?_⟩
  · decide +kernel
  · decide +kernel
  · have h : ∀ e ∈ reducing.srcs2, ∀ j < 2, elementAt .bf16 e.2 j = some ((elementAt .bf16 e.2 j).getD 0) ∧
        regionOf ((elementAt .bf16 e.2 j).getD 0) = .hbm 0 := by decide +kernel
    intro e he j hj
    exact ⟨_, 0, h e he j hj⟩
  · intro j hj
    refine ⟨0x200 + 2 * j, 0, ?_⟩
    unfold Off
    interval_cases j
    all_goals refine ⟨by decide +kernel, by decide +kernel, by decide +kernel, by decide +kernel, ?_, ?_⟩
    all_goals first
      | (intro i hi; interval_cases i; intro q hq; cases hq; decide)
      | (intro i hi; exact absurd hi (Nat.not_lt_zero i))
      | (intro e he i hi q hq
         have h : ∀ e ∈ reducing.srcs2, ∀ i < 2, ∀ q, elementAt .bf16 e.2 i = some q → q + 2 ≤ 0x200 := by
           intro e he i hi q hq
           have h : ∀ e ∈ reducing.srcs2, ∀ i < 2, (elementAt .bf16 e.2 i).getD 0 + 2 ≤ 0x200 := by decide +kernel
           have := h e he i hi
           rwa [hq] at this
         have := h e he i hi q hq
         left
         show q + 2 ≤ _
         omega)
  · refine ⟨(0, [(0x100, 2, true), (0x140, 2, true)]), ?_, 0x140, ?_⟩ <;> decide +kernel
  · decide +kernel
  · decide +kernel

theorem test_witness_EnginesAndReclaimPerformTheirWork_pageFits :
    let m := with_ (with_ (with_ (with_ [] 0x1020 8 128) 0x1028 8 2048) 0x1030 4 1) 0x1034 1 0x12
    let m := with_ (with_ (with_ (with_ m 0x1000 8 4096) 0x1008 8 2048) 0x1010 4 1) 0x1014 1 0x12
    let m := with_ (with_ (with_ m 0x100 8 (2 ^ 63)) 0x109 1 4) 0x10A 1 1
    let s := { objects 1 [] with mem := m }
    let old := BitVec.ofNat 64 (num s.mem 0x100 8)
    ∃ e f, hStrong old = true ∧ liveObject s 0 old = some (0, e) ∧ liveObject s 0 (BitVec.ofNat 64 (2 ^ 63 + 1)) = some (1, f) ∧
      num s.mem 0x109 1 ≠ 0 ∧ num s.mem 0x10A 1 = 1 ∧ 2 * 128 ≤ e.size ∧ 64 + 4 ≤ f.size ∧ Off 0x1000 64 0x100 16 ∧
      (∀ i, liveObject s 0 5 ≠ some i) := by
  refine ⟨{ off := 4096, size := 2048, strong := 1, prio := 2, state := 1, gen := 0, own := 0 },
    { off := 128, size := 2048, strong := 1, prio := 2, state := 1, gen := 0, own := 0 }, ?_, ?_, ?_, ?_, ?_, ?_, ?_, ?_, ?_⟩
  all_goals first | decide +kernel | (unfold Off; decide) | skip
  intro i h
  exact absurd (h ▸ (by decide +kernel : liveObject { objects 1 [] with mem := _ } 0 5 = none)) nofun

theorem test_witness_EnginesAndReclaimPerformTheirWork_pass :
    let s := { objects 0 [] with poison := [0x1000 / 64] }
    reclaimable (entryAt s (s.part 0) 0) ∧ s.poisoned ((s.part 0).table + 32 * 0) = true ∧
      (objects 0 []).poisoned ((s.part 0).table + 32 * 0) = false := by
  unfold reclaimable; decide +kernel

/-! ### Witnesses: ports, pages that are waited for, commands -/

theorem unspoilt_of {s : State} {a n : Nat}
    (h : (List.range (n / 64 + 2)).all (fun i => !s.poisoned ((a / 64 + i) * 64)) = true) : Unspoilt s a n := fun l h1 h2 => by
  have := List.all_eq_true.mp h (l - a / 64) (List.mem_range.mpr (by omega))
  rw [Nat.add_sub_cancel' (by omega)] at this
  simpa using this

theorem test_witness_PortsHostAndBootActAsDescribed_job :
    (let s := one []
     ∀ b, 0 ≤ b → b < 3 → Unspoilt s (0x1000 + b * 20) 20) ∧ (0 : Nat) < 20 ∧
    (∀ b, 0 ≤ b → b < 3 → ¬ Unspoilt { one [] with poison := [0x1000 / 64] } (0x1000 + b * 20) 20) := by
  refine ⟨fun b _ hb => unspoilt_of ?_, by decide, fun b _ hb h => ?_⟩
  · interval_cases b <;> decide +kernel
  · exact absurd (h 64 (by omega) (by omega)) (by decide +kernel)

theorem quiet_of {s : State} {lo n : Nat} (h1 : s.res = []) (h2 : ∀ e ∈ s.cores, e.2.rdq = [] ∧ e.2.rqq = [])
    (h3 : ∀ e ∈ s.clusters, ∀ q ∈ e.2.queues, q.2.items = []) : Quiet s lo n := by
  refine ⟨fun e he => ?_, fun e he i hi => ?_, fun e he q hq i hi => ?_⟩
  · simp [h1] at he
  · simp [h2 e he] at hi
  · simp [h3 e he q hq] at hi

theorem test_witness_PortsHostAndBootActAsDescribed_waits :
    Quiet (one []) (2 ^ 16) (2 ^ 16) ∧ Awaited (reducing []) 0 (2 ^ 16) ∧ Awaited copies 0 (2 ^ 16) ∧
    Awaited { one [] with res := [{ line := 2 ^ 10, tid := 0, held := some 0 }] } (2 ^ 16) (2 ^ 16) := by
  refine ⟨quiet_of ?_ ?_ ?_, Or.inr (Or.inl ⟨_, List.mem_cons_self .., _, Or.inl (List.mem_cons_self ..), ?_⟩),
    Or.inr (Or.inr ⟨_, List.mem_cons_self .., _, List.mem_cons_self .., _, _, _, _, _, _, _, _, _, _, List.mem_cons_self .., ?_⟩),
    Or.inl ⟨_, List.mem_cons_self .., ?_, ?_⟩⟩
  · rfl
  · decide +kernel
  · decide +kernel
  · intro h; exact absurd h.1 (by unfold Off; decide)
  · unfold Off; decide
  · decide
  · unfold Off; decide

/-- A machine whose service core lends slot 0 of core 0, faulted there or not, to the context at 0x2000. -/
def lending (st : SlotSt) (l : List (Nat × Launch)) (bad : List Nat) : State :=
  { commanded 0x0B [0, 0x100, 0x2000] with
    launches := l, poison := bad
    cores := [(0, { Core.reset with slots := [(0, { slotAt 1 [] with st := st })] }), (15, ((commanded 0x0B [0, 0x100, 0x2000]).core 15))] }

theorem test_witness_ServiceCommandsComplete_lend :
    (let s := lending .faulted [(0, launch1)] []
     Commanded s 15 0x0B ∧ arg s 15 0 < 2 ^ 16 ∧ locCore (mapGet 0 (s.core 15).cmdArgs 0) = 0 ∧ bits (mapGet 0 (s.core 15).cmdArgs 0) 2 4 = 0 ∧
       bits (mapGet 0 (s.core 15).cmdArgs 0) 1 1 ≠ 1 ∧ ¬ LendForbidden s 0 0 ∧ regionOf (arg s 15 2) = .hbm 0 ∧ LaunchNamed s (arg s 15 2) 0 launch1 ∧
       launch1.part = (s.slot 0 0).thread.part) ∧
    LendForbidden (lending .running [] []) 0 0 ∧
    (∀ e ∈ (lending .faulted [] []).launches, e.1 % 2 ^ 16 ≠ num (lending .faulted [] []).mem (0x2000 + 468) 2) ∧
    (¬ Unspoilt (lending .faulted [] [0x2000 / 64]) 0x2000 4096 ∧ 2 ^ 16 ≤ arg (commanded 0x0B [2 ^ 16, 0, 0]) 15 0) ∧
    (let s := lending .faulted [(0, { launch1 with part := 3 })] []
     LaunchNamed s 0x2000 0 { launch1 with part := 3 } ∧ (3 : Nat) ≠ (s.slot 0 0).thread.part) := by
  refine ⟨⟨⟨rfl, rfl, rfl, rfl⟩, ?_, ?_, ?_, ?_, ?_, ?_, ⟨?_, ?_, ?_⟩, ?_⟩, Or.inl ?_, ?_, ⟨fun h => absurd (h 128 (by decide) (by decide)) ?_, ?_⟩,
    ⟨?_, ?_, ?_⟩, ?_⟩
  all_goals first | decide +kernel | skip
  rintro (h | h | h | h)
  · exact h rfl
  · unfold loads at h; revert h; decide +kernel
  · exact absurd h.1 (by decide)
  · revert h; decide +kernel

theorem test_witness_ServiceCommandsComplete_policy :
    arg (commanded 0x0A [3, 9]) 15 0 = 3 ∧ arg (commanded 0x0A [5, 9]) 15 0 = 5 ∧ arg (commanded 0x0A [6, 9]) 15 0 = 6 ∧
    arg (commanded 0x0A [7, 9]) 15 0 = 7 ∧ 7 < arg (commanded 0x0A [8, 9]) 15 0 := by decide +kernel

theorem test_witness_ServiceCommandsComplete_parts :
    (let s := commanded 0x0F [11, 0x800, 2, 0, 0, 6]
     ¬ OwnedByAnother s (arg s 15 0) (arg s 15 1) (arg s 15 2) (arg s 15 3 + arg s 15 4 * 2 ^ 64)) ∧
    (let s := commanded 0x0F [11, 1, 2, 0, 0, 6]
     OwnedByAnother s (arg s 15 0) (arg s 15 1) (arg s 15 2) (arg s 15 3 + arg s 15 4 * 2 ^ 64)) ∧
    (let s := commanded 0x0F [0, 1, 1, 1, 0, 6]
     ¬ ∀ p < 64, (arg s 15 2).testBit p = true → clusterIdle s p = true) ∧
    ¬ (arg (commanded 0x0F [12, 0x800, 2, 0, 0, 6]) 15 0 ≤ 11) ∧
    (¬ Unspoilt { commanded 0x06 [11, 7, 0x100] with poison := [4] } 0x100 40 ∧ Unspoilt (commanded 0x06 [11, 7, 0x100]) 0x100 40 ∧
      Clean (commanded 0x06 [11, 7, 0x100])) ∧
    (let s := { commanded 0x07 [0, 0x100] with mem := (objects 1 []).mem, parts := (objects 1 []).parts }
     ∃ i < (s.part 0).capacity, (entryAt s (s.part 0) i).state = 1) := by
  refine ⟨?_, ⟨(0, part0), List.mem_cons_self .., by decide +kernel, Or.inl ⟨0, by decide +kernel, by decide +kernel⟩⟩, by decide +kernel,
    by decide +kernel, ⟨fun h => absurd (h 4 (by decide) (by decide)) (by decide +kernel), unspoilt_of (by decide +kernel), clean_of (by decide +kernel)⟩,
    ⟨0, by decide +kernel, by decide +kernel⟩⟩
  intro s
  rintro ⟨e, he, -, h⟩
  obtain rfl : e = (0, part0) := List.mem_singleton.mp he
  have low {i : Nat} (h : Nat.testBit 1 i = true) : i = 0 := by
    rcases i with _ | i
    · rfl
    · simp [Nat.testBit_succ] at h
  rcases h with ⟨i, h1, h2⟩ | ⟨i, h1, h2⟩ | ⟨i, h1, h2⟩ <;> obtain rfl := low h1 <;> exact absurd h2 (by decide +kernel)

/-! ### Ill-formed terms

One for each kind of check: an immediate in a field that takes none, a destination or an ordering that the word does not
accept, counts and registers out of range, conversions and operations without a meaning.
-/

theorem test_ill_formed_terms_are_refused :
    ([ .add { stall := 0, d := .n 3, a := .imm, b := .n 2, w := .d },
       .add { stall := 0, d := .n 3, a := .n 1, b := .imm, w := .d },
       .bext { stall := 0, d := .n 3, a := .n 1, b := .n 2, c := .imm, w := .d },
       .vadd { stall := 0, d := 1, a := 2, b := 3, ty := .f32, rm := .rne, ftz := false, k := .imm },
       .ld { stall := 0, d := .s 1, a := .n 1, off := 0, w := .d, sx := false, sp := .glb, pol := .nrm, ord := .rlx },
       .cbrsv { stall := 0, d := .m 1, cb := 0 },
       .barr { stall := 0, d := .link .dn, a := .n 1 },
       .ld { stall := 0, d := .n 1, a := .n 1, off := 0, w := .d, sx := false, sp := .glb, pol := .nrm, ord := .rel .pk },
       .st { stall := 0, a := .n 1, b := .n 1, off := 0, w := .d, sp := .glb, pol := .nrm, ord := .acq .pk },
       .fence { stall := 0, ord := .rlx },
       .ld { stall := 0, d := .n 1, a := .n 1, off := 0, w := .d, sx := true, sp := .glb, pol := .nrm, ord := .rlx },
       .hld { stall := 0, d := .n 1, a := .n 1, off := 0, w := .d, sx := true },
       .skipz { stall := 0, a := .n 1, cnt := 0 },
       .skipnz { stall := 0, a := .n 1, cnt := 32 },
       .iter { stall := 0, d := 22, cnt := .three, disp := 4 },
       .stalln { stall := 0, n := 0 },
       .fcvt { stall := 0, d := .n 1, a := .n 2, dk := .nf, sk := .nf, rm := .rne, ftz := false, fmt := 1 },
       .fcvt { stall := 0, d := .n 1, a := .n 2, dk := .f32, sk := .f64, rm := .rne, ftz := false, fmt := 1 },
       .vcvt { stall := 0, d := 1, a := 2, k := .z, dk := .nf, sk := .f64, rm := .rne, ftz := false, fmt := 1 },
       .vred { stall := 0, op := .min, d := .n 1, a := 2, ty := .w, rm := .rtz, ftz := false, k := .z },
       .qfence { stall := 0, mask := 0 },
       .amo { stall := 0, op := .fadd, d := .n 1, a := .n 2, b := .n 3, w := .d, sp := .glb, ord := .rlx },
       .red { stall := 0, op := .swap, a := .n 2, b := .n 3, w := .d, sp := .glb, ord := .rlx } ] : List Instr).all
      (fun i => !i.wf) = true := by
  decide +kernel

theorem test_boundary_terms_are_well_formed :
    ([ .skipz { stall := 7, a := .q 15, cnt := 31 }, .iter { stall := 0, d := 21, cnt := .three, disp := 0xFFFFFFFF },
       .stalln { stall := 0, n := 0xFFFFFFFF }, .fence { stall := 0, ord := .ar .sy }, .qfence { stall := 0, mask := 63 },
       .fcvt { stall := 0, d := .push, a := .hb, dk := .nf, sk := .f64, rm := .rup, ftz := true, fmt := 7 } ] : List Instr).all
      (fun i => i.wf && (encode i).isSome) = true := by
  decide +kernel

/-! ### Words of the manual (sections 02 and 05–22, the encoded examples) -/

/-- The decoder reads an instruction from a word. -/
abbrev Reads (w : Nat) (i : Instr) : Prop := isOk (decodeWord w) i = true

theorem test_decode_slot_words :
    Reads 0x020AAA1000000001 (.subImm { stall := 0, d := .n 5, a := .n 5, w := .d, zx := false, imm := 1 }) ∧
    Reads 0x040B28A802000000 (.cmplt { stall := 0, d := .n 6, a := .n 4, b := .n 5, w := .d }) ∧
    Reads 0x050BAC8A40000000 (.sel { stall := 0, d := .n 7, a := .n 6, b := .n 1, c := .n 2 }) ∧
    Reads 0x060A000280000000 (.li { stall := 0, d := .n 4, zx := true, imm := 0x80000000 }) ∧
    Reads 0x1000261000000001 (.skipnz { stall := 0, a := .n 3, cnt := 1 }) ∧
    Reads 0x1100003000000005 (.call { stall := 0, disp := 5 }) ∧
    Reads 0x1100006000000000 (.ret { stall := 0 }) ∧
    Reads 0x1300004000000000 (.exit { stall := 0 }) := by
  decide +kernel

theorem test_decode_float_and_system_words :
    Reads 0x230AA80000040C00
      (.fcvt { stall := 0, d := .n 5, a := .n 4, dk := .f32, sk := .nf, rm := .rne, ftz := false, fmt := 3 }) ∧
    Reads 0x8100221000000000 (.syswr { stall := 0, a := .n 1, reg := 0 }) ∧
    Reads 0x8200000000000005 (.trap { stall := 0, imm := 5 }) ∧
    Reads 0x8200001000000000 (.eret { stall := 0 }) ∧
    Reads 0x83002C00000000A1 (.trace { stall := 0, a := .n 6, tag := 0xA1 }) := by
  decide +kernel

theorem test_decode_vector_words :
    Reads 0x340A04000323C000 (.vrmaxi { stall := 0, d := .n 4, a := 2, ty := .w, ftz := false, k := .z }) ∧
    Reads 0x360B02B80223C000 (.vselk { stall := 0, d := .n 6, a := 1, b := .n 7, ty := .w, ftz := false, k := .z }) ∧
    Reads 0x3603020801218000 (.vcmpr { stall := 0, d := 6, a := 1, b := 1, ty := .w, ftz := false, k := .n 8 }) ∧
    Reads 0x37020BE000300000
      (.vcvt { stall := 0, d := 4, a := 5, k := .z, dk := .bf16, sk := .f32, rm := .rne, ftz := false, fmt := 0 }) ∧
    Reads 0x3502B0000023C000 (.vsplat { stall := 0, d := 5, a := .n 8, w := .w, k := .z }) ∧
    Reads 0x350411DB8223C000 (.vins { stall := 0, d := 8, a := 8, b := .link .dw, c := .n 12, w := .w, k := .z }) ∧
    Reads 0x36048E400021C000 (.vmaxi { stall := 0, d := 9, a := 7, b := 8, ty := .w, ftz := false, k := .n 12 }) ∧
    Reads 0x350D92E00123C000 (.vlane { stall := 0, d := .n 11, a := 9, b := .n 12, w := .w, k := .z }) := by
  decide +kernel

theorem test_decode_memory_words :
    Reads 0x410026A879000000
      (.st { stall := 0, a := .n 3, b := .n 5, off := 0, w := .d, sp := .spd, pol := .keep, ord := .rel .pk }) ∧
    Reads 0x420A260000000008 (.ldc { stall := 0, d := .n 4, a := .n 3, off := 8 }) ∧
    Reads 0x420026A840000000 (.stf { stall := 0, a := .n 3, b := .n 5, off := 0 }) ∧
    Reads 0x4400260030000040 (.pref { stall := 0, a := .n 3, off := 64, pol := .keep, sp := .glb }) ∧
    Reads 0x4500001000000002 (.spfence { stall := 0, mask := 2 }) ∧
    Reads 0x4801B0000000F000 (.vld { stall := 0, d := 3, a := .n 8, sp := .glb, pol := .nrm, ord := .rlx, k := .z }) ∧
    Reads 0x4A01B0000000F000 (.vldl { stall := 0, d := 3, a := .n 8, k := .z }) ∧
    Reads 0x4B0222024200F000
      (.vldb { stall := 0, fmt := 2, d := 4, a := .n 1, c := .n 2, sp := .glb, pol := .nrm, ord := .rlx, k := .z }) := by
  decide +kernel

theorem test_decode_tensor_and_buffer_words :
    Reads 0x500A000001200000 (.cbrsv { stall := 0, d := .n 4, cb := 1 }) ∧
    Reads 0x5800788A40010000 (.odef { stall := 0, a := .z, b := .n 1, c := .n 2, os := 0, fmt := 0, layout := .mk }) ∧
    Reads 0x590028AF80224000
      (.cld { stall := 0, a := .n 4, b := .n 5, c := .z, tile := 2, os := 1, kind := .f16, fmt := 0 }) ∧
    Reads 0x5A00000000200000 (.cwait { stall := 0, tile := 2 }) ∧
    Reads 0x5A0B800001200000 (.cqry { stall := 0, d := .n 7, tile := 2 }) ∧
    Reads 0x5A00000002200000 (.cabort { stall := 0, tile := 2 }) ∧
    Reads 0x5B00000000300000 (.czero { stall := 0, tile := 3 }) ∧
    Reads 0x5B02AC0001300000 (.crd { stall := 0, d := 5, a := .n 6, tile := 3 }) ∧
    Reads 0x5B002C2802300000 (.cwr { stall := 0, a := .n 6, b := 5, tile := 3 }) := by
  decide +kernel

theorem test_decode_atomic_message_and_engine_words :
    Reads 0x60002CB806260000
      (.amo { stall := 0, op := .or, d := .push, a := .n 6, b := .n 7, w := .w, sp := .glb, ord := .ar .cl }) ∧
    Reads 0x630A260000220000 (.lrw { stall := 0, d := .n 4, a := .n 3, w := .w, ord := .acq .pk }) ∧
    Reads 0x640AA80002000000 (.bara { stall := 0, d := .n 5, a := .n 4 }) ∧
    Reads 0x640028B001000000 (.barw { stall := 0, a := .n 4, b := .n 6 }) ∧
    Reads 0x6500280000000000 (.mwait { stall := 0, a := .n 4 }) ∧
    Reads 0x680B000001600000 (.mpeek { stall := 0, d := .n 6, mreg := 3 }) ∧
    Reads 0x680B800004000000 (.inbx { stall := 0, d := .n 7 }) ∧
    Reads 0x6900320000000003 (.migrate { stall := 0, a := .n 9, disp := 3 }) ∧
    Reads 0x690D281000000000 (.homec { stall := 0, d := .n 10, a := .n 4 }) ∧
    Reads 0x700028A800400000 (.cpy { stall := 0, a := .n 4, b := .n 5, eq := 1 }) ∧
    Reads 0x700028AAC1000000 (.cpyl { stall := 0, a := .n 4, b := .n 5, c := .n 6, eq := 0 }) ∧
    Reads 0x730B800000800000 (.eqry { stall := 0, d := .n 7, eq := 2 }) ∧
    Reads 0x7C0028AAC0400000 (.baddq { stall := 0, a := .n 4, b := .n 5, c := .n 6, fmt := 2 }) := by
  decide +kernel

/-! ### Steps, with results that the manual states or that follow from its rules by hand -/

/-- Register n of the current slot as it reads after the machine's next step. -/
def after (s : State) (n : Nat) : Option W64 :=
  match step s with
  | .next t => some ((t.slot 0 0).nCell n).val
  | _ => none

/-- The same after one word at the end of a block, with registers and a memory. -/
def runs (w : Nat) (l : List (Nat × Nat)) (n : Nat) (m : Memory := []) : Option W64 :=
  after (on ((slotAt 1 l).atWord w) m) n

/-- `add.w n3, n1, #-7` (02): 3 − 7 at 32 bits, sign-extended. -/
theorem test_add_w_sign_extends : runs 0x0209A204FFFFFFF9 [(1, 0xFFFFFFFF00000003)] 3 = some 0xFFFFFFFFFFFFFFFC := by
  decide +kernel

/-- `li n4, #0x8000_0000` (05) writes 0x0000_0000_8000_0000. -/
theorem test_li_zero_extends : runs 0x060A000280000000 [] 4 = some 0x80000000 := by decide +kernel

/-- `sel n7, n6, n1, n2` (05) takes n1 where n6 is not 0. -/
theorem test_sel_takes_b : runs 0x050BAC8A40000000 [(6, 2 ^ 63), (1, 5), (2, 6)] 7 = some 5 := by decide +kernel

/-- `cmplt n6, n4, n5` (05) is signed. -/
theorem test_cmplt_is_signed : runs 0x040B28A802000000 [(4, 2 ^ 64 - 1), (5, 0)] 6 = some 1 := by decide +kernel

/-- What an instruction leaves in register n of a small machine, at once or after its latency. -/
def execs (i : Instr) (s : State) (n : Nat) : Option W64 :=
  match exec i s with
  | .next t => match (t.me.nCell n).st with
    | .late _ v => some v
    | _ => some (t.me.nCell n).val
  | _ => none

/-- The division examples of 05. -/
theorem test_division_examples :
    execs (.divu { stall := 0, d := .n 3, a := .n 1, b := .n 2, w := .d }) (one [(1, 7), (2, 0)]) 3 = some 0xFFFFFFFFFFFFFFFF ∧
    execs (.rem { stall := 0, d := .n 3, a := .n 1, b := .n 2, w := .w }) (one [(1, 0x180000000), (2, 0)]) 3 = some 0xFFFFFFFF80000000 ∧
    execs (.div { stall := 0, d := .n 3, a := .n 1, b := .n 2, w := .w }) (one [(1, 0x80000000), (2, 0xFFFFFFFF)]) 3 =
      some 0xFFFFFFFF80000000 := by
  decide +kernel

/-- The field example of 05: l = 8, p = 4. -/
theorem test_bins_example :
    execs (.bins { stall := 0, d := .n 4, a := .n 1, b := .n 2, c := .n 3, w := .d })
      (one [(1, 0xFFFFFFFFFFFFFFFF), (2, 0), (3, 0x804)]) 4 = some 0xFFFFFFFFFFFFF00F := by
  decide +kernel

/-- What a word that issued is owed first. -/
def owedBy (i : Instr) (s : State) : Option OwedVal :=
  match exec i s with
  | .next t => (t.me.owed.head?).map (·.val)
  | _ => none

/-- A core after a load that its dirty line 8 with an uncorrectable error answered (R163): the line is written back. -/
def struck : State :=
  let l : L1Line := { line8 1 with flawed := true, dirty := 1 }
  sealCore (core0 (one []) (fun x => { x with l1 := [l] })) 0 1 0

theorem test_flawed_line_leaves_its_home_poisoned :
    struck.poisoned 0x100 = true ∧ (cellGet struck.mem 0x100).toNat = 0x11 ∧ (struck.core 0).isSealed = true := by
  decide +kernel

theorem test_flawed_clean_line_is_fetched_again :
    l1Find (core0 (one []) (fun x => { x with l1 := [{ line8 1 with flawed := true }] })) 0 0 0 8 = none := by
  decide +kernel

/-- A load of one byte at an address, sign-extended: 0x80 is −128. -/
theorem test_ld_b_sx : owedBy (.ld { stall := 0, d := .n 4, a := .n 1, off := 0xFFFFFF, w := .b, sx := true, sp := .glb, pol := .nrm, ord := .rlx })
    (one [(1, 0x105)] (with_ [] 0x104 1 0x80)) = some (.scalar 0 0xFFFFFFFFFFFFFF80) := by
  decide +kernel

/-- The block-scaled example of 08: scale byte 0x80 (2), element byte 0x53: lanes 3.0 and 6.0. -/
theorem test_vldb_example :
    owedBy (.vldb { stall := 0, fmt := 2, d := 4, a := .n 1, c := .n 2, sp := .glb, pol := .nrm, ord := .rlx, k := .n 4 })
      (on { slotAt 1 [(1, 0x100), (2, 0x200), (4, 3)] with fmt := [(2, 0x01011214)] } (with_ (with_ [] 0x100 1 0x53) 0x200 1 0x80)) =
      some (.vector 0x40C0000040400000) := by
  decide +kernel

/-- CQRY of a faulted load whose base is 7 (07): the status and the base. -/
theorem test_cqry_example :
    owedBy (.cqry { stall := 0, d := .n 7, tile := 0 })
      (loading { run0 with state := .faulted, base := 7, faddr := 0x4000010000 } []) = some (.scalar 0x0040000100000002 7) := by
  decide +kernel

/-- A compare and swap that fails yields the old word and stores nothing. -/
theorem test_cas_failure_stores_nothing :
    (match exec (.cas { stall := 0, d := .n 4, a := .n 1, b := .n 2, c := .n 3, w := .w, sp := .glb, ord := .rlx }) (three 0x100 5 7) with
      | .next t => (t.me.owed.head?.map (·.val), num t.mem 0x100 4)
      | _ => (none, 0)) = (some (.scalar 0 0x44332211), 0x44332211) := by
  decide +kernel

/-- A word of the table, put where the machine fetches next, runs as its first instruction after reset: EXIT empties the
slot, and a word with a bit of its reserved fields set traps instead. -/
theorem test_a_fetched_word_runs :
    (match step (State.reset.withFetchWord 64 0x1300004000000000) with
      | .next t => decide ((t.slot 0 0).st = .empty)
      | _ => false) = true ∧
    decodeTableWord 64 0x0109A29000000000 = some (.add { stall := 0, d := .n 3, a := .n 1, b := .n 2, w := .d }) ∧
    decodeTableWord 64 0x0109A29000000001 = none := by
  decide +kernel

/-- TRAP #5 with no handler escalates: the slot faults (R90, R112). -/
theorem test_trap_without_a_handler_faults :
    (match exec (.trap { stall := 0, imm := 5 }) (one []) with
      | .next t => decide (t.me.st = .faulted)
      | _ => false) = true := by
  decide +kernel

end Sys2Proof.Tests
end

section
/-!
SUPPORT. The frame of work in the background (R163, R236, R240, R298, R345): what moving lines between L1s and homes,
performing deferred REDs, waking monitors and writing records and flits leaves alone.
-/

namespace Sys2Proof.Machine

/-! ### Tables and cores under a map -/

/-- An entry of a table each of whose entries is changed by a function of its key. -/
theorem mapGet_map {α : Type} (d : α) (f : Nat → α → α) (m : Map α) (k : Nat) :
    mapGet d (m.map (fun e : Nat × α => (e.1, f e.1 e.2))) k = f k (mapGet d m k) ∨
      mapGet d (m.map (fun e : Nat × α => (e.1, f e.1 e.2))) k = mapGet d m k := by
  induction m with
  | nil => exact Or.inr rfl
  | cons e m ih =>
    obtain ⟨j, a⟩ := e
    by_cases h : j = k
    · subst h; left; simp [mapGet, mapFind]
    · simpa [mapGet, mapFind, h] using ih

/-- A core that differs in its slots, its L1, its trace ring and its queue of flits alone. -/
def Core.RestKept (x y : Core) : Prop :=
  ∃ slots l1 due inj id ring,
    y = { x with slots := slots, l1 := l1, sealDue := due, inject := inj, msgid := id, ring := ring }

theorem Core.RestKept.trans {x y z : Core} (h : Core.RestKept x y) (g : Core.RestKept y z) : Core.RestKept x z := by
  obtain ⟨_, _, _, _, _, _, rfl⟩ := h
  obtain ⟨_, _, _, _, _, _, rfl⟩ := g
  exact ⟨_, _, _, _, _, _, rfl⟩

/-- A core seen again after work in the background: such a difference, and of its slots the monitors alone. -/
structure Core.Aside (x y : Core) : Prop where
  rest : Core.RestKept x y
  slots : ∀ k, ∃ m, mapGet Slot.reset y.slots k = { mapGet Slot.reset x.slots k with monitor := m }

theorem Core.Aside.refl (x : Core) : Core.Aside x x := ⟨⟨_, _, _, _, _, _, rfl⟩, fun _ => ⟨_, rfl⟩⟩

theorem Core.Aside.trans {x y z : Core} (h : Core.Aside x y) (g : Core.Aside y z) : Core.Aside x z := by
  refine ⟨h.rest.trans g.rest, fun k => ?_⟩
  obtain ⟨m, hm⟩ := h.slots k
  obtain ⟨n, hn⟩ := g.slots k
  exact ⟨n, by rw [hn, hm]⟩

/-- A core with the same slots. -/
theorem Core.Aside.of_slots {x : Core} (l1 : List L1Line) (due : Bool) (inj : List Flit) (id : Nat) (ring : TraceRing) :
    Core.Aside x { x with l1 := l1, sealDue := due, inject := inj, msgid := id, ring := ring } :=
  ⟨⟨_, _, _, _, _, _, rfl⟩, fun _ => ⟨_, rfl⟩⟩

/-- What work in the background leaves alone: lines that move between L1s and homes, records and flits written, monitors woken
and deferred REDs performed change neither what a slot holds nor a core's service registers, and take no step off the
agenda. -/
structure Background (s t : State) : Prop where
  cur : t.cur = s.cur
  clk : t.clk = s.clk
  coll : t.coll = s.coll
  commands : t.commands = s.commands
  agenda : ∀ i ∈ s.agenda, i ∈ t.agenda
  core : ∀ c, Core.Aside (s.core c) (t.core c)

namespace Background

/-- A state that differs in other parts alone. -/
theorem of_cores {s t : State} (cur : t.cur = s.cur := by rfl) (clk : t.clk = s.clk := by rfl)
    (coll : t.coll = s.coll := by rfl) (commands : t.commands = s.commands := by rfl)
    (agenda : t.agenda = s.agenda := by rfl) (cores : t.cores = s.cores := by rfl) : Background s t :=
  ⟨cur, clk, coll, commands, fun _ h => by rwa [agenda], fun c => by
    rw [show t.core c = s.core c by rw [State.core, State.core, cores]]; exact .refl _⟩

theorem refl (s : State) : Background s s := .of_cores

theorem trans {s t u : State} (h : Background s t) (g : Background t u) : Background s u :=
  ⟨g.cur.trans h.cur, g.clk.trans h.clk, g.coll.trans h.coll, g.commands.trans h.commands,
    fun i hi => g.agenda i (h.agenda i hi), fun c => (h.core c).trans (g.core c)⟩

theorem foldl {α : Type} {f : State → α → State} (h : ∀ s a, Background s (f s a)) (l : List α) (s : State) :
    Background s (l.foldl f s) := by
  induction l generalizing s with
  | nil => exact refl s
  | cons a l ih => exact (h s a).trans (ih _)

/-- Every slot holds what it held, but for its monitor. -/
theorem slot {s t : State} (h : Background s t) (c k : Nat) : ∃ m, t.slot c k = { s.slot c k with monitor := m } :=
  (h.core c).slots k

theorem me {s t : State} (h : Background s t) : ∃ m, t.me = { s.me with monitor := m } := by
  rw [State.me, h.cur]; exact h.slot _ _

theorem myCore {s t : State} (h : Background s t) : Core.Aside s.myCore t.myCore := by
  rw [State.myCore, State.myCore, h.cur]; exact h.core _

end Background

/-- A core replaced by what it is after such work. -/
theorem background_setCore {s : State} {c : Nat} {x : Core} (h : Core.Aside (s.core c) x) : Background s (s.setCore c x) := by
  refine ⟨rfl, rfl, rfl, rfl, fun _ h => h, fun d => ?_⟩
  by_cases hd : d = c
  · subst hd; simpa using h
  · rw [core_setCore_ne s x hd]; exact .refl _

/-- Every core replaced by what it is after such work. -/
theorem background_mapCores {s : State} {f : Nat → Core → Core} (h : ∀ c x, Core.Aside x (f c x)) :
    Background s { s with cores := s.cores.map (fun e : Nat × Core => (e.1, f e.1 e.2)) } := by
  refine ⟨rfl, rfl, rfl, rfl, fun _ h => h, fun c => ?_⟩
  rcases mapGet_map Core.reset f s.cores c with he | he
  · simpa only [State.core, he] using h c _
  · simpa only [State.core, he] using Core.Aside.refl _

/-! ### Homes -/

theorem setPoison_background (s : State) (pa : Nat) (b : Bool) : Background s (s.setPoison pa b) := by
  unfold State.setPoison; split <;> exact .of_cores

theorem logFault_background (s : State) (pa kind info : Nat) : Background s (s.logFault pa kind info) := by
  unfold State.logFault; split <;> exact .of_cores

theorem setSide_background (s : State) (pa : Nat) (x : SideBits) : Background s (s.setSide pa x) :=
  .of_cores

theorem dirWrite_background (s : State) (pa : Nat) (k : Option Nat) : Background s (dirWrite s pa k) := by
  unfold dirWrite; dsimp only
  split
  · exact .refl s
  · split <;> exact setSide_background _ _ _

theorem returnCopies_background (s : State) (p : Nat → L1Line → Bool) : Background s (returnCopies s p) := by
  unfold returnCopies
  refine Background.trans (Background.foldl (fun s l => ?_) _ s) (Background.trans (Background.foldl (fun s l => ?_) _ _)
    (background_mapCores (f := fun c x => { x with sealDue := x.sealDue || x.l1.any (fun l => p c l && l.spoils) })
      (fun c x => .of_slots _ _ _ _ _)))
  · split
    · exact .refl s
    · exact setPoison_background _ _ _
  · split
    · exact setPoison_background _ _ _
    · exact .refl s

theorem dropCopies_background (s : State) (pa n : Nat) (k : Option Nat) : Background s (dropCopies s pa n k) :=
  (returnCopies_background s _).trans (background_mapCores
    (f := fun c x => { x with l1 := x.l1.filter (fun l => !(l.copies pa n && some c != k)) })
    (fun _ _ => .of_slots _ _ _ _ _))

theorem recallOwner_background (s : State) (c : Option Nat) (pa : Nat) : Background s (recallOwner s c pa) := by
  unfold recallOwner; dsimp only
  split
  · exact (returnCopies_background s _).trans (background_mapCores
      (f := fun d x => { x with l1 := x.l1.map (fun l =>
        if l.owned && l.pline / 2 == pa / 64 && some d != c then { l with dirty := 0 } else l) })
      (fun _ _ => .of_slots _ _ _ _ _))
  · exact .refl s

theorem noteBad_background (s : State) (pa : Nat) (bad : Bool) : Background s (noteBad s pa bad) := by
  unfold noteBad
  split
  · exact (recallOwner_background _ _ _).trans (logFault_background _ _ _ _)
  · exact .refl s

theorem noteLines_background (s : State) (ls : List Nat) : Background s (noteLines s ls) :=
  Background.foldl (fun s pa => noteBad_background s pa true) ls s

/-- A monitor woken is all that a store changes of a slot. -/
theorem stir_monitor (x : Slot) (pa n : Nat) : ∃ m, x.stir pa n = { x with monitor := m } := by
  unfold Slot.stir; split <;> exact ⟨_, rfl⟩

theorem wakeMonitors_background (s : State) (pa n : Nat) : Background s (wakeMonitors s pa n) := by
  refine background_mapCores (f := fun _ x => { x with slots := x.slots.map (fun k : Nat × Slot => (k.1, k.2.stir pa n)) })
    (fun c x => ⟨⟨_, _, _, _, _, _, rfl⟩, fun k => ?_⟩)
  rcases mapGet_map Slot.reset (fun _ y => y.stir pa n) x.slots k with he | he
  · obtain ⟨m, hm⟩ := stir_monitor (mapGet Slot.reset x.slots k) pa n
    exact ⟨m, he.trans hm⟩
  · exact ⟨_, he⟩

theorem writeOwn_background (s : State) (c pa : Nat) (bs : List Byte) : Background s (writeOwn s c pa bs) := by
  unfold writeOwn
  extract_lets x mine y
  have hy : Core.Aside (s.core c) y := by
    unfold y; split
    · exact .of_slots _ _ _ _ _
    · exact .refl _
  split
  · exact (background_setCore (hy.trans (.of_slots _ _ _ _ _))).trans (dirWrite_background _ _ _)
  · refine Background.trans ?_ (dirWrite_background _ _ _)
    split
    · exact .refl s
    · exact background_setCore hy

theorem homeWrite_background (s : State) (w : Option Nat) (hc : Bool) (pa : Nat) (bs : List Byte) :
    Background s (homeWrite s w hc pa bs) := by
  unfold homeWrite
  split
  · exact .of_cores
  · extract_lets n u v x
    have hu : Background s u := by
      unfold u; split
      · exact dropCopies_background _ _ _ _
      · exact .refl s
    have hv : Background u v := .of_cores
    refine hu.trans (hv.trans ((wakeMonitors_background v pa n).trans ?_))
    split
    · split
      · exact Background.foldl (fun s a => dirWrite_background s a none) _ _
      · exact writeOwn_background _ _ _ _
    · exact .refl _
  · exact .refl s

/-! ### Lines of an L1 -/

theorem writeBackBytes_background (s : State) (c : Nat) (l : L1Line) (is : List Nat) :
    Background s (writeBackBytes s c l is) := by
  induction is generalizing s with
  | nil => exact .refl s
  | cons i is ih =>
    refine Background.trans ?_ (ih _)
    split
    · exact homeWrite_background _ _ _ _ _
    · exact .refl s

theorem writeBackLine_background (s : State) (c : Nat) (l : L1Line) : Background s (writeBackLine s c l) := by
  unfold writeBackLine
  extract_lets u v
  have hu : Background s u := by
    unfold u; split
    · exact .refl s
    · exact writeBackBytes_background _ _ _ _
  have hv : Background u v := setPoison_background _ _ _
  refine hu.trans (hv.trans ?_)
  split
  · exact background_setCore (.of_slots _ _ _ _ _)
  · exact .refl v

theorem writeBackAll_background (s : State) (c : Nat) (ls : List L1Line) : Background s (writeBackAll s c ls) := by
  induction ls generalizing s with
  | nil => exact .refl s
  | cons l ls ih =>
    refine Background.trans ?_ (ih _)
    split
    · exact .refl s
    · exact writeBackLine_background _ _ _

theorem cleanLines_background (s : State) (c : Nat) (p : L1Line → Bool) : Background s (cleanLines s c p) :=
  (writeBackAll_background s c _).trans (background_setCore (.of_slots _ _ _ _ _))

theorem flushLines_background (s : State) (c : Nat) (p : L1Line → Bool) : Background s (flushLines s c p) :=
  (writeBackAll_background s c _).trans (background_setCore (.of_slots _ _ _ _ _))

theorem flushFrom_background (s : State) (p : L1Line → Bool) (cs : List Nat) : Background s (flushFrom s p cs) := by
  induction cs generalizing s with
  | nil => exact .refl s
  | cons c cs ih =>
    refine Background.trans ?_ (ih _)
    split
    · exact flushLines_background _ _ _
    · exact .refl s

theorem scRelease_background (s : State) (c : Nat) : Background s (scRelease s c) := by
  unfold scRelease; split
  · exact cleanLines_background _ _ _
  · exact .refl s

theorem scAcquire_background (s : State) (c : Nat) : Background s (scAcquire s c) := by
  unfold scAcquire; split
  · exact flushLines_background _ _ _
  · exact .refl s

/-! ### Trace records and messages -/

theorem ringPut_background (s : State) (c : Nat) (bs : List Byte) : Background s (ringPut s c bs) := by
  unfold ringPut; dsimp only
  split
  · exact background_setCore (.of_slots _ _ _ _ _)
  · exact (homeWrite_background _ _ _ _ _).trans (background_setCore (.of_slots _ _ _ _ _))

theorem ringRec_background (s : State) (c k ty a b : Nat) : Background s (ringRec s c k ty a b) := by
  unfold ringRec; dsimp only
  split
  · exact (ringPut_background _ _ _).trans (ringPut_background _ _ _)
  · exact ringPut_background _ _ _

theorem setLost_background (s : State) (c n : Nat) : Background s (setLost s c n) :=
  background_setCore (.of_slots _ _ _ _ _)

theorem traceRec_background (s : State) (c k ty a b : Nat) : Background s (traceRec s c k ty a b) := by
  unfold traceRec traceIf
  extract_lets x
  split
  · exact .refl s
  · split
    · exact ringRec_background _ _ _ _ _ _
    · next u _ _ =>
      have hu : Background s u := (setLost_background s c 0).trans (ringRec_background _ _ _ _ _ _)
      refine hu.trans ?_
      split
      · exact ringRec_background _ _ _ _ _ _
      · exact setLost_background _ _ _

theorem traceUnpark_background (s : State) (c k : Nat) : Background s (traceUnpark s c k) := by
  unfold traceUnpark; split
  · exact traceRec_background _ _ _ _ _ _
  · exact .refl s

theorem sendFault_background (s : State) (c k : Nat) (t : Thread) (kind : Nat) (addr : W64) (flags info : Nat) (word : W64) :
    Background s (sendFault s c k t kind addr flags info word) :=
  Background.trans (t := (newMsgid s c).2) (background_setCore (.of_slots _ _ _ _ _))
    (background_setCore (.of_slots _ _ _ _ _))

/-! ### Deferred REDs -/

theorem tlbFill_background (s : State) (c part asid va : Nat) : Background s (tlbFill s c part asid va) := by
  unfold tlbFill
  split
  · exact .refl s
  · split
    · exact .of_cores
    · exact .refl s

theorem leaveHome_background (s : State) (c pa : Nat) (leaf : W64) : Background s (leaveHome s c pa leaf) := by
  unfold leaveHome
  extract_lets u
  have hu : Background s u := flushFrom_background _ _ _
  refine hu.trans ?_
  split
  · exact (dropCopies_background _ _ _ _).trans (dirWrite_background _ _ _)
  · exact .refl u

theorem rmw_mem_background (s : State) (c pa : Nat) (leaf : W64) (n : Nat) (f : Nat → Option Nat) :
    Background s (rmw s c (.mem pa leaf) n f).2 := by
  unfold rmw; dsimp only
  refine (leaveHome_background s c pa leaf).trans ?_
  split
  · exact homeWrite_background _ _ _ _ _
  · exact .refl _

theorem postOnce_background (s : State) (i : Instr) : Background s (postOnce s i) := by
  unfold postOnce; split
  · exact .refl s
  · exact ⟨rfl, rfl, rfl, rfl, fun _ h => List.mem_append_left _ h, fun _ => .refl _⟩

theorem redGone_background (s : State) (r : DefRed) : Background s (redGone s r) := by
  unfold redGone; dsimp only
  refine Background.trans ?_ (postOnce_background _ _)
  exact Background.trans (t := { s with reds := s.reds.filter (fun x => x.id != r.id) })
    .of_cores (Background.foldl (fun s x => postOnce_background s _) _ _)

theorem redDrop_background (s : State) (r : DefRed) : Background s (redDrop s r) :=
  (redGone_background s r).trans .of_cores

theorem redFail_background (s : State) (r : DefRed) (flags : Nat) : Background s (redFail s r flags) := by
  unfold redFail
  split
  · extract_lets u v
    have hu : Background s u := by
      unfold u; split
      · exact traceRec_background _ _ _ _ _ _
      · exact .refl s
    have hv : Background u v := .of_cores
    exact hu.trans (hv.trans (sendFault_background _ _ _ _ _ _ _ _ _))
  · exact (sendFault_background _ _ _ _ _ _ _ _ _).trans (redDrop_background _ _)

theorem performRed_background (s : State) (r : DefRed) : Background s (performRed s r) := by
  unfold performRed
  split
  · exact redFail_background _ _ _
  · next pa leaf _ =>
    refine (tlbFill_background s r.core r.thr.part r.thr.asid r.addr.toNat).trans ?_
    dsimp only
    split
    · exact .refl _
    · refine (leaveHome_background _ r.core pa leaf).trans ?_
      split
      · exact (noteBad_background _ _ _).trans (redDrop_background _ _)
      · exact (rmw_mem_background _ _ _ _ _ _).trans (redGone_background _ _)

theorem settle_background (s : State) : Background s (settle s) := by
  have key (rs : List DefRed) (s : State) : Background s (performReds s rs) := by
    induction rs generalizing s with
    | nil => exact .refl s
    | cons r rs ih => exact (performRed_background s r).trans (ih _)
  exact key _ s

end Sys2Proof.Machine
end

section
/-!
SUPPORT. Laws of SYSRD and SYSWR (R110): the value of each register, the checks of an access, and what an access that passes
them does.
-/

namespace Sys2Proof.Machine

open Sys2Proof.Rules

/-! ### Values -/

/-- A register number of the format registers. -/
theorem sysValue_fmt (s : State) {i : Nat} (h : i < 8) :
    sysValue s (0x008 + i) = some (BitVec.ofNat 64 (s.me.fmtReg i).toNat) := by
  unfold sysValue
  simp (disch := omega) only [if_neg, if_pos, Nat.add_sub_cancel_left, BitVec.ofNat_toNat, BitVec.truncate_eq_setWidth]

theorem sysValue_svcArg (s : State) {i : Nat} (h : i < 6) :
    sysValue s (0x101 + i) = some (mapGet 0 s.myCore.svcArg i) := by
  unfold sysValue
  simp (disch := omega) only [if_neg, if_pos, Nat.add_sub_cancel_left]

theorem sysValue_port (s : State) {p : Nat} (h : p < 16) :
    sysValue s (0x120 + p) = some (BitVec.ofNat 64 (portWord (s.port p))) := by
  unfold sysValue
  simp (disch := omega) only [if_neg, if_pos, Nat.add_sub_cancel_left]

theorem sysValue_coll (s : State) : sysValue s 0x110 = some ((s.coll.map (fun k => k.addr)).getD 0) := by
  show some _ = some _
  cases s.coll <;> rfl

/-- `sys.netload` as R219 gives it. -/
theorem netload_eq (s : State) (c : Nat) :
    netload s c = (s.cluster (clusterOf c)).lastDefl * 2 ^ 16 + meanLevel s (dieOf c) * 2 ^ 8 + level s (clusterOf c) := by
  simp only [netload, dieLevel, meanLevel, level, List.sum_eq_foldl]

/-- `sys.clearing` as R258 gives it. -/
theorem clearingWord_eq (s : State) (d : Nat) :
    clearingWord s d = (s.die d).clearings % 256 * 2 ^ 16 +
      ((List.range 16).map (fun i => if (s.cluster (16 * d + i)).clearing then 2 ^ i else 0)).sum := by
  simp only [clearingWord, List.sum_eq_foldl]

/-! ### The checks of an access -/

/-- An access to a register that the table lists passes the checks of R110: one of a service register on a service core, one of
`sys.cldser` with the debug flag, and a write of one that is not read-only. -/
theorem sysCheck_passes {s : State} {reg : Nat} {writes : Bool} {val : W64} (x : Avail) (hv : sysValue s reg = some val)
    (hs : reg < 0x100 ∨ onService s) (hw : writes = false ∨ sysReadOnly reg = false)
    (hd : reg ≠ 0x030 ∨ s.me.thread.debug = true) : (sysCheck reg writes).pre s x = none := by
  have h1 : ¬ (0x100 ≤ reg ∧ reg ≤ 0x1FF ∧ s.isSvc s.cur.1 = false) := by
    rintro ⟨hr, -, hf⟩
    rcases hs with hs | hs
    · omega
    · rw [onService, hf] at hs; cases hs
  have h2 : (writes && sysReadOnly reg) = false := by rcases hw with hw | hw <;> simp [hw]
  have h3 : ¬ (reg = 0x030 ∧ s.me.thread.debug = false) := by
    rintro ⟨hr, hf⟩
    rcases hd with hd | hd
    · exact hd hr
    · rw [hf] at hd; cases hd
  simp [sysCheck, h1, hv, h2, h3]

/-! ### SYSRD -/

theorem exec_sysrd (x : SysrdI) (s : State) :
    exec (.sysrd x) s = issue x.stall { noOperands with d := .s x.d } (sysCheck x.reg.toNat false)
      (fun s _ => .done s (.one ((sysValue s x.reg.toNat).getD 0) 0) .seq false) s := rfl

/-- SYSRD of a register that may be read delivers its value. -/
theorem sysrd_delivers {x : SysrdI} {s : State} {v : Vals} {val : W64} (h : Poised s { noOperands with d := .s x.d } v)
    (hv : sysValue s x.reg.toNat = some val) (hs : x.reg.toNat < 0x100 ∨ onService s)
    (hd : x.reg.toNat ≠ 0x030 ∨ s.me.thread.debug = true) :
    exec (.sysrd x) s = .next (delivers s { noOperands with d := .s x.d } x.stall (.one val 0) .seq false) := by
  rw [exec_sysrd]
  refine issue_delivers h (sysCheck_passes _ hv hs (.inl rfl) hd) rfl ?_
  rw [consumeAll_plain (by rfl), hv, Option.getD_some]

/-- A register below the service registers that needs no debug flag is read by every thread. -/
theorem reads_of_sysValue {reg : Nat} {val : State → W64} (hr : reg < 0x100) (hd : reg ≠ 0x030)
    (hv : ∀ s, sysValue s reg = some (val s)) : Reads reg val := by
  rintro x s v rfl h
  exact sysrd_delivers h (hv s) (.inl hr) (.inl hd)

/-- A service register is read on a service core. -/
theorem readsIf_onService {reg : Nat} {val : State → W64} (hd : reg ≠ 0x030)
    (hv : ∀ s, sysValue s reg = some (val s)) : ReadsIf onService reg val := by
  rintro x s v rfl hs h
  exact sysrd_delivers h (hv s) (.inr hs) (.inl hd)

/-! ### SYSWR -/

/-- What SYSWR does once its operand is read. -/
def syswrAct (reg : BitVec 32) (a : W64) (s : State) : Act :=
  if reg = 0x100 then commandAct a s
  else if reg = 0x110 then collAct a s
  else .done (sysWrite (leavePark s) reg.toNat a) .none .seq false

theorem exec_syswr (x : SyswrI) (s : State) :
    exec (.syswr x) s = issue x.stall (syswrForm x) (sysCheck x.reg.toNat true) (fun s v => syswrAct x.reg v.a s) s := rfl

/-- SYSWR of a register that may be written does its own part. -/
theorem syswr_concludes {x : SyswrI} {s : State} {v : Vals} {val : W64} (h : Poised s (syswrForm x) v)
    (hv : sysValue s x.reg.toNat = some val) (hs : x.reg.toNat < 0x100 ∨ onService s) (hw : sysReadOnly x.reg.toNat = false)
    (hd : x.reg.toNat ≠ 0x030 ∨ s.me.thread.debug = true) :
    exec (.syswr x) s = .next (conclude s .none x.stall.toNat (syswrAct x.reg v.a (consumeAll s (syswrForm x)))) := by
  rw [exec_syswr]
  exact issue_poised h (sysCheck_passes _ hv hs (.inr hw) hd) rfl

/-- A write of a register other than `svc.cmd` and `svc.coll` issues with the register's effect. -/
theorem syswr_writes {x : SyswrI} {s : State} {v : Vals} {val : W64} (h : Poised s (syswrForm x) v)
    (hv : sysValue s x.reg.toNat = some val) (hs : x.reg.toNat < 0x100 ∨ onService s) (hw : sysReadOnly x.reg.toNat = false)
    (hd : x.reg.toNat ≠ 0x030 ∨ s.me.thread.debug = true) (hc : x.reg.toNat ≠ 0x100) (hl : x.reg.toNat ≠ 0x110) :
    exec (.syswr x) s =
      .next (goesOn (sysWrite (leavePark (consumeAll s (syswrForm x))) x.reg.toNat v.a) x.stall) := by
  have hc' : x.reg ≠ 0x100 := fun e => hc (by rw [e]; rfl)
  have hl' : x.reg ≠ 0x110 := fun e => hl (by rw [e]; rfl)
  rw [syswr_concludes h hv hs hw hd, syswrAct, if_neg hc', if_neg hl']
  simp [conclude, h.agrees, goesOn]

/-- A register of the slot that is no service register and needs no debug flag takes what `sysWrite` gives it. -/
theorem writes_of_sysWrite {reg : Nat} {val : State → W64} {eff : W64 → Slot → Slot} (hr : reg < 0x100) (hd : reg ≠ 0x030)
    (hv : ∀ s, sysValue s reg = some (val s)) (hw : sysReadOnly reg = false)
    (he : ∀ s a, sysWrite s reg a = s.setMe (eff a s.me)) : Writes reg eff := by
  rintro x s v rfl g h u
  have h' : Poised s (syswrForm x) v := h
  rw [syswr_writes h' (hv s) (.inl hr) hw (.inl hd) (by omega) (by omega), he]
  rfl

/-- The writable bits of `sys.tvec`: all but the low three. -/
theorem and_tvecMask (a : W64) : a &&& tvecMask = BitVec.ofNat 64 (a.toNat / 8 * 8) := by
  have hm : tvecMask = ~~~(BitVec.ofNat 64 (2 ^ 3 - 1)) := by decide
  apply BitVec.eq_of_getLsbD_eq
  intro i hi
  have hn : a.toNat / 8 * 8 = a.toNat / 2 ^ 3 * 2 ^ 3 := rfl
  rw [hm, hn, BitVec.getLsbD_and, BitVec.getLsbD_not, BitVec.getLsbD_ofNat, BitVec.getLsbD_ofNat,
    Nat.testBit_two_pow_sub_one, Nat.testBit_mul_two_pow, Nat.testBit_div_two_pow]
  by_cases h3 : i < 3
  · simp [h3, hi]
  · have : 3 ≤ i := by omega
    simp [h3, hi, this, BitVec.getLsbD]

theorem sysWrite_fmt (s : State) (a : W64) {i : Nat} (h : i < 8) :
    sysWrite s (0x008 + i) a = s.setMe { s.me with fmt := mapSet s.me.fmt i (a.setWidth 32 &&& 0xFF03777F) } := by
  unfold sysWrite
  simp (disch := omega) only [if_neg, if_pos, Nat.add_sub_cancel_left, fmtMask]

theorem sysWrite_svcArg (s : State) (a : W64) {i : Nat} (h : i < 6) :
    sysWrite s (0x101 + i) a = s.setCore s.cur.1 { s.myCore with svcArg := mapSet s.myCore.svcArg i a } := by
  unfold sysWrite
  simp (disch := omega) only [if_neg, if_pos, Nat.add_sub_cancel_left]

theorem sysReadOnly_false {reg : Nat} (h : reg < 0x010 ∨ 0x022 < reg ∧ reg < 0x108 ∨ reg = 0x110) : sysReadOnly reg = false := by
  simp [sysReadOnly]; omega

end Sys2Proof.Machine
end

section
/-!
SUPPORT. Laws of a write of `svc.cmd` (R340): waiting, starting a command and acquiring its end.
-/

namespace Sys2Proof.Machine

open Sys2Proof.Rules

/-! ### The current slot and its core -/

/-- Replacing the current slot changes its core in its slots alone. -/
theorem myCore_setMe (s : State) (x : Slot) :
    (s.setMe x).myCore = { s.myCore with slots := mapSet s.myCore.slots s.cur.2 x } := core_setCore_self s _ _

/-- Replacing the current core by one with the same slots leaves the current slot as it was. -/
theorem me_setCore {s : State} {x : Core} (h : x.slots = s.myCore.slots) : (s.setCore s.cur.1 x).me = s.me :=
  slot_setCore s h _ _

theorem myCore_setCore (s : State) (x : Core) : (s.setCore s.cur.1 x).myCore = x := core_setCore_self s _ x

/-! ### Parking -/

/-- What parking changes: the state of the slot, and what a trace record may change. -/
theorem parkHere_spec (s : State) (r : Reason) :
    (parkHere s r).cur = s.cur ∧ (parkHere s r).commands = s.commands ∧ (∀ i ∈ s.agenda, i ∈ (parkHere s r).agenda) ∧
      Core.RestKept s.myCore (parkHere s r).myCore ∧ ∃ m, (parkHere s r).me = { s.me with st := .parked r, monitor := m } := by
  unfold parkHere
  extract_lets x u v
  split
  · next h => exact ⟨rfl, rfl, fun _ h => h, ⟨_, _, _, _, _, _, rfl⟩, x.monitor, by rw [← h]⟩
  · have hb : Background s v := (traceUnpark_background s _ _).trans (traceRec_background _ _ _ _ _ _)
    obtain ⟨m, hm⟩ := hb.me
    refine ⟨hb.cur, hb.commands, hb.agenda, hb.myCore.rest.trans ⟨_, _, _, _, _, _, myCore_setMe v _⟩, m, ?_⟩
    rw [me_setMe]
    change { v.me with st := .parked r } = _
    rw [hm]

/-! ### Service commands -/

/-- The step of a command as R340 gives it: its selector is a1, but a0 for 0x0C. -/
theorem commandStep_eq (cmd : W64) (arg : Nat → W64) :
    commandStep cmd arg = startsAs (cmd.toNat % 256) (arg (if cmd.toNat % 256 = 12 then 1 else 2)) := by
  unfold commandStep startsAs
  generalize cmd.toNat % 256 = n
  obtain hn | ⟨k, rfl⟩ : n < 17 ∨ ∃ k, n = k + 17 := by
    rcases Nat.lt_or_ge n 17 with h | h
    · exact .inl h
    · exact .inr ⟨n - 17, by omega⟩
  · interval_cases n <;> rfl
  · rfl

/-- The command's code is its low byte. -/
theorem toNat_and_byte (cmd : W64) : (cmd &&& 0xFF).toNat = cmd.toNat % 256 := by
  rw [BitVec.toNat_and]; exact Nat.and_two_pow_sub_one_eq_mod _ 8

/-- A core whose command has started with given arguments. -/
structure Core.Started (y : Core) (cmd : W64) (args : Map W64) : Prop where
  code : y.svcCmd = cmd &&& 0xFF
  busy : y.svcBusy = true
  args : y.cmdArgs = args

theorem Core.Started.rest {x y : Core} {cmd : W64} {args : Map W64} (h : x.Started cmd args) (g : Core.RestKept x y) :
    y.Started cmd args := by
  obtain ⟨_, _, _, _, _, _, rfl⟩ := g
  exact ⟨h.code, h.busy, h.args⟩

/-- The state of a command that has been taken, before its step is chosen. -/
def takeCommand (cmd : W64) (s : State) : State :=
  let x := s.myCore
  let s := s.setCore s.cur.1 { x with
    svcCmd := cmd &&& 0xFF, svcBusy := true, svcDone := false, svcRes0 := 0, svcRes1 := 0, cmdArgs := x.svcArg, svcBy := s.myTid }
  s.setMe { s.me with asked := true }

theorem takeCommand_asked (cmd : W64) (s : State) : (takeCommand cmd s).me.asked = true := by
  unfold takeCommand; simp

theorem takeCommand_myCore (cmd : W64) (s : State) :
    (takeCommand cmd s).myCore.Started cmd s.myCore.svcArg ∧ (takeCommand cmd s).myCore.svcDone = false := by
  unfold takeCommand
  extract_lets x u
  have hu : u.myCore = { x with
      svcCmd := cmd &&& 0xFF, svcBusy := true, svcDone := false, svcRes0 := 0, svcRes1 := 0, cmdArgs := x.svcArg
      svcBy := s.myTid } := myCore_setCore s _
  rw [myCore_setMe, hu]
  exact ⟨⟨rfl, rfl, rfl⟩, rfl⟩

/-- The state in which the accesses of the current slot are performed and the SC lines of its core are at home. -/
def readied (s : State) : State := scRelease (settle s) s.cur.1

theorem readied_background (s : State) : Background s (readied s) := (settle_background s).trans (scRelease_background _ _)

/-- A taken command with its step under way, or with its refusal. -/
def underWay (c : Nat) (t : State) : Sum Instr Nat → State
  | .inl i => { t.post [i] with commands := t.commands ++ [c] }
  | .inr r => t.setCore c { t.core c with svcRes0 := refusal r, svcDone := true }

/-- A command is taken once the slot's accesses are performed; then its step is under way, or its refusal stands. -/
theorem startCommand_eq (cmd : W64) (s : State) :
    startCommand cmd s = underWay s.cur.1 (takeCommand cmd (readied s))
      (commandStep cmd (fun i => mapGet 0 (readied s).myCore.svcArg i)) := by
  have hc : (readied s).cur.1 = s.cur.1 := by rw [(readied_background s).cur]
  unfold startCommand takeCommand State.myCore
  rw [hc]
  rfl

/-- The argument that selects the step of a command. -/
def selector (s : State) (cmd : W64) : W64 := mapGet 0 s.myCore.svcArg (if cmd.toNat % 256 = 12 then 1 else 2)

/-- A state in which the command that the current slot of another state has asked for has started (R340). -/
structure Commanding (s t : State) (cmd : W64) : Prop where
  cur : t.cur = s.cur
  asked : t.me.asked = true
  core : t.myCore.Started cmd s.myCore.svcArg
  starts : ∀ i, startsAs (cmd.toNat % 256) (selector s cmd) = .inl i →
    i ∈ t.agenda ∧ s.cur.1 ∈ t.commands ∧ t.myCore.svcDone = false
  refuses : ∀ r, startsAs (cmd.toNat % 256) (selector s cmd) = .inr r →
    t.myCore.svcDone = true ∧ t.myCore.svcRes0 = refusal r

theorem startCommand_commanding (cmd : W64) (s : State) : Commanding s (startCommand cmd s) cmd := by
  have hb := readied_background s
  have hargs : (readied s).myCore.svcArg = s.myCore.svcArg := by
    obtain ⟨_, _, _, _, _, _, h⟩ := hb.myCore.rest
    rw [h]
  have hcur : (takeCommand cmd (readied s)).cur = s.cur := hb.cur
  have hasked := takeCommand_asked cmd (readied s)
  obtain ⟨hcore, hdone⟩ := takeCommand_myCore cmd (readied s)
  rw [hargs] at hcore
  rw [startCommand_eq, hargs, commandStep_eq, ← selector]
  generalize takeCommand cmd (readied s) = t at *
  cases h : startsAs (cmd.toNat % 256) (selector s cmd) with
  | inl i =>
    refine ⟨hcur, hasked, hcore, fun j hj => ?_, fun r hr => ?_⟩
    · rw [h] at hj; cases hj
      exact ⟨by simp [underWay], by simp [underWay], hdone⟩
    · rw [h] at hr; cases hr
  | inr r =>
    have hme : (underWay s.cur.1 t (.inr r)).me = t.me := by rw [← hcur]; exact me_setCore rfl
    have hmy : (underWay s.cur.1 t (.inr r)).myCore = { t.myCore with svcRes0 := refusal r, svcDone := true } := by
      rw [← hcur]; exact myCore_setCore t _
    refine ⟨hcur, by rw [hme, hasked], ?_, fun j hj => ?_, fun q hq => ?_⟩
    · rw [hmy]; exact ⟨hcore.code, hcore.busy, hcore.args⟩
    · rw [h] at hj; cases hj
    · rw [h] at hq; cases hq
      rw [hmy]; exact ⟨rfl, rfl⟩

/-- Parking leaves a command started. -/
theorem Commanding.park {s t : State} {cmd : W64} (h : Commanding s t cmd) (r : Reason) :
    Commanding s (parkHere t r) cmd := by
  obtain ⟨hcur, hcom, hag, hcore, m, hme⟩ := parkHere_spec t r
  refine ⟨hcur.trans h.cur, by rw [hme]; exact h.asked, h.core.rest hcore, fun i hi => ?_, fun q hq => ?_⟩
  · obtain ⟨h1, h2, h3⟩ := h.starts i hi
    obtain ⟨_, _, _, _, _, _, he⟩ := hcore
    exact ⟨hag i h1, by rw [hcom]; exact h2, by rw [he]; exact h3⟩
  · obtain ⟨h1, h2⟩ := h.refuses q hq
    obtain ⟨_, _, _, _, _, _, he⟩ := hcore
    rw [he]; exact ⟨h1, h2⟩

/-! ### Sources leave the service registers alone -/

/-- A core that differs in its slots, its inbox and its links alone. -/
def Core.Taken (x y : Core) : Prop := ∃ slots inbox links, y = { x with slots := slots, inbox := inbox, links := links }

theorem Core.Taken.refl (x : Core) : Core.Taken x x := ⟨_, _, _, rfl⟩

theorem Core.Taken.trans {x y z : Core} (h : Core.Taken x y) (g : Core.Taken y z) : Core.Taken x z := by
  obtain ⟨_, _, _, rfl⟩ := h
  obtain ⟨_, _, _, rfl⟩ := g
  exact ⟨_, _, _, rfl⟩

theorem setCore_taken {s : State} {c : Nat} {x : Core} (h : Core.Taken (s.core c) x) (d : Nat) :
    Core.Taken (s.core d) ((s.setCore c x).core d) := by
  by_cases hd : d = c
  · subst hd; rwa [core_setCore_self]
  · rw [core_setCore_ne s x hd]; exact .refl _

theorem setSlot_taken (s : State) (c k : Nat) (x : Slot) (d : Nat) : Core.Taken (s.core d) ((s.setSlot c k x).core d) :=
  setCore_taken ⟨_, _, _, rfl⟩ d

/-- What reading one source changes of a core (R42, R170, R182, R220). -/
theorem consume_taken (s : State) (x : Opnd) (d : Nat) : Core.Taken (s.core d) ((consume s x).core d) := by
  unfold consume
  split
  · dsimp only
    split <;> exact setSlot_taken _ _ _ _ _
  · unfold takeMessage
    dsimp only
    split
    · exact (setSlot_taken _ _ _ _ _).trans (setCore_taken ⟨_, _, _, rfl⟩ _)
    · exact setSlot_taken _ _ _ _ _
  · split
    · exact setCore_taken ⟨_, _, _, rfl⟩ _
    · exact .refl _
  · exact .refl _

/-- What reading the sources of a word changes of the core. -/
theorem consumeAll_taken (s : State) (f : Form) : Core.Taken s.myCore (consumeAll s f).myCore := by
  rw [State.myCore, State.myCore, consumeAll_cur]
  exact ((consume_taken s f.a _).trans (consume_taken _ f.b _)).trans ((consume_taken _ f.c _).trans (consume_taken _ f.k _))

@[simp] theorem consumeAll_svcBusy (s : State) (f : Form) : (consumeAll s f).myCore.svcBusy = s.myCore.svcBusy := by
  obtain ⟨_, _, _, h⟩ := consumeAll_taken s f; rw [h]

@[simp] theorem consumeAll_svcDone (s : State) (f : Form) : (consumeAll s f).myCore.svcDone = s.myCore.svcDone := by
  obtain ⟨_, _, _, h⟩ := consumeAll_taken s f; rw [h]

/-! ### What a write of `svc.cmd` does -/

/-- A thread without REDs and claims has no deferred access (R240, R259). -/
theorem redsPending_of_noRed {u : State} (h : NoRed u) : redsPending u = false := by
  obtain ⟨hr, hc⟩ := h
  have h1 : u.reds.any (fun r => threadId r.thr == threadId u.me.thread) = false :=
    List.any_eq_false.2 (fun r hm => by simpa using hr r hm)
  have h2 : u.me.claimOut = false := by
    unfold Slot.claimOut
    cases hb : u.me.fetcher.bound
    · rfl
    · rw [hc hb]; rfl
  rw [redsPending, h1, h2]; rfl

/-- A slot with nothing to order is not behind a FENCE (R273). -/
theorem fenced_of_unfenced {u : State} (h : Unfenced u) : u.me.fenced = false := by
  obtain ⟨hf, ho⟩ := h
  have h1 : u.me.owed.any (fun o => o.val == .waiting) = false :=
    List.any_eq_false.2 (fun o hm => by simpa using ho o hm)
  rw [Slot.fenced, hf, h1]; rfl

/-- A release of a slot with nothing left to order goes on. -/
theorem afterReds_ordered {u : State} {a : Act} (hr : NoRed u) (hf : Unfenced u) : afterReds u true a = a :=
  afterReds_clear (fenced_of_unfenced hf) (.inr (redsPending_of_noRed hr))

/-- A core without a command under way is not taken by one. -/
theorem commandTaken_idle {x : Core} (h : x.svcBusy = false) : commandTaken x = false := by simp [commandTaken, h]

/-- A core with a command that has not completed is taken by it. -/
theorem commandTaken_busy {x : Core} (h : x.svcBusy = true) (hd : x.svcDone = false) : commandTaken x = true := by
  simp [commandTaken, h, hd]

/-- Where no command is under way and the slot has nothing left to order, it parks as the command starts. -/
theorem commandAct_starts {s : State} (a : W64) (ha : s.me.asked = false) (hb : s.myCore.svcBusy = false)
    (hr : NoRed (settle s)) (hf : Unfenced (settle s)) : commandAct a s = .park .result (startCommand a) := by
  simp [commandAct, ha, commandTaken_idle hb, afterReds_ordered hr hf]

/-- Where its command, or another's, has not completed, the slot waits. -/
theorem commandAct_waits {s : State} (a : W64) (hd : s.myCore.svcDone = false)
    (h : s.me.asked = true ∨ s.myCore.svcBusy = true) : commandAct a s = .park .result id := by
  rcases h with h | h
  · simp [commandAct, hd, h]
  · simp [commandAct, hd, commandTaken_busy h hd]

/-- Where its command has completed, the SYSWR issues. -/
theorem commandAct_ends {s : State} (a : W64) (ha : s.me.asked = true) (hd : s.myCore.svcDone = true) :
    commandAct a s = .done (endCommand s) .none .seq false := by
  simp [commandAct, ha, hd]

/-- An acquire leaves no SC line in the core (R236). -/
theorem scAcquire_l1 (s : State) (c : Nat) : ∀ l ∈ ((scAcquire s c).core c).l1, l.cls ≠ 1 := by
  intro l hl
  unfold scAcquire at hl
  split at hl
  · rw [flushLines, core_setCore_self] at hl
    simpa using (List.mem_filter.1 hl).2
  · next h => exact fun hc => h (List.any_eq_true.2 ⟨l, hl, by simpa using hc⟩)

/-- A command that its slot has acquired leaves the core free, without SC lines (R340). -/
theorem endCommand_myCore (s : State) :
    (endCommand s).myCore.svcBusy = false ∧ (endCommand s).myCore.svcDone = false ∧
      ∀ l ∈ (endCommand s).myCore.l1, l.cls ≠ 1 := by
  have hcur : (scAcquire s s.cur.1).cur = s.cur := (scAcquire_background s _).cur
  have hl := scAcquire_l1 s s.cur.1
  unfold endCommand
  extract_lets u
  rw [myCore_setCore]
  refine ⟨rfl, rfl, fun l hm => hl l ?_⟩
  have : u.myCore = u.core s.cur.1 := by rw [State.myCore, hcur]
  rwa [← this]

end Sys2Proof.Machine
end

section
/-!
SUPPORT. Laws of a write of `svc.coll` (R351): the record that root logic reads, on a machine whose caches are clean, and the
collective that is bound.
-/

namespace Sys2Proof.Machine

open Sys2Proof.Rules

/-! ### Numbers of a memory -/

theorem leValue_bytesAt (m : Memory) (a n : Nat) : leValue (bytesAt m a n) = num m a n := by
  induction n generalizing a with
  | zero => rfl
  | succ n ih =>
    have h1 (i : Nat) : (cellGet m (a + (i + 1))).toNat * 256 ^ (i + 1) =
        256 * ((cellGet m (a + 1 + i)).toNat * 256 ^ i) := by
      rw [show a + (i + 1) = a + 1 + i by omega, pow_succ]; ring
    simp only [bytesAt, leValue, ih, num, List.range_succ_eq_map, List.map_cons, List.map_map, List.sum_cons, Nat.add_zero,
      pow_zero, Nat.mul_one, Function.comp_def, Nat.succ_eq_add_one, h1, List.sum_map_mul_left]

theorem num_lt (m : Memory) (a n : Nat) : num m a n < 256 ^ n := by
  rw [← leValue_bytesAt]
  induction n generalizing a with
  | zero => simp [bytesAt, leValue]
  | succ n ih =>
    have h1 := ih (a + 1)
    have h2 := (cellGet m a).isLt
    simp only [bytesAt, leValue, pow_succ]
    omega

/-- The bytes of a value that bytes have are those bytes. -/
theorem toBytes_leValue (bs : List Byte) : toBytes bs.length (leValue bs) = bs := by
  induction bs with
  | nil => rfl
  | cons b bs ih =>
    have hb := b.isLt
    have h1 : (b.toNat + 256 * leValue bs) / 256 = leValue bs := by omega
    have h2 : BitVec.ofNat 8 (b.toNat + 256 * leValue bs) = b := by
      apply BitVec.eq_of_toNat_eq; simp; omega
    simp only [List.length_cons, toBytes, leValue, h1, h2, ih]

theorem drop_bytesAt (m : Memory) (a n o : Nat) : (bytesAt m a (o + n)).drop o = bytesAt m (a + o) n := by
  induction o generalizing a with
  | zero => simp
  | succ o ih =>
    rw [show o + 1 + n = (o + n) + 1 by omega, bytesAt, List.drop_succ_cons, ih]
    congr 1; omega

theorem take_bytesAt (m : Memory) (a n k : Nat) : (bytesAt m a (n + k)).take n = bytesAt m a n := by
  induction n generalizing a with
  | zero => simp [bytesAt]
  | succ n ih => rw [show n + 1 + k = (n + k) + 1 by omega, bytesAt, List.take_succ_cons, ih, bytesAt]

/-- A field of a record read from memory is the number at its place. -/
theorem fieldAt_readLe (m : Memory) (a n : Nat) {o k : Nat} (h : o + k ≤ n) :
    fieldAt (toBytes n (readLe m a n)) o k = num m (a + o) k := by
  have hb : toBytes n (readLe m a n) = bytesAt m a n := by
    have := toBytes_leValue (bytesAt m a n)
    rwa [bytesAt_length] at this
  obtain ⟨j, rfl⟩ : ∃ j, n = o + (k + j) := ⟨n - (o + k), by omega⟩
  rw [fieldAt, hb, drop_bytesAt, take_bytesAt, leValue_bytesAt]

/-! ### Clean caches -/

theorem mapFind_mem {α : Type} {m : Map α} {k : Nat} {a : α} (h : mapFind m k = some a) : (k, a) ∈ m := by
  induction m with
  | nil => cases h
  | cons e m ih =>
    obtain ⟨j, b⟩ := e
    by_cases hj : j = k
    · subst hj; simp only [mapFind, if_true, Option.some.injEq] at h; subst h; simp
    · simp only [mapFind, hj, if_false] at h; exact List.mem_cons_of_mem _ (ih h)

theorem mem_mapSet {α : Type} {m : Map α} {k : Nat} {a : α} {e : Nat × α} (h : e ∈ mapSet m k a) : e = (k, a) ∨ e ∈ m := by
  induction m with
  | nil => simpa [mapSet] using h
  | cons f m ih =>
    obtain ⟨j, b⟩ := f
    by_cases h1 : j < k
    · simp only [mapSet, h1, if_true, List.mem_cons] at h
      rcases h with h | h
      · exact .inr (by simp [h])
      · exact (ih h).imp_right (List.mem_cons_of_mem _)
    · by_cases h2 : j = k
      · simp only [mapSet, h2, Nat.lt_irrefl, if_false, if_true, List.mem_cons] at h
        exact h.imp_right (List.mem_cons_of_mem _)
      · simpa [mapSet, h1, h2] using h

/-- No core of a clean machine holds a dirty line. -/
theorem clean_core {s : State} (h : Clean s) (c : Nat) : ∀ l ∈ (s.core c).l1, l.dirty = 0 := by
  unfold State.core mapGet
  cases hf : mapFind s.cores c with
  | none => intro l hl; cases hl
  | some x => exact h _ (mapFind_mem hf)

/-- Clean lines are not written back. -/
theorem writeBackAll_clean {s : State} {c : Nat} {ls : List L1Line} (h : ∀ l ∈ ls, l.dirty = 0) : writeBackAll s c ls = s := by
  induction ls with
  | nil => rfl
  | cons l ls ih =>
    rw [writeBackAll, if_pos (h l (by simp))]
    exact ih (fun x hx => h x (by simp [hx]))

/-- A clean core whose lines are written back is the core with its lines clean. -/
theorem cleanLines_clean {s : State} (h : Clean s) (c : Nat) (p : L1Line → Bool) :
    cleanLines s c p = s.setCore c { s.core c with l1 := (s.core c).l1.map (fun l => if p l then { l with dirty := 0 } else l) } := by
  rw [cleanLines, writeBackAll_clean (fun l hl => clean_core h c l (List.mem_filter.1 hl).1)]

/-- A release of a clean machine changes no more than a core's clean lines. -/
theorem scRelease_clean {s : State} (h : Clean s) (c : Nat) :
    scRelease s c = s ∨ ∃ x, scRelease s c = s.setCore c x ∧ ∀ l ∈ x.l1, l.dirty = 0 := by
  unfold scRelease
  split
  · refine .inr ⟨_, cleanLines_clean h c _, fun l hl => ?_⟩
    obtain ⟨y, hy, rfl⟩ := List.mem_map.1 hl
    split
    · rfl
    · exact clean_core h c y hy
  · exact .inl rfl

/-- Of a clean machine only a line's own mark says whether it is poisoned. -/
theorem poisoned_clean {s : State} (h : Clean s) (pa : Nat) : s.poisoned pa = s.poison.contains (pa / 64) := by
  have key (p : L1Line → Bool) : s.ownedWith pa p = false := by
    refine List.any_eq_false.2 (fun e he => ?_)
    rw [Bool.not_eq_true]
    exact List.any_eq_false.2 (fun l hl => by simp [L1Line.owned, h e he l hl])
  simp [State.poisoned, key]

/-- What root logic reads of a clean machine is the same after a release. -/
structure SameHomes (s t : State) : Prop where
  mem : t.mem = s.mem
  asrec : t.asrec = s.asrec
  clk : t.clk = s.clk
  poisoned : ∀ pa, t.poisoned pa = s.poisoned pa

theorem scRelease_sameHomes {s : State} (h : Clean s) (c : Nat) : SameHomes s (scRelease s c) := by
  rcases scRelease_clean h c with he | ⟨x, he, hx⟩
  · rw [he]; exact ⟨rfl, rfl, rfl, fun _ => rfl⟩
  · rw [he]
    have hc : Clean (s.setCore c x) := by
      intro e hm
      rcases mem_mapSet hm with rfl | hm
      · exact hx
      · exact h e hm
    exact ⟨rfl, rfl, rfl, fun pa => by rw [poisoned_clean hc, poisoned_clean h, setCore_poison]⟩

/-- The leaves of a table are read from memory alone. -/
theorem leavesFrom_mem {s t : State} (h : t.mem = s.mem) (fuel level base : Nat) :
    leavesFrom t fuel level base = leavesFrom s fuel level base := by
  induction fuel generalizing level base with
  | zero => rfl
  | succ n ih => simp only [leavesFrom, h, ih]

theorem SameHomes.lineClass {s t : State} (h : SameHomes s t) (pa : Nat) : lineClass t pa = lineClass s pa := by
  simp only [Machine.lineClass, h.asrec, leavesFrom_mem h.mem]

/-! ### Collectives -/

/-- The lines that bytes touch lie at them. -/
theorem poisonedLines_unspoilt {u : State} {a n : Nat} (h : Unspoilt u a n) : poisonedLines u a n = [] := by
  refine List.filter_eq_nil_iff.2 (fun l hl => ?_)
  obtain ⟨i, hi, rfl⟩ := List.mem_map.1 hl
  rw [List.mem_range] at hi
  rw [h (a / 64 + i) (by omega) (by omega)]
  simp

/-- The record at an address keeps the table of R351. -/
def KeepsTable (u : State) (a : Nat) : Prop :=
  imageValid (BitVec.ofNat 32 (num u.mem (a + 44) 4)) = true ∧
    (narrowOf (BitVec.ofNat 32 (num u.mem (a + 44) 4))).scale = 1 ∧
    ((narrowOf (BitVec.ofNat 32 (num u.mem (a + 44) 4))).width = 2 ∨
      (narrowOf (BitVec.ofNat 32 (num u.mem (a + 44) 4))).width = 4 ∨
      (narrowOf (BitVec.ofNat 32 (num u.mem (a + 44) 4))).width = 8) ∧
    1 ≤ num u.mem (a + 40) 4 ∧ num u.mem (a + 40) 4 ≤ 65536 ∧ num u.mem (a + 54) 10 = 0 ∧ num u.mem (a + 32) 8 % 64 = 0 ∧
    (∃ k, regionOf (num u.mem (a + 32) 8) = .hbm k) ∧ lineClass u (num u.mem (a + 32) 8) = 0

/-- The collective that the record at an address describes (R351). -/
def collectiveAt (u : State) (v : W64) : Collective :=
  { addr := v, src := num u.mem (v.toNat + 0) 8, dst := num u.mem (v.toNat + 8) 8, stage := num u.mem (v.toNat + 16) 8
    status := num u.mem (v.toNat + 24) 8, bar := num u.mem (v.toNat + 32) 8, nblk := num u.mem (v.toNat + 40) 4
    image := BitVec.ofNat 32 (num u.mem (v.toNat + 44) 4), inPorts := BitVec.ofNat 16 (num u.mem (v.toNat + 48) 2)
    outPorts := BitVec.ofNat 16 (num u.mem (v.toNat + 50) 2), id := num u.mem (v.toNat + 52) 2, masks := [], enq := []
    queue := [], claims := 0, anyInc := false, since := u.clk.toNat }

theorem homeRead_hbm {s : State} {pa m : Nat} (n : Nat) (h : regionOf pa = .hbm m) :
    (homeRead s pa n).1 = readLe s.mem pa n := by
  unfold homeRead; rw [h]

/-- A record in HBM4E is read as its table has it, and is none where it breaks it. -/
theorem collRecord_eq {u : State} {v : W64} {m : Nat} (hr : regionOf v.toNat = .hbm m) [Decidable (KeepsTable u v.toNat)] :
    collRecord u v = if KeepsTable u v.toNat then some (collectiveAt u v) else none := by
  unfold collRecord
  rw [homeRead_hbm 64 hr]
  simp only [fieldAt_readLe _ _ _ (show 0 + 8 ≤ 64 by omega), fieldAt_readLe _ _ _ (show 8 + 8 ≤ 64 by omega),
    fieldAt_readLe _ _ _ (show 16 + 8 ≤ 64 by omega), fieldAt_readLe _ _ _ (show 24 + 8 ≤ 64 by omega),
    fieldAt_readLe _ _ _ (show 32 + 8 ≤ 64 by omega), fieldAt_readLe _ _ _ (show 40 + 4 ≤ 64 by omega),
    fieldAt_readLe _ _ _ (show 44 + 4 ≤ 64 by omega), fieldAt_readLe _ _ _ (show 48 + 2 ≤ 64 by omega),
    fieldAt_readLe _ _ _ (show 50 + 2 ≤ 64 by omega), fieldAt_readLe _ _ _ (show 52 + 2 ≤ 64 by omega),
    fieldAt_readLe _ _ _ (show 54 + 10 ≤ 64 by omega)]
  refine if_congr ?_ rfl rfl
  unfold KeepsTable blockImageOk
  generalize regionOf (num u.mem (v.toNat + 32) 8) = r
  cases r <;> simp [and_assoc, or_assoc]

theorem SameHomes.keepsTable {s t : State} (h : SameHomes s t) (a : Nat) : KeepsTable t a ↔ KeepsTable s a := by
  unfold KeepsTable; rw [h.mem, h.lineClass]

theorem SameHomes.collectiveAt {s t : State} (h : SameHomes s t) (v : W64) : collectiveAt t v = collectiveAt s v := by
  unfold Machine.collectiveAt; rw [h.mem, h.clk]

/-- What root logic reads as a collective is the same after a release. -/
theorem SameHomes.collRecord {s t : State} (h : SameHomes s t) {v : W64} {m : Nat} (hr : regionOf v.toNat = .hbm m) :
    collRecord t v = collRecord s v := by
  classical
  rw [collRecord_eq hr, collRecord_eq hr, h.collectiveAt]
  exact if_congr (h.keepsTable _) rfl rfl

theorem startJobs_coll (k : Collective) (ps : List Nat) (s : State) : (startJobs k ps s).coll = s.coll := by
  induction ps generalizing s with
  | nil => rfl
  | cons p ps ih =>
    refine (ih _).trans ?_
    split <;> rfl

/-- While a collective is active, or where the record breaks its table, a write of `svc.coll` binds none (R351). -/
theorem collBind_ignored {s : State} {v : W64} (h : s.coll ≠ none ∨ collRecord s v = none) : (collBind s v).coll = s.coll := by
  unfold collBind
  extract_lets bad
  split
  · exact (noteLines_background _ _).coll
  · split
    · next k hn hk =>
      rcases h with h | h
      · exact absurd hn h
      · rw [h] at hk; cases hk
    · rfl

/-- A record that keeps the table and expects contributions is bound (R351). -/
theorem collBind_binds {s : State} {v : W64} {k : Collective} (hn : s.coll = none) (hp : poisonedLines s v.toNat 64 = [])
    (hk : collRecord s v = some k) (hi : k.inPorts ≠ 0) : (collBind s v).coll = some k := by
  unfold collBind
  rw [hp, hn, hk]
  simp only [List.isEmpty_nil, Bool.not_true, Bool.and_false, Bool.false_eq_true, if_false]
  rw [if_neg hi]
  exact startJobs_coll k _ _

/-! ### What a write of `svc.coll` does -/

theorem SameHomes.poisonedLines {s t : State} (h : SameHomes s t) (a n : Nat) : poisonedLines t a n = poisonedLines s a n := by
  simp only [Machine.poisonedLines, show t.poisoned = s.poisoned from funext h.poisoned]

/-- The collective bound by a write of `svc.coll`, from the state in which the slot's accesses are performed. -/
def boundState (u : State) (v : W64) : State := (collBind (scRelease u u.cur.1) v).post [.collectiveBind]

/-- Nothing is bound while a collective is active or where the record breaks the table. -/
theorem boundState_ignored {u : State} {v : W64} {m : Nat} (hc : Clean u) (hr : regionOf v.toNat = .hbm m)
    (h : u.coll ≠ none ∨ ¬ KeepsTable u v.toNat) : (boundState u v).coll = u.coll := by
  classical
  have hcoll : (scRelease u u.cur.1).coll = u.coll := (scRelease_background u _).coll
  refine (collBind_ignored ?_).trans hcoll
  rw [hcoll, (scRelease_sameHomes hc _).collRecord hr, collRecord_eq hr]
  exact h.imp_right (fun hk => if_neg hk)

/-- A record that keeps the table and expects contributions is bound as its table has it. -/
theorem boundState_binds {u : State} {v : W64} {m : Nat} (hc : Clean u) (hr : regionOf v.toNat = .hbm m)
    (hp : Unspoilt u v.toNat 64) (hn : u.coll = none) (hk : KeepsTable u v.toNat) (hi : num u.mem (v.toNat + 48) 2 ≠ 0) :
    (boundState u v).coll = some (collectiveAt u v) := by
  classical
  have hs := scRelease_sameHomes hc u.cur.1
  refine collBind_binds ((scRelease_background u _).coll.trans hn) ?_ ?_ ?_
  · rw [hs.poisonedLines, poisonedLines_unspoilt hp]
  · rw [hs.collRecord hr, collRecord_eq hr, if_pos hk]
  · have hlt := num_lt u.mem (v.toNat + 48) 2
    intro h0
    have h1 : num u.mem (v.toNat + 48) 2 % 2 ^ 16 = 0 := congrArg BitVec.toNat h0
    omega

end Sys2Proof.Machine
end

section
/-!
PROOFS. The statement about the system registers (R8, R64, R76, R77, R110, R111, R219, R258, R340, R341, R350, R351).
-/

namespace Sys2Proof.Rules
open Sys2Proof.Machine

/-- SYSRD of the registers of the slot and its thread (R110, R111). -/
theorem slotRegisters_read :
    Reads 0x000 (fun s => s.me.status) ∧ Reads 0x001 (fun s => s.me.tvec) ∧ Reads 0x002 (fun s => s.me.tcause) ∧
    Reads 0x003 (fun s => s.me.tepc) ∧
    (∀ i < 8, Reads (0x008 + i) (fun s => BitVec.ofNat 64 (s.me.fmtReg i).toNat)) ∧
    Reads 0x010 (fun s => BitVec.ofNat 64 (s.me.thread.launch % 2 ^ 16 * 2 ^ 32 + s.me.thread.gang % 2 ^ 32)) ∧
    Reads 0x011 (fun s => BitVec.ofNat 64 (s.me.thread.j % 16 * 2 ^ 20 + s.me.thread.y % 4 * 2 ^ 18 +
      s.me.thread.x % 4 * 2 ^ 16 + s.me.thread.index % 256)) ∧
    Reads 0x012 (fun s => BitVec.ofNat 64 (s.me.thread.prio % 8 * 2 ^ 8 + s.me.thread.stage % 16)) ∧
    Reads 0x013 (fun s => BitVec.ofNat 64 (s.loc s.cur.1 s.cur.2)) ∧
    Reads 0x014 (fun s => s.clk) ∧ Reads 0x015 (fun s => BitVec.ofNat 64 s.me.thread.part) := by
  refine ⟨?_, ?_, ?_, ?_, fun i hi => reads_of_sysValue (by omega) (by omega) (fun s => sysValue_fmt s hi),
    ?_, ?_, ?_, ?_, ?_, ?_⟩
  all_goals exact reads_of_sysValue (by decide) (by decide) (fun _ => rfl)

/-- SYSWR of the registers of the slot (R64, R76, R77, R110). -/
theorem slotRegisters_written :
    Writes 0x000 (fun a x => { x with status := a &&& 0xFF3D }) ∧
    Writes 0x001 (fun a x => { x with tvec := BitVec.ofNat 64 (a.toNat / 8 * 8) }) ∧
    Writes 0x002 (fun a x => { x with tcause := a }) ∧ Writes 0x003 (fun a x => { x with tepc := a }) ∧
    (∀ i < 8, Writes (0x008 + i) (fun a x => { x with fmt := mapSet x.fmt i (a.setWidth 32 &&& 0xFF03777F) })) := by
  refine ⟨?_, ?_, ?_, ?_, fun i hi => ?_⟩
  · exact writes_of_sysWrite (by decide) (by decide) (fun _ => rfl) rfl (fun _ _ => rfl)
  · refine writes_of_sysWrite (by decide) (by decide) (fun _ => rfl) rfl (fun s a => ?_)
    rw [← and_tvecMask]; rfl
  · exact writes_of_sysWrite (by decide) (by decide) (fun _ => rfl) rfl (fun _ _ => rfl)
  · exact writes_of_sysWrite (by decide) (by decide) (fun _ => rfl) rfl (fun _ _ => rfl)
  · exact writes_of_sysWrite (by omega) (by omega) (fun s => sysValue_fmt s hi) (sysReadOnly_false (by omega))
      (fun s a => sysWrite_fmt s a hi)

/-- SYSRD of the network load, the throttle and the clearing of the die (R219, R258). -/
theorem networkRegisters_read :
    Reads 0x020 (fun s => BitVec.ofNat 64 ((s.cluster (clusterOf s.cur.1)).lastDefl * 2 ^ 16 +
      meanLevel s (dieOf s.cur.1) * 2 ^ 8 + level s (clusterOf s.cur.1))) ∧
    Reads 0x021 (fun s => BitVec.ofNat 64 (s.cluster (clusterOf s.cur.1)).rate) ∧
    Reads 0x022 (fun s => BitVec.ofNat 64 ((s.die (dieOf s.cur.1)).clearings % 256 * 2 ^ 16 +
      ((List.range 16).map (fun i => if (s.cluster (16 * dieOf s.cur.1 + i)).clearing then 2 ^ i else 0)).sum)) := by
  refine ⟨reads_of_sysValue (by decide) (by decide) (fun s => ?_),
    reads_of_sysValue (by decide) (by decide) (fun _ => rfl), reads_of_sysValue (by decide) (by decide) (fun s => ?_)⟩
  · rw [← netload_eq]; rfl
  · rw [← clearingWord_eq]; rfl

/-- SYSRD of the service registers on a service core (R340, R351). -/
theorem serviceRegisters_read :
    ReadsIf onService 0x100 (fun s => s.myCore.svcCmd) ∧
    (∀ i < 6, ReadsIf onService (0x101 + i) (fun s => mapGet 0 s.myCore.svcArg i)) ∧
    ReadsIf onService 0x108 (fun s => s.myCore.svcRes0) ∧ ReadsIf onService 0x109 (fun s => s.myCore.svcRes1) ∧
    ReadsIf onService 0x10A (fun s => BitVec.ofNat 64 s.faqOvf) ∧
    ReadsIf onService 0x110 (fun s => (s.coll.map (fun k => k.addr)).getD 0) ∧
    (∀ p < 16, ReadsIf onService (0x120 + p) (fun s => BitVec.ofNat 64 (portWord (s.port p)))) :=
  ⟨readsIf_onService (by decide) (fun _ => rfl), fun i hi => readsIf_onService (by omega) (fun s => sysValue_svcArg s hi),
    readsIf_onService (by decide) (fun _ => rfl), readsIf_onService (by decide) (fun _ => rfl),
    readsIf_onService (by decide) (fun _ => rfl), readsIf_onService (by decide) sysValue_coll,
    fun p hp => readsIf_onService (by omega) (fun s => sysValue_port s hp)⟩

/-- SYSRD of `sys.cldser` under the debug flag (R110). -/
theorem cldser_read : ReadsIf (fun s => s.me.thread.debug = true) 0x030 (fun s => s.me.cldser) := by
  intro x s v hx hd h
  exact sysrd_delivers h (by rw [hx]; rfl) (.inl (by omega)) (.inr hd)

/-- SYSWR of `sys.cldser` under the debug flag (R110). -/
theorem cldser_written {x : SyswrI} {s : State} {v : Vals} (hx : x.reg.toNat = 0x030) (hd : s.me.thread.debug = true)
    (h : Poised s (syswrForm x) v) :
    exec (.syswr x) s = .next (goesOn ((leavePark (consumeAll s (syswrForm x))).setMe
      { (leavePark (consumeAll s (syswrForm x))).me with cldser := v.a }) x.stall) := by
  rw [syswr_writes h (by rw [hx]; rfl) (.inl (by omega)) (by rw [hx]; rfl) (.inr hd) (by omega) (by omega), hx]
  rfl

/-- SYSWR of a service argument (R340). -/
theorem svcArg_written {x : SyswrI} {s : State} {v : Vals} {i : Nat} (hi : i < 6) (hx : x.reg.toNat = 0x101 + i)
    (hs : onService s) (h : Poised s (syswrForm x) v) :
    let u := leavePark (consumeAll s (syswrForm x))
    exec (.syswr x) s = .next (goesOn (u.setCore u.cur.1 { u.myCore with svcArg := mapSet u.myCore.svcArg i v.a })
      x.stall) := by
  rw [syswr_writes h (by rw [hx]; exact sysValue_svcArg s hi) (.inr hs) (sysReadOnly_false (by omega)) (.inl (by omega))
    (by omega) (by omega), hx, sysWrite_svcArg _ _ hi]

/-- SYSWR of `svc.cmd` does the command's part. -/
theorem svcCmd_concludes {x : SyswrI} {s : State} {v : Vals} (hx : x.reg.toNat = 0x100) (hs : onService s)
    (h : Poised s (syswrForm x) v) :
    exec (.syswr x) s = .next (conclude s .none x.stall.toNat (commandAct v.a (consumeAll s (syswrForm x)))) := by
  have hx' : x.reg = 0x100 := BitVec.eq_of_toNat_eq hx
  rw [syswr_concludes h (by rw [hx]; rfl) (.inr hs) (by rw [hx]; rfl) (.inl (by omega)), syswrAct, if_pos hx']

/-- SYSWR of `svc.cmd` starts a command where none is under way (R340). -/
theorem svcCmd_starts {x : SyswrI} {s : State} {v : Vals} (hx : x.reg.toNat = 0x100) (hs : onService s)
    (h : Poised s (syswrForm x) v) (ha : s.me.asked = false) (hb : s.myCore.svcBusy = false)
    (hr : NoRed (within s (syswrForm x))) (hf : Unfenced (within s (syswrForm x))) :
    exec (.syswr x) s = .next (parkHere (startCommand v.a s) .result) := by
  rw [svcCmd_concludes hx hs h, commandAct_starts v.a (by simpa using ha) (by simpa using hb) hr hf]
  rfl

/-- SYSWR of `svc.cmd` waits for a command that has not completed (R340). -/
theorem svcCmd_waits {x : SyswrI} {s : State} {v : Vals} (hx : x.reg.toNat = 0x100) (hs : onService s)
    (h : Poised s (syswrForm x) v) (hd : s.myCore.svcDone = false) (hw : s.me.asked = true ∨ s.myCore.svcBusy = true) :
    exec (.syswr x) s = .next (parkHere s .result) := by
  rw [svcCmd_concludes hx hs h, commandAct_waits v.a (by simpa using hd) (by simpa using hw)]
  rfl

/-- SYSWR of `svc.cmd` issues once its command has completed (R340). -/
theorem svcCmd_ends {x : SyswrI} {s : State} {v : Vals} (hx : x.reg.toNat = 0x100) (hs : onService s)
    (h : Poised s (syswrForm x) v) (ha : s.me.asked = true) (hd : s.myCore.svcDone = true) :
    exec (.syswr x) s = .next (goesOn (endCommand (consumeAll s (syswrForm x))) x.stall) := by
  rw [svcCmd_concludes hx hs h, commandAct_ends v.a (by simpa using ha) (by simpa using hd)]
  simp [conclude, h.agrees, goesOn]

/-- SYSWR of `svc.coll` binds the collective of its record (R351). -/
theorem svcColl_binds {x : SyswrI} {s : State} {v : Vals} (hx : x.reg.toNat = 0x110) (hs : onService s)
    (h : Poised s (syswrForm x) v) (hr : NoRed (within s (syswrForm x))) (hf : Unfenced (within s (syswrForm x))) :
    exec (.syswr x) s = .next (goesOn (boundState (within s (syswrForm x)) v.a) x.stall) := by
  have hx' : x.reg = 0x110 := BitVec.eq_of_toNat_eq hx
  have hne : x.reg ≠ 0x100 := by rw [hx']; decide
  rw [syswr_concludes h (by rw [hx]; exact sysValue_coll s) (.inr hs) (by rw [hx]; rfl) (.inl (by omega)), syswrAct,
    if_neg hne, if_pos hx', collAct]
  change Host.Outcome.next (conclude s .none _ (afterReds (within s (syswrForm x)) true _)) = _
  rw [afterReds_ordered hr hf]
  simp only [conclude, h.agrees, Bool.false_eq_true, if_false]
  rfl

end Sys2Proof.Rules

open Sys2Proof Sys2Proof.Machine Sys2Proof.Rules

/-- Settles O23: each register by its value or its effect, `svc.cmd` by the state in which its command has started, and
`svc.coll` by the record that root logic reads. -/
theorem systemRegistersReadAndWriteTheirState : Obligations.SystemRegistersReadAndWriteTheirState := by
  obtain ⟨hload, hrate, hclear⟩ := networkRegisters_read
  obtain ⟨hcmd, harg, hres0, hres1, hovf, hcoll, hport⟩ := serviceRegisters_read
  refine ⟨slotRegisters_read, slotRegisters_written,
    ⟨hload, hrate, hclear, cldser_read, fun x s v hx hd h => cldser_written hx hd h⟩,
    ⟨hcmd, harg, hres0, hres1, hovf, hcoll, hport, fun x s v i hi hx hs h => svcArg_written hi hx hs h⟩, ?_, ?_⟩
  · intro x s v hx hs h u code
    refine ⟨fun ha hb hr hf => ?_, svcCmd_waits hx hs h, fun ha hd => ?_⟩
    · obtain ⟨-, -, -, -, m, hme⟩ := parkHere_spec (startCommand v.a s) .result
      have hc := (startCommand_commanding v.a s).park .result
      exact ⟨_, svcCmd_starts hx hs h ha hb hr hf, by rw [hme], hc.asked, by rw [hc.core.code, toNat_and_byte], hc.core.busy,
        hc.core.args, hc.starts, hc.refuses⟩
    · exact ⟨_, svcCmd_ends hx hs h ha hd, endCommand_myCore _⟩
  · intro x s v m hx hs h u f n keeps hr hf hc hm hp
    refine ⟨_, svcColl_binds hx hs h hr hf, fun hi => boundState_ignored hc hm hi, fun hn hk hi => ⟨?_, ?_⟩⟩
    · exact List.mem_append_right _ (List.mem_singleton_self _)
    · exact boundState_binds hc hm hp hn hk hi
end

section
/-!
SUPPORT. Words as fields at places (R36, R37): the number that holds values at places apart from each other has those values as
its fields.
-/

namespace Sys2Proof

/-- Two places of a word, each a lowest bit and a width, share no bit. -/
def apart (a b : Nat × Nat) : Bool := Nat.ble (a.1 + a.2) b.1 || Nat.ble (b.1 + b.2) a.1

/-- Places of the lowest n bits of a word, pairwise apart. -/
def spaced (n : Nat) : List (Nat × Nat) → Bool
  | [] => true
  | a :: as => Nat.ble (a.1 + a.2) n && as.all (apart a) && spaced n as

/-- The number that holds values at places. -/
def packed : List (Nat × Nat) → List Nat → Nat
  | a :: as, v :: vs => v * 2 ^ a.1 + packed as vs
  | _, _ => 0

/-- The values fit their places, one for one. -/
def Fits : List (Nat × Nat) → List Nat → Prop
  | a :: as, v :: vs => v < 2 ^ a.2 ∧ Fits as vs
  | as, vs => as = [] ∧ vs = []

/-- A word whose places hold values. -/
def Laid (w : Nat) : List (Nat × Nat) → List Nat → Prop
  | a :: as, v :: vs => fld w a.1 a.2 = v ∧ Laid w as vs
  | _, _ => True

@[simp] theorem packed_cons (a : Nat × Nat) (as : List (Nat × Nat)) (v : Nat) (vs : List Nat) :
    packed (a :: as) (v :: vs) = v * 2 ^ a.1 + packed as vs := rfl

@[simp] theorem packed_nil (vs : List Nat) : packed [] vs = 0 := rfl

@[simp] theorem fits_cons (a : Nat × Nat) (as : List (Nat × Nat)) (v : Nat) (vs : List Nat) :
    Fits (a :: as) (v :: vs) ↔ v < 2 ^ a.2 ∧ Fits as vs := Iff.rfl

@[simp] theorem fits_nil : Fits [] [] := ⟨rfl, rfl⟩

@[simp] theorem laid_cons (w : Nat) (a : Nat × Nat) (as : List (Nat × Nat)) (v : Nat) (vs : List Nat) :
    Laid w (a :: as) (v :: vs) ↔ fld w a.1 a.2 = v ∧ Laid w as vs := Iff.rfl

/-- A value put where a number is zero is the field there. -/
theorem fld_add_self {v r p n : Nat} (hv : v < 2 ^ n) (hr : fld r p n = 0) : fld (v * 2 ^ p + r) p n = v := by
  unfold fld at *
  rw [Nat.mul_comm, Nat.mul_add_div (Nat.two_pow_pos p), Nat.add_mod, hr, Nat.add_zero, Nat.mod_mod, Nat.mod_eq_of_lt hv]

/-- A value put where a number is zero leaves every field apart from it. -/
theorem fld_add_apart {v r p n q m : Nat} (hv : v < 2 ^ n) (hr : fld r p n = 0) (ha : apart (p, n) (q, m) = true) :
    fld (v * 2 ^ p + r) q m = fld r q m := by
  unfold fld at *
  simp only [apart, Bool.or_eq_true, Nat.ble_eq] at ha
  rcases ha with ha | ha
  · obtain ⟨k, rfl⟩ := Nat.exists_eq_add_of_le ha
    have hlow : r / 2 ^ p = 2 ^ n * (r / 2 ^ p / 2 ^ n) := (Nat.mul_div_cancel' (Nat.dvd_of_mod_eq_zero hr)).symm
    have hsum : (v * 2 ^ p + r) / 2 ^ p = v + 2 ^ n * (r / 2 ^ p / 2 ^ n) := by
      rw [Nat.mul_comm, Nat.mul_add_div (Nat.two_pow_pos p), ← hlow]
    rw [Nat.pow_add, ← Nat.div_div_eq_div_mul, Nat.pow_add, ← Nat.div_div_eq_div_mul, ← Nat.div_div_eq_div_mul, hsum,
      ← Nat.div_div_eq_div_mul, Nat.add_mul_div_left _ _ (Nat.two_pow_pos n), Nat.div_eq_of_lt hv, Nat.zero_add]
  · obtain ⟨k, rfl⟩ := Nat.exists_eq_add_of_le ha
    have hsplit : v * 2 ^ (q + m + k) = 2 ^ q * (2 ^ m * (v * 2 ^ k)) := by rw [Nat.pow_add, Nat.pow_add]; ring
    rw [hsplit, Nat.mul_add_div (Nat.two_pow_pos q), Nat.mul_add_mod]

theorem apart_comm (a b : Nat × Nat) : apart a b = apart b a := Bool.or_comm _ _

theorem spaced_cons {n : Nat} {a : Nat × Nat} {as : List (Nat × Nat)} (h : spaced n (a :: as) = true) :
    a.1 + a.2 ≤ n ∧ (∀ b ∈ as, apart a b = true) ∧ spaced n as = true := by
  simp only [spaced, Bool.and_eq_true, Nat.ble_eq, List.all_eq_true] at h
  exact ⟨h.1.1, h.1.2, h.2⟩

/-- A field apart from every place is zero. -/
theorem fld_packed_apart {n : Nat} {as : List (Nat × Nat)} {vs : List Nat} (hp : spaced n as = true) (hf : Fits as vs)
    {b : Nat × Nat} (hb : ∀ a ∈ as, apart a b = true) : fld (packed as vs) b.1 b.2 = 0 := by
  induction as generalizing vs b with
  | nil => simp [packed, fld]
  | cons a as ih =>
    cases vs with
    | nil => simp [packed, fld]
    | cons v vs =>
      obtain ⟨-, ha, hp⟩ := spaced_cons hp
      obtain ⟨hv, hf⟩ := hf
      rw [packed, fld_add_apart hv (ih hp hf (fun c hc => by rw [apart_comm]; exact ha c hc)) (hb a (by simp)),
        ih hp hf (fun c hc => hb c (by simp [hc]))]

/-- A word with the same fields at places holds the same values there. -/
theorem Laid.congr {w x : Nat} {as : List (Nat × Nat)} {vs : List Nat} (h : ∀ a ∈ as, fld x a.1 a.2 = fld w a.1 a.2)
    (hw : Laid w as vs) : Laid x as vs := by
  induction as generalizing vs with
  | nil => trivial
  | cons a as ih =>
    cases vs with
    | nil => trivial
    | cons v vs => exact ⟨(h a (by simp)).trans hw.1, ih (fun c hc => h c (by simp [hc])) hw.2⟩

/-- A packed number has its values as its fields. -/
theorem laid_packed {n : Nat} {as : List (Nat × Nat)} {vs : List Nat} (hp : spaced n as = true) (hf : Fits as vs) :
    Laid (packed as vs) as vs := by
  induction as generalizing vs with
  | nil => trivial
  | cons a as ih =>
    cases vs with
    | nil => trivial
    | cons v vs =>
      obtain ⟨-, ha, hp⟩ := spaced_cons hp
      obtain ⟨hv, hf⟩ := hf
      have hr : fld (packed as vs) a.1 a.2 = 0 :=
        fld_packed_apart hp hf (fun c hc => by rw [apart_comm]; exact ha c hc)
      exact ⟨fld_add_self hv hr, (ih hp hf).congr (fun b hb => fld_add_apart hv hr (ha b hb))⟩

/-- A packed number has no bit above its places. -/
theorem packed_lt {n : Nat} {as : List (Nat × Nat)} {vs : List Nat} (hp : spaced n as = true) (hf : Fits as vs) :
    packed as vs < 2 ^ n := by
  have below {as : List (Nat × Nat)} (h : spaced n as = true) (m : Nat) : ∀ a ∈ as, apart a (n, m) = true := by
    induction as with
    | nil => simp
    | cons a as ih =>
      obtain ⟨hn, -, h⟩ := spaced_cons h
      exact List.forall_mem_cons.2 ⟨by simp [apart, hn], ih h⟩
  have h0 : fld (packed as vs) n (packed as vs) = 0 := fld_packed_apart (b := (n, packed as vs)) hp hf (below hp _)
  have hlt : packed as vs / 2 ^ n < 2 ^ packed as vs := Nat.lt_of_le_of_lt (Nat.div_le_self _ _) Nat.lt_two_pow_self
  rw [fld, Nat.mod_eq_of_lt hlt] at h0
  exact (Nat.div_eq_zero_iff_lt (Nat.two_pow_pos n)).1 h0

end Sys2Proof
end

section
/-!
SUPPORT. The codes of operands and modifiers (R41, R43–R45): each is read back from its code and fits its field.
-/

namespace Sys2Proof

@[simp] theorem Dir.ofCode_code (d : Dir) : Dir.ofCode d.code = d := by cases d <;> rfl

theorem Dir.code_lt (d : Dir) : d.code < 4 := by cases d <;> decide

@[simp] theorem Src.dec_enc (a : Src) : Src.dec a.enc = .ok a := by
  cases a with
  | q i => revert i; decide
  | n i => revert i; decide
  | s i => revert i; decide
  | m i => revert i; decide
  | link d => cases d <;> rfl
  | z | imm | hb => rfl

@[simp] theorem Src.enc_lt (a : Src) {k : Nat} (h : 63 ≤ k) : a.enc < k := by
  cases a with
  | link d => have := d.code_lt; simp only [enc]; omega
  | _ => simp only [enc]; omega

@[simp] theorem Dst.dec_enc (d : Dst) : Dst.dec d.enc = .ok d := by
  cases d with
  | n i => revert i; decide
  | s i => revert i; decide
  | m i => revert i; decide
  | link d => cases d <;> rfl
  | push | z => rfl

@[simp] theorem Dst.enc_lt (d : Dst) {k : Nat} (h : 61 ≤ k) : d.enc < k := by
  cases d with
  | link d => have := d.code_lt; simp only [enc]; omega
  | _ => simp only [enc]; omega

@[simp] theorem VReg.dec_enc (v : VReg) : VReg.dec (VReg.enc v) = .ok v := by revert v; decide

@[simp] theorem VReg.enc_lt (v : VReg) {k : Nat} (h : 16 ≤ k) : VReg.enc v < k := Nat.lt_of_lt_of_le v.isLt h

@[simp] theorem NReg.dec_enc (i : Fin 24) : NReg.dec (NReg.enc i) = .ok i := by revert i; decide

@[simp] theorem NReg.enc_lt (i : Fin 24) {k : Nat} (h : 40 ≤ k) : NReg.enc i < k := by
  unfold NReg.enc; omega

@[simp] theorem Ord.dec_enc (o : Ord) : Ord.dec o.enc = .ok o := by
  cases o with
  | rlx => rfl
  | acq s | rel s | ar s => cases s <;> rfl

theorem Scope.code_lt (s : Scope) : s.code < 5 := by cases s <;> decide

@[simp] theorem Ord.enc_lt (o : Ord) {k : Nat} (h : 16 ≤ k) : o.enc < k := by
  cases o with
  | rlx => exact Nat.lt_of_lt_of_le (by decide) h
  | acq s | rel s | ar s => have := s.code_lt; simp only [enc]; omega

@[simp] theorem WTy.dec_enc (t : WTy) : WTy.dec t.enc = .ok t := by cases t <;> rfl

@[simp] theorem IntTy.dec_enc (t : IntTy) : IntTy.dec t.enc = .ok t := by cases t <;> rfl

@[simp] theorem FpTy.dec_enc (t : FpTy) : FpTy.dec t.enc = .ok t := by cases t <;> rfl

@[simp] theorem NumTy.dec_enc (t : NumTy) : NumTy.dec t.enc = .ok t := by cases t <;> rfl

@[simp] theorem RankTy.dec_enc (t : RankTy) : RankTy.dec t.enc = .ok t := by cases t <;> rfl

@[simp] theorem Rm.dec_enc (t : Rm) : Rm.dec t.enc = .ok t := by cases t <;> rfl

@[simp] theorem Space.dec_enc (t : Space) : Space.dec t.enc = .ok t := by cases t <;> rfl

@[simp] theorem CbSpace.dec_enc (t : CbSpace) : CbSpace.dec t.enc = .ok t := by cases t <;> rfl

@[simp] theorem Policy.dec_enc (t : Policy) : Policy.dec t.enc = .ok t := by cases t <;> rfl

@[simp] theorem Kind.dec_enc (t : Kind) : Kind.dec t.enc = .ok t := by cases t <;> rfl

@[simp] theorem CldKind.dec_enc (t : CldKind) : CldKind.dec t.enc = .ok t := by cases t <;> rfl

@[simp] theorem RedOp.dec_enc (t : RedOp) : RedOp.dec t.enc = .ok t := by cases t <;> rfl

@[simp] theorem AmoOp.dec_enc (t : AmoOp) : AmoOp.dec t.enc = .ok t := by cases t <;> rfl

@[simp] theorem RdxTy.dec_enc (t : RdxTy) : RdxTy.dec t.enc = .ok t := by cases t <;> rfl

@[simp] theorem Layout.dec_enc (t : Layout) : Layout.dec t.enc = .ok t := by cases t <;> rfl

@[simp] theorem IterCount.dec_enc (t : IterCount) : IterCount.dec t.enc = .ok t := by cases t <;> rfl

@[simp] theorem WTy.enc_lt (t : WTy) {k : Nat} (h : 2 ≤ k) : t.enc < k :=
  Nat.lt_of_lt_of_le (by cases t <;> decide) h

@[simp] theorem IntTy.enc_lt (t : IntTy) {k : Nat} (h : 4 ≤ k) : t.enc < k :=
  Nat.lt_of_lt_of_le (by cases t <;> decide) h

@[simp] theorem FpTy.enc_lt (t : FpTy) {k : Nat} (h : 4 ≤ k) : t.enc < k :=
  Nat.lt_of_lt_of_le (by cases t <;> decide) h

@[simp] theorem NumTy.enc_lt (t : NumTy) {k : Nat} (h : 3 ≤ k) : t.enc < k :=
  Nat.lt_of_lt_of_le (by cases t <;> decide) h

@[simp] theorem RankTy.enc_lt (t : RankTy) {k : Nat} (h : 3 ≤ k) : t.enc < k :=
  Nat.lt_of_lt_of_le (by cases t <;> decide) h

@[simp] theorem Rm.enc_lt (t : Rm) {k : Nat} (h : 4 ≤ k) : t.enc < k :=
  Nat.lt_of_lt_of_le (by cases t <;> decide) h

@[simp] theorem Space.enc_lt (t : Space) {k : Nat} (h : 4 ≤ k) : t.enc < k :=
  Nat.lt_of_lt_of_le (by cases t <;> decide) h

@[simp] theorem CbSpace.enc_lt (t : CbSpace) {k : Nat} (h : 3 ≤ k) : t.enc < k :=
  Nat.lt_of_lt_of_le (by cases t <;> decide) h

@[simp] theorem Policy.enc_lt (t : Policy) {k : Nat} (h : 4 ≤ k) : t.enc < k :=
  Nat.lt_of_lt_of_le (by cases t <;> decide) h

@[simp] theorem Kind.enc_lt (t : Kind) {k : Nat} (h : 13 ≤ k) : t.enc < k :=
  Nat.lt_of_lt_of_le (by cases t <;> decide) h

@[simp] theorem CldKind.enc_lt (t : CldKind) {k : Nat} (h : 6 ≤ k) : t.enc < k :=
  Nat.lt_of_lt_of_le (by cases t <;> decide) h

@[simp] theorem RedOp.enc_lt (t : RedOp) {k : Nat} (h : 3 ≤ k) : t.enc < k :=
  Nat.lt_of_lt_of_le (by cases t <;> decide) h

@[simp] theorem AmoOp.enc_lt (t : AmoOp) {k : Nat} (h : 15 ≤ k) : t.enc < k :=
  Nat.lt_of_lt_of_le (by cases t <;> decide) h

@[simp] theorem RdxTy.enc_lt (t : RdxTy) {k : Nat} (h : 4 ≤ k) : t.enc < k :=
  Nat.lt_of_lt_of_le (by cases t <;> decide) h

@[simp] theorem Layout.enc_lt (t : Layout) {k : Nat} (h : 2 ≤ k) : t.enc < k :=
  Nat.lt_of_lt_of_le (by cases t <;> decide) h

@[simp] theorem IterCount.enc_lt (t : IterCount) {k : Nat} (h : 4 ≤ k) : t.enc < k :=
  Nat.lt_of_lt_of_le (by cases t <;> decide) h

/-! ### Numbers and flags -/

@[simp] theorem toNat_lt_of_le {n : Nat} (b : BitVec n) {k : Nat} (h : 2 ^ n ≤ k) : b.toNat < k := Nat.lt_of_lt_of_le b.isLt h

@[simp] theorem val_lt_of_le {n : Nat} (i : Fin n) {k : Nat} (h : n ≤ k) : i.val < k := Nat.lt_of_lt_of_le i.isLt h

@[simp] theorem flag_le (b : Bool) : b.toNat ≤ 1 := b.toNat_le

@[simp] theorem flag_eq (b : Bool) : (b.toNat == 1) = b := by cases b <;> rfl

/-- A reserved field that holds zero is passed. -/
@[simp] theorem zeroBits_of_fld {w p n : Nat} (h : fld w p n = 0) : zeroBits w p n = .ok () := by rw [zeroBits, if_pos h]

@[simp] theorem ok_bind {α β : Type} (a : α) (f : α → Except Reject β) : (Except.ok a >>= f) = f a := rfl

@[simp] theorem pure_ok {α : Type} (a : α) : (pure a : Except Reject α) = .ok a := rfl

end Sys2Proof
end

section
/-!
SUPPORT. Each shape of word is read back from its bits below the opcode (R36–R47): its places, in the order of its encoder with
the reserved ones last, take up all 64 bits.
-/

namespace Sys2Proof

/-- A word of an opcode, with an operation selector in its field, that a shape's decoder reads as given operands. -/
structure Reads {α : Type} (dec : Nat → Except Reject α) (x : α) (op fn p n w : Nat) : Prop where
  lt : w < 2 ^ 64
  opcode : fld w 56 8 = op
  selector : fld w p n = fn
  operands : dec w = .ok x

/-- A word made of values at places apart from each other is read by a decoder that reads these values at these places. -/
theorem reads_of_laid {α : Type} {dec : Nat → Except Reject α} {x : α} {op fn p n w : Nat} (as : List (Nat × Nat))
    (vs : List Nat) (hp : spaced 64 ((56, 8) :: (p, n) :: as) = true) (hw : w = packed ((56, 8) :: (p, n) :: as) (op :: fn :: vs))
    (hf : Fits ((56, 8) :: (p, n) :: as) (op :: fn :: vs)) (hdec : ∀ w, Laid w ((p, n) :: as) (fn :: vs) → dec w = .ok x) :
    Reads dec x op fn p n w := by
  obtain ⟨hop, hl⟩ := laid_packed hp hf
  subst hw
  exact ⟨packed_lt hp hf, hop, hl.1, hdec _ hl⟩

theorem IntR.reads (x : IntR) {op fn : Nat} (ho : op < 256) (hs : fn < 32) :
    Reads IntR.dec x op fn 24 5 (wordOf op fn 24 x.enc) :=
  reads_of_laid [(53, 3), (47, 6), (41, 6), (35, 6), (21, 3), (29, 6), (0, 21)] [x.stall.toNat, x.d.enc, x.a.enc, x.b.enc,
    x.w.enc, 0, 0]
    rfl (by simp [wordOf, IntR.enc, Nat.add_assoc]) (by simp [*])
    (fun w h => by simp only [laid_cons] at h; simp [IntR.dec, h])

theorem IntI.reads (x : IntI) {op fn : Nat} (ho : op < 256) (hs : fn < 32) :
    Reads IntI.dec x op fn 36 5 (wordOf op fn 36 x.enc) :=
  reads_of_laid [(53, 3), (47, 6), (41, 6), (34, 2), (33, 1), (0, 32), (32, 1)] [x.stall.toNat, x.d.enc, x.a.enc, x.w.enc,
    x.zx.toNat, x.imm.toNat, 0]
    rfl (by simp [wordOf, IntI.enc, Nat.add_assoc]) (by simp [*])
    (fun w h => by simp only [laid_cons] at h; simp [IntI.dec, h])

theorem BitU.reads (x : BitU) {op fn : Nat} (ho : op < 256) (hs : fn < 32) :
    Reads BitU.dec x op fn 24 5 (wordOf op fn 24 x.enc) :=
  reads_of_laid [(53, 3), (47, 6), (41, 6), (21, 3), (29, 12), (0, 21)] [x.stall.toNat, x.d.enc, x.a.enc, x.w.enc, 0, 0]
    rfl (by simp [wordOf, BitU.enc, Nat.add_assoc]) (by simp [*])
    (fun w h => by simp only [laid_cons] at h; simp [BitU.dec, h])

theorem BitT.reads (x : BitT) {op fn : Nat} (ho : op < 256) (hs : fn < 32) :
    Reads BitT.dec x op fn 24 5 (wordOf op fn 24 x.enc) :=
  reads_of_laid [(53, 3), (47, 6), (41, 6), (35, 6), (29, 6), (21, 3), (0, 21)] [x.stall.toNat, x.d.enc, x.a.enc, x.b.enc,
    x.c.enc, x.w.enc, 0]
    rfl (by simp [wordOf, BitT.enc, Nat.add_assoc]) (by simp [*])
    (fun w h => by simp only [laid_cons] at h; simp [BitT.dec, h])

theorem CmpR.reads (x : CmpR) {op fn : Nat} (ho : op < 256) (hs : fn < 32) :
    Reads CmpR.dec x op fn 24 5 (wordOf op fn 24 x.enc) :=
  reads_of_laid [(53, 3), (47, 6), (41, 6), (35, 6), (21, 3), (29, 6), (0, 21)] [x.stall.toNat, x.d.enc, x.a.enc, x.b.enc,
    x.w.enc, 0, 0]
    rfl (by simp [wordOf, CmpR.enc, Nat.add_assoc]) (by simp [*])
    (fun w h => by simp only [laid_cons] at h; simp [CmpR.dec, h])

theorem SelR.reads (x : SelR) {op fn : Nat} (ho : op < 256) (hs : fn < 32) :
    Reads SelR.dec x op fn 24 5 (wordOf op fn 24 x.enc) :=
  reads_of_laid [(53, 3), (47, 6), (41, 6), (35, 6), (29, 6), (0, 24)] [x.stall.toNat, x.d.enc, x.a.enc, x.b.enc, x.c.enc,
    0]
    rfl (by simp [wordOf, SelR.enc, Nat.add_assoc]) (by simp [*])
    (fun w h => by simp only [laid_cons] at h; simp [SelR.dec, h])

theorem LiI.reads (x : LiI) {op fn : Nat} (ho : op < 256) (hs : fn < 32) :
    Reads LiI.dec x op fn 36 5 (wordOf op fn 36 x.enc) :=
  reads_of_laid [(53, 3), (47, 6), (33, 1), (0, 32), (41, 6), (34, 2), (32, 1)] [x.stall.toNat, x.d.enc, x.zx.toNat,
    x.imm.toNat, 0, 0, 0]
    rfl (by simp [wordOf, LiI.enc, Nat.add_assoc]) (by simp [*])
    (fun w h => by simp only [laid_cons] at h; simp [LiI.dec, h])

theorem LihI.reads (x : LihI) {op fn : Nat} (ho : op < 256) (hs : fn < 32) :
    Reads LihI.dec x op fn 36 5 (wordOf op fn 36 x.enc) :=
  reads_of_laid [(53, 3), (47, 6), (41, 6), (0, 32), (32, 4)] [x.stall.toNat, x.d.enc, x.a.enc, x.imm.toNat, 0]
    rfl (by simp [wordOf, LihI.enc, Nat.add_assoc]) (by simp [*])
    (fun w h => by simp only [laid_cons] at h; simp [LihI.dec, h])

theorem LeaM.reads (x : LeaM) {op fn : Nat} (ho : op < 256) (hs : fn < 32) :
    Reads LeaM.dec x op fn 30 5 (wordOf op fn 30 x.enc) :=
  reads_of_laid [(53, 3), (47, 6), (41, 6), (35, 6), (24, 3), (0, 24), (27, 3)] [x.stall.toNat, x.d.enc, x.a.enc, x.b.enc,
    x.sh.toNat, x.off.toNat, 0]
    rfl (by simp [wordOf, LeaM.enc, Nat.add_assoc]) (by simp [*])
    (fun w h => by simp only [laid_cons] at h; simp [LeaM.dec, h])

theorem SkipC.reads (x : SkipC) {op fn : Nat} (ho : op < 256) (hs : fn < 32) :
    Reads SkipC.dec x op fn 36 5 (wordOf op fn 36 x.enc) :=
  reads_of_laid [(53, 3), (41, 6), (0, 32), (47, 6), (32, 4)] [x.stall.toNat, x.a.enc, x.cnt.toNat, 0, 0]
    rfl (by simp [wordOf, SkipC.enc, Nat.add_assoc]) (by simp [*])
    (fun w h => by simp only [laid_cons] at h; simp [SkipC.dec, h])

theorem JmpC.reads (x : JmpC) {op fn : Nat} (ho : op < 256) (hs : fn < 32) :
    Reads JmpC.dec x op fn 36 5 (wordOf op fn 36 x.enc) :=
  reads_of_laid [(53, 3), (0, 32), (41, 12), (32, 4)] [x.stall.toNat, x.disp.toNat, 0, 0]
    rfl (by simp [wordOf, JmpC.enc, Nat.add_assoc]) (by simp [*])
    (fun w h => by simp only [laid_cons] at h; simp [JmpC.dec, h])

theorem JmpA.reads (x : JmpA) {op fn : Nat} (ho : op < 256) (hs : fn < 32) :
    Reads JmpA.dec x op fn 36 5 (wordOf op fn 36 x.enc) :=
  reads_of_laid [(53, 3), (41, 6), (0, 32), (47, 6), (32, 4)] [x.stall.toNat, x.a.enc, x.disp.toNat, 0, 0]
    rfl (by simp [wordOf, JmpA.enc, Nat.add_assoc]) (by simp [*])
    (fun w h => by simp only [laid_cons] at h; simp [JmpA.dec, h])

theorem UnC.reads (x : UnC) {op fn : Nat} (ho : op < 256) (hs : fn < 32) :
    Reads UnC.dec x op fn 36 5 (wordOf op fn 36 x.enc) :=
  reads_of_laid [(53, 3), (41, 6), (47, 6), (0, 36)] [x.stall.toNat, x.a.enc, 0, 0]
    rfl (by simp [wordOf, UnC.enc, Nat.add_assoc]) (by simp [*])
    (fun w h => by simp only [laid_cons] at h; simp [UnC.dec, h])

theorem BareC.reads (x : BareC) {op fn : Nat} (ho : op < 256) (hs : fn < 32) :
    Reads BareC.dec x op fn 36 5 (wordOf op fn 36 x.enc) :=
  reads_of_laid [(53, 3), (41, 12), (0, 36)] [x.stall.toNat, 0, 0]
    rfl (by simp [wordOf, BareC.enc, Nat.add_assoc]) (by simp [*])
    (fun w h => by simp only [laid_cons] at h; simp [BareC.dec, h])

theorem IterC.reads (x : IterC) {op fn : Nat} (ho : op < 256) (hs : fn < 32) :
    Reads IterC.dec x op fn 36 5 (wordOf op fn 36 x.enc) :=
  reads_of_laid [(53, 3), (47, 6), (32, 2), (0, 32), (41, 6), (34, 2)] [x.stall.toNat, NReg.enc x.d, x.cnt.enc,
    x.disp.toNat, 0, 0]
    rfl (by simp [wordOf, IterC.enc, Nat.add_assoc]) (by simp [*])
    (fun w h => by simp only [laid_cons] at h; simp [IterC.dec, h])

theorem BareI.reads (x : BareI) {op fn : Nat} (ho : op < 256) (hs : fn < 32) :
    Reads BareI.dec x op fn 36 5 (wordOf op fn 36 x.enc) :=
  reads_of_laid [(53, 3), (41, 12), (0, 36)] [x.stall.toNat, 0, 0]
    rfl (by simp [wordOf, BareI.enc, Nat.add_assoc]) (by simp [*])
    (fun w h => by simp only [laid_cons] at h; simp [BareI.dec, h])

theorem CountI.reads (x : CountI) {op fn : Nat} (ho : op < 256) (hs : fn < 32) :
    Reads CountI.dec x op fn 36 5 (wordOf op fn 36 x.enc) :=
  reads_of_laid [(53, 3), (0, 32), (41, 12), (32, 4)] [x.stall.toNat, x.n.toNat, 0, 0]
    rfl (by simp [wordOf, CountI.enc, Nat.add_assoc]) (by simp [*])
    (fun w h => by simp only [laid_cons] at h; simp [CountI.dec, h])

theorem Fp2.reads (x : Fp2) {op fn : Nat} (ho : op < 256) (hs : fn < 32) :
    Reads Fp2.dec x op fn 24 5 (wordOf op fn 24 x.enc) :=
  reads_of_laid [(53, 3), (47, 6), (41, 6), (35, 6), (21, 3), (19, 2), (18, 1), (29, 6), (0, 18)] [x.stall.toNat, x.d.enc,
    x.a.enc, x.b.enc, x.ty.enc, x.rm.enc, x.ftz.toNat, 0, 0]
    rfl (by simp [wordOf, Fp2.enc, Nat.add_assoc]) (by simp [*])
    (fun w h => by simp only [laid_cons] at h; simp [Fp2.dec, h])

theorem Fp1.reads (x : Fp1) {op fn : Nat} (ho : op < 256) (hs : fn < 32) :
    Reads Fp1.dec x op fn 24 5 (wordOf op fn 24 x.enc) :=
  reads_of_laid [(53, 3), (47, 6), (41, 6), (21, 3), (19, 2), (18, 1), (29, 12), (0, 18)] [x.stall.toNat, x.d.enc,
    x.a.enc, x.ty.enc, x.rm.enc, x.ftz.toNat, 0, 0]
    rfl (by simp [wordOf, Fp1.enc, Nat.add_assoc]) (by simp [*])
    (fun w h => by simp only [laid_cons] at h; simp [Fp1.dec, h])

theorem Fp2n.reads (x : Fp2n) {op fn : Nat} (ho : op < 256) (hs : fn < 32) :
    Reads Fp2n.dec x op fn 24 5 (wordOf op fn 24 x.enc) :=
  reads_of_laid [(53, 3), (47, 6), (41, 6), (35, 6), (21, 3), (18, 1), (29, 6), (19, 2), (0, 18)] [x.stall.toNat, x.d.enc,
    x.a.enc, x.b.enc, x.ty.enc, x.ftz.toNat, 0, 0, 0]
    rfl (by simp [wordOf, Fp2n.enc, Nat.add_assoc]) (by simp [*])
    (fun w h => by simp only [laid_cons] at h; simp [Fp2n.dec, h])

theorem Fp3.reads (x : Fp3) {op fn : Nat} (ho : op < 256) (hs : fn < 32) :
    Reads Fp3.dec x op fn 24 5 (wordOf op fn 24 x.enc) :=
  reads_of_laid [(53, 3), (47, 6), (41, 6), (35, 6), (29, 6), (21, 3), (19, 2), (18, 1), (0, 18)] [x.stall.toNat, x.d.enc,
    x.a.enc, x.b.enc, x.c.enc, x.ty.enc, x.rm.enc, x.ftz.toNat, 0]
    rfl (by simp [wordOf, Fp3.enc, Nat.add_assoc]) (by simp [*])
    (fun w h => by simp only [laid_cons] at h; simp [Fp3.dec, h])

theorem Fp1n.reads (x : Fp1n) {op fn : Nat} (ho : op < 256) (hs : fn < 32) :
    Reads Fp1n.dec x op fn 24 5 (wordOf op fn 24 x.enc) :=
  reads_of_laid [(53, 3), (47, 6), (41, 6), (21, 3), (18, 1), (29, 12), (19, 2), (0, 18)] [x.stall.toNat, x.d.enc,
    x.a.enc, x.ty.enc, x.ftz.toNat, 0, 0, 0]
    rfl (by simp [wordOf, Fp1n.enc, Nat.add_assoc]) (by simp [*])
    (fun w h => by simp only [laid_cons] at h; simp [Fp1n.dec, h])

theorem ConvR.reads (x : ConvR) {op fn : Nat} (ho : op < 256) (hs : fn < 32) :
    Reads ConvR.dec x op fn 24 5 (wordOf op fn 24 x.enc) :=
  reads_of_laid [(53, 3), (47, 6), (41, 6), (20, 4), (16, 4), (14, 2), (13, 1), (10, 3), (29, 12), (0, 10)]
    [x.stall.toNat, x.d.enc, x.a.enc, x.dk.enc, x.sk.enc, x.rm.enc, x.ftz.toNat, x.fmt.val, 0, 0]
    rfl (by simp [wordOf, ConvR.enc, Nat.add_assoc]) (by simp [*])
    (fun w h => by simp only [laid_cons] at h; simp [ConvR.dec, h])

theorem SysrdI.reads (x : SysrdI) {op fn : Nat} (ho : op < 256) (hs : fn < 32) :
    Reads SysrdI.dec x op fn 36 5 (wordOf op fn 36 x.enc) :=
  reads_of_laid [(53, 3), (47, 6), (0, 32), (41, 6), (32, 4)] [x.stall.toNat, x.d.enc, x.reg.toNat, 0, 0]
    rfl (by simp [wordOf, SysrdI.enc, Nat.add_assoc]) (by simp [*])
    (fun w h => by simp only [laid_cons] at h; simp [SysrdI.dec, h])

theorem SyswrI.reads (x : SyswrI) {op fn : Nat} (ho : op < 256) (hs : fn < 32) :
    Reads SyswrI.dec x op fn 36 5 (wordOf op fn 36 x.enc) :=
  reads_of_laid [(53, 3), (41, 6), (0, 32), (47, 6), (32, 4)] [x.stall.toNat, x.a.enc, x.reg.toNat, 0, 0]
    rfl (by simp [wordOf, SyswrI.enc, Nat.add_assoc]) (by simp [*])
    (fun w h => by simp only [laid_cons] at h; simp [SyswrI.dec, h])

theorem TrapI.reads (x : TrapI) {op fn : Nat} (ho : op < 256) (hs : fn < 32) :
    Reads TrapI.dec x op fn 36 5 (wordOf op fn 36 x.enc) :=
  reads_of_laid [(53, 3), (0, 32), (41, 12), (32, 4)] [x.stall.toNat, x.imm.toNat, 0, 0]
    rfl (by simp [wordOf, TrapI.enc, Nat.add_assoc]) (by simp [*])
    (fun w h => by simp only [laid_cons] at h; simp [TrapI.dec, h])

theorem TraceI.reads (x : TraceI) {op fn : Nat} (ho : op < 256) (hs : fn < 32) :
    Reads TraceI.dec x op fn 36 5 (wordOf op fn 36 x.enc) :=
  reads_of_laid [(53, 3), (41, 6), (0, 32), (47, 6), (32, 4)] [x.stall.toNat, x.a.enc, x.tag.toNat, 0, 0]
    rfl (by simp [wordOf, TraceI.enc, Nat.add_assoc]) (by simp [*])
    (fun w h => by simp only [laid_cons] at h; simp [TraceI.dec, h])

theorem V2.reads (x : V2) {op fn : Nat} (ho : op < 256) (hs : fn < 32) :
    Reads V2.dec x op fn 24 5 (wordOf op fn 24 x.enc) :=
  reads_of_laid [(53, 3), (47, 6), (41, 6), (35, 6), (21, 3), (19, 2), (18, 1), (12, 6), (29, 6), (0, 12)] [x.stall.toNat,
    VReg.enc x.d, VReg.enc x.a, VReg.enc x.b, x.ty.enc, x.rm.enc, x.ftz.toNat, x.k.enc, 0, 0]
    rfl (by simp [wordOf, V2.enc, Nat.add_assoc]) (by simp [*])
    (fun w h => by simp only [laid_cons] at h; simp [V2.dec, h])

theorem V1.reads (x : V1) {op fn : Nat} (ho : op < 256) (hs : fn < 32) :
    Reads V1.dec x op fn 24 5 (wordOf op fn 24 x.enc) :=
  reads_of_laid [(53, 3), (47, 6), (41, 6), (21, 3), (19, 2), (18, 1), (12, 6), (29, 12), (0, 12)] [x.stall.toNat,
    VReg.enc x.d, VReg.enc x.a, x.ty.enc, x.rm.enc, x.ftz.toNat, x.k.enc, 0, 0]
    rfl (by simp [wordOf, V1.enc, Nat.add_assoc]) (by simp [*])
    (fun w h => by simp only [laid_cons] at h; simp [V1.dec, h])

theorem V2n.reads (x : V2n) {op fn : Nat} (ho : op < 256) (hs : fn < 32) :
    Reads V2n.dec x op fn 24 5 (wordOf op fn 24 x.enc) :=
  reads_of_laid [(53, 3), (47, 6), (41, 6), (35, 6), (21, 3), (18, 1), (12, 6), (29, 6), (19, 2), (0, 12)] [x.stall.toNat,
    VReg.enc x.d, VReg.enc x.a, VReg.enc x.b, x.ty.enc, x.ftz.toNat, x.k.enc, 0, 0, 0]
    rfl (by simp [wordOf, V2n.enc, Nat.add_assoc]) (by simp [*])
    (fun w h => by simp only [laid_cons] at h; simp [V2n.dec, h])

theorem V3.reads (x : V3) {op fn : Nat} (ho : op < 256) (hs : fn < 32) :
    Reads V3.dec x op fn 24 5 (wordOf op fn 24 x.enc) :=
  reads_of_laid [(53, 3), (47, 6), (41, 6), (35, 6), (29, 6), (21, 3), (19, 2), (18, 1), (12, 6), (0, 12)] [x.stall.toNat,
    VReg.enc x.d, VReg.enc x.a, VReg.enc x.b, VReg.enc x.c, x.ty.enc, x.rm.enc, x.ftz.toNat, x.k.enc, 0]
    rfl (by simp [wordOf, V3.enc, Nat.add_assoc]) (by simp [*])
    (fun w h => by simp only [laid_cons] at h; simp [V3.dec, h])

theorem VI2.reads (x : VI2) {op fn : Nat} (ho : op < 256) (hs : fn < 32) :
    Reads VI2.dec x op fn 24 5 (wordOf op fn 24 x.enc) :=
  reads_of_laid [(53, 3), (47, 6), (41, 6), (35, 6), (21, 3), (12, 6), (29, 6), (18, 3), (0, 12)] [x.stall.toNat, VReg.enc
    x.d, VReg.enc x.a, VReg.enc x.b, x.w.enc, x.k.enc, 0, 0, 0]
    rfl (by simp [wordOf, VI2.enc, Nat.add_assoc]) (by simp [*])
    (fun w h => by simp only [laid_cons] at h; simp [VI2.dec, h])

theorem VCmp.reads (x : VCmp) {op fn : Nat} (ho : op < 256) (hs : fn < 32) :
    Reads VCmp.dec x op fn 24 5 (wordOf op fn 24 x.enc) :=
  reads_of_laid [(53, 3), (47, 6), (41, 6), (35, 6), (21, 3), (18, 1), (12, 6), (29, 6), (19, 2), (0, 12)] [x.stall.toNat,
    x.d.enc, VReg.enc x.a, VReg.enc x.b, x.ty.enc, x.ftz.toNat, x.k.enc, 0, 0, 0]
    rfl (by simp [wordOf, VCmp.enc, Nat.add_assoc]) (by simp [*])
    (fun w h => by simp only [laid_cons] at h; simp [VCmp.dec, h])

theorem VSelR.reads (x : VSelR) {op fn : Nat} (ho : op < 256) (hs : fn < 32) :
    Reads VSelR.dec x op fn 24 5 (wordOf op fn 24 x.enc) :=
  reads_of_laid [(53, 3), (47, 6), (41, 6), (35, 6), (29, 6), (21, 3), (12, 6), (18, 3), (0, 12)] [x.stall.toNat, VReg.enc
    x.d, VReg.enc x.a, VReg.enc x.b, x.c.enc, x.w.enc, x.k.enc, 0, 0]
    rfl (by simp [wordOf, VSelR.enc, Nat.add_assoc]) (by simp [*])
    (fun w h => by simp only [laid_cons] at h; simp [VSelR.dec, h])

theorem VRedR.reads (x : VRedR) (hx : x.wf = true) {op : Nat} (ho : op < 256) :
    Reads VRedR.dec x op x.op.enc 24 5 (wordOf op 0 0 x.enc) := by
  refine reads_of_laid [(53, 3), (47, 6), (41, 6), (21, 3), (19, 2), (18, 1), (12, 6), (29, 12), (0, 12)] [x.stall.toNat, x.d.enc, VReg.enc x.a, x.ty.enc, x.rm.enc, x.ftz.toNat, x.k.enc, 0, 0]
    rfl ?_ (by simp [*]) (fun w h => ?_)
  · simp only [wordOf, VRedR.enc, packed_cons, packed_nil]; ring
  · simp only [laid_cons] at h
    simp only [VRedR.dec, h, zeroBits_of_fld, RedOp.dec_enc, Dst.dec_enc, VReg.dec_enc, NumTy.dec_enc, Rm.dec_enc, Src.dec_enc,
      ok_bind, pure_ok, BitVec.ofNat_toNat, BitVec.setWidth_eq, flag_eq]
    split
    · rfl
    · next hop =>
      have hr : x.rm = .rne := by
        simp only [VRedR.wf, hop, Bool.and_eq_true, Bool.false_or] at hx
        simpa using hx.2
      have hz : fld w 19 2 = 0 := by simp [h, hr, Rm.enc]
      rw [zeroBits_of_fld hz]; rfl

theorem VScanR.reads (x : VScanR) {op fn : Nat} (ho : op < 256) (hs : fn < 32) :
    Reads VScanR.dec x op fn 24 5 (wordOf op fn 24 x.enc) :=
  reads_of_laid [(53, 3), (47, 6), (41, 6), (21, 3), (19, 2), (18, 1), (12, 6), (29, 12), (0, 12)] [x.stall.toNat,
    VReg.enc x.d, VReg.enc x.a, x.ty.enc, x.rm.enc, x.ftz.toNat, x.k.enc, 0, 0]
    rfl (by simp [wordOf, VScanR.enc, Nat.add_assoc]) (by simp [*])
    (fun w h => by simp only [laid_cons] at h; simp [VScanR.dec, h])

theorem VRmaxR.reads (x : VRmaxR) {op fn : Nat} (ho : op < 256) (hs : fn < 32) :
    Reads VRmaxR.dec x op fn 24 5 (wordOf op fn 24 x.enc) :=
  reads_of_laid [(53, 3), (47, 6), (41, 6), (21, 3), (18, 1), (12, 6), (29, 12), (19, 2), (0, 12)] [x.stall.toNat,
    x.d.enc, VReg.enc x.a, x.ty.enc, x.ftz.toNat, x.k.enc, 0, 0, 0]
    rfl (by simp [wordOf, VRmaxR.enc, Nat.add_assoc]) (by simp [*])
    (fun w h => by simp only [laid_cons] at h; simp [VRmaxR.dec, h])

theorem VSplatR.reads (x : VSplatR) {op fn : Nat} (ho : op < 256) (hs : fn < 32) :
    Reads VSplatR.dec x op fn 24 5 (wordOf op fn 24 x.enc) :=
  reads_of_laid [(53, 3), (47, 6), (41, 6), (21, 3), (12, 6), (29, 12), (18, 3), (0, 12)] [x.stall.toNat, VReg.enc x.d,
    x.a.enc, x.w.enc, x.k.enc, 0, 0, 0]
    rfl (by simp [wordOf, VSplatR.enc, Nat.add_assoc]) (by simp [*])
    (fun w h => by simp only [laid_cons] at h; simp [VSplatR.dec, h])

theorem VLaneR.reads (x : VLaneR) {op fn : Nat} (ho : op < 256) (hs : fn < 32) :
    Reads VLaneR.dec x op fn 24 5 (wordOf op fn 24 x.enc) :=
  reads_of_laid [(53, 3), (47, 6), (41, 6), (35, 6), (21, 3), (12, 6), (29, 6), (18, 3), (0, 12)] [x.stall.toNat, x.d.enc,
    VReg.enc x.a, x.b.enc, x.w.enc, x.k.enc, 0, 0, 0]
    rfl (by simp [wordOf, VLaneR.enc, Nat.add_assoc]) (by simp [*])
    (fun w h => by simp only [laid_cons] at h; simp [VLaneR.dec, h])

theorem VInsR.reads (x : VInsR) {op fn : Nat} (ho : op < 256) (hs : fn < 32) :
    Reads VInsR.dec x op fn 24 5 (wordOf op fn 24 x.enc) :=
  reads_of_laid [(53, 3), (47, 6), (41, 6), (35, 6), (29, 6), (21, 3), (12, 6), (18, 3), (0, 12)] [x.stall.toNat, VReg.enc
    x.d, VReg.enc x.a, x.b.enc, x.c.enc, x.w.enc, x.k.enc, 0, 0]
    rfl (by simp [wordOf, VInsR.enc, Nat.add_assoc]) (by simp [*])
    (fun w h => by simp only [laid_cons] at h; simp [VInsR.dec, h])

theorem VPermR.reads (x : VPermR) {op fn : Nat} (ho : op < 256) (hs : fn < 32) :
    Reads VPermR.dec x op fn 24 5 (wordOf op fn 24 x.enc) :=
  reads_of_laid [(53, 3), (47, 6), (41, 6), (35, 6), (21, 3), (12, 6), (29, 6), (18, 3), (0, 12)] [x.stall.toNat, VReg.enc
    x.d, VReg.enc x.a, VReg.enc x.b, x.w.enc, x.k.enc, 0, 0, 0]
    rfl (by simp [wordOf, VPermR.enc, Nat.add_assoc]) (by simp [*])
    (fun w h => by simp only [laid_cons] at h; simp [VPermR.dec, h])

theorem VRankR.reads (x : VRankR) {op fn : Nat} (ho : op < 256) (hs : fn < 32) :
    Reads VRankR.dec x op fn 24 5 (wordOf op fn 24 x.enc) :=
  reads_of_laid [(53, 3), (47, 6), (41, 6), (35, 6), (21, 3), (18, 1), (12, 6), (29, 6), (19, 2), (0, 12)] [x.stall.toNat,
    VReg.enc x.d, VReg.enc x.a, VReg.enc x.b, x.ty.enc, x.ftz.toNat, x.k.enc, 0, 0, 0]
    rfl (by simp [wordOf, VRankR.enc, Nat.add_assoc]) (by simp [*])
    (fun w h => by simp only [laid_cons] at h; simp [VRankR.dec, h])

theorem VSelkR.reads (x : VSelkR) {op fn : Nat} (ho : op < 256) (hs : fn < 32) :
    Reads VSelkR.dec x op fn 24 5 (wordOf op fn 24 x.enc) :=
  reads_of_laid [(53, 3), (47, 6), (41, 6), (35, 6), (21, 3), (18, 1), (12, 6), (29, 6), (19, 2), (0, 12)] [x.stall.toNat,
    x.d.enc, VReg.enc x.a, x.b.enc, x.ty.enc, x.ftz.toNat, x.k.enc, 0, 0, 0]
    rfl (by simp [wordOf, VSelkR.enc, Nat.add_assoc]) (by simp [*])
    (fun w h => by simp only [laid_cons] at h; simp [VSelkR.dec, h])

theorem ConvV.reads (x : ConvV) {op fn : Nat} (ho : op < 256) (hs : fn < 32) :
    Reads ConvV.dec x op fn 24 5 (wordOf op fn 24 x.enc) :=
  reads_of_laid [(53, 3), (47, 6), (41, 6), (35, 6), (20, 4), (16, 4), (14, 2), (13, 1), (10, 3), (29, 6), (0, 10)]
    [x.stall.toNat, VReg.enc x.d, VReg.enc x.a, x.k.enc, x.dk.enc, x.sk.enc, x.rm.enc, x.ftz.toNat, x.fmt.val, 0, 0]
    rfl (by simp [wordOf, ConvV.enc, Nat.add_assoc]) (by simp [*])
    (fun w h => by simp only [laid_cons] at h; simp [ConvV.dec, h])

theorem VldlR.reads (x : VldlR) {op fn : Nat} (ho : op < 256) (hs : fn < 32) :
    Reads VldlR.dec x op fn 24 5 (wordOf op fn 24 x.enc) :=
  reads_of_laid [(53, 3), (47, 6), (41, 6), (10, 6), (29, 12), (16, 8), (0, 10)] [x.stall.toNat, VReg.enc x.d, x.a.enc,
    x.k.enc, 0, 0, 0]
    rfl (by simp [wordOf, VldlR.enc, Nat.add_assoc]) (by simp [*])
    (fun w h => by simp only [laid_cons] at h; simp [VldlR.dec, h])

theorem VstlR.reads (x : VstlR) {op fn : Nat} (ho : op < 256) (hs : fn < 32) :
    Reads VstlR.dec x op fn 24 5 (wordOf op fn 24 x.enc) :=
  reads_of_laid [(53, 3), (41, 6), (35, 6), (10, 6), (47, 6), (29, 6), (16, 8), (0, 10)] [x.stall.toNat, x.a.enc, VReg.enc
    x.b, x.k.enc, 0, 0, 0, 0]
    rfl (by simp [wordOf, VstlR.enc, Nat.add_assoc]) (by simp [*])
    (fun w h => by simp only [laid_cons] at h; simp [VstlR.dec, h])

theorem OdefR.reads (x : OdefR) {op fn : Nat} (ho : op < 256) (hs : fn < 32) :
    Reads OdefR.dec x op fn 24 5 (wordOf op fn 24 x.enc) :=
  reads_of_laid [(53, 3), (41, 6), (35, 6), (29, 6), (21, 3), (18, 3), (16, 2), (47, 6), (0, 16)] [x.stall.toNat, x.a.enc,
    x.b.enc, x.c.enc, x.os.val, x.fmt.val, x.layout.enc, 0, 0]
    rfl (by simp [wordOf, OdefR.enc, Nat.add_assoc]) (by simp [*])
    (fun w h => by simp only [laid_cons] at h; simp [OdefR.dec, h])

theorem SpfI.reads (x : SpfI) {op fn : Nat} (ho : op < 256) (hs : fn < 32) :
    Reads SpfI.dec x op fn 36 5 (wordOf op fn 36 x.enc) :=
  reads_of_laid [(53, 3), (0, 8), (41, 12), (8, 28)] [x.stall.toNat, x.mask.toNat, 0, 0]
    rfl (by simp [wordOf, SpfI.enc, Nat.add_assoc]) (by simp [*])
    (fun w h => by simp only [laid_cons] at h; simp [SpfI.dec, h])

theorem TileR.reads (x : TileR) {op fn : Nat} (ho : op < 256) (hs : fn < 32) :
    Reads TileR.dec x op fn 24 5 (wordOf op fn 24 x.enc) :=
  reads_of_laid [(53, 3), (20, 4), (29, 24), (0, 20)] [x.stall.toNat, x.tile.val, 0, 0]
    rfl (by simp [wordOf, TileR.enc, Nat.add_assoc]) (by simp [*])
    (fun w h => by simp only [laid_cons] at h; simp [TileR.dec, h])

theorem CrdR.reads (x : CrdR) {op fn : Nat} (ho : op < 256) (hs : fn < 32) :
    Reads CrdR.dec x op fn 24 5 (wordOf op fn 24 x.enc) :=
  reads_of_laid [(53, 3), (47, 6), (41, 6), (20, 4), (29, 12), (0, 20)] [x.stall.toNat, VReg.enc x.d, x.a.enc, x.tile.val,
    0, 0]
    rfl (by simp [wordOf, CrdR.enc, Nat.add_assoc]) (by simp [*])
    (fun w h => by simp only [laid_cons] at h; simp [CrdR.dec, h])

theorem CwrR.reads (x : CwrR) {op fn : Nat} (ho : op < 256) (hs : fn < 32) :
    Reads CwrR.dec x op fn 24 5 (wordOf op fn 24 x.enc) :=
  reads_of_laid [(53, 3), (41, 6), (35, 6), (20, 4), (47, 6), (29, 6), (0, 20)] [x.stall.toNat, x.a.enc, VReg.enc x.b,
    x.tile.val, 0, 0, 0]
    rfl (by simp [wordOf, CwrR.enc, Nat.add_assoc]) (by simp [*])
    (fun w h => by simp only [laid_cons] at h; simp [CwrR.dec, h])

theorem CldR.reads (x : CldR) {op fn : Nat} (ho : op < 256) (hs : fn < 32) :
    Reads CldR.dec x op fn 24 5 (wordOf op fn 24 x.enc) :=
  reads_of_laid [(53, 3), (41, 6), (35, 6), (29, 6), (20, 4), (17, 3), (13, 4), (10, 3), (47, 6), (0, 10)] [x.stall.toNat,
    x.a.enc, x.b.enc, x.c.enc, x.tile.val, x.os.val, x.kind.enc, x.fmt.val, 0, 0]
    rfl (by simp [wordOf, CldR.enc, Nat.add_assoc]) (by simp [*])
    (fun w h => by simp only [laid_cons] at h; simp [CldR.dec, h])

theorem CqryR.reads (x : CqryR) {op fn : Nat} (ho : op < 256) (hs : fn < 32) :
    Reads CqryR.dec x op fn 24 5 (wordOf op fn 24 x.enc) :=
  reads_of_laid [(53, 3), (47, 6), (20, 4), (29, 18), (0, 20)] [x.stall.toNat, x.d.enc, x.tile.val, 0, 0]
    rfl (by simp [wordOf, CqryR.enc, Nat.add_assoc]) (by simp [*])
    (fun w h => by simp only [laid_cons] at h; simp [CqryR.dec, h])

theorem LdM.reads (x : LdM) {op : Nat} (ho : op < 256) : Reads LdM.dec x op 0 0 0 (wordOf op 0 0 x.enc) :=
  reads_of_laid [(53, 3), (47, 6), (41, 6), (0, 24), (33, 2), (32, 1), (30, 2), (28, 2), (24, 4), (35, 6)] [x.stall.toNat,
    x.d.enc, x.a.enc, x.off.toNat, x.w.enc, x.sx.toNat, x.sp.enc, x.pol.enc, x.ord.enc, 0]
    rfl (by simp [wordOf, LdM.enc, Nat.add_assoc]) (by simp [*])
    (fun w h => by simp only [laid_cons] at h; simp [LdM.dec, h])

theorem StM.reads (x : StM) {op : Nat} (ho : op < 256) : Reads StM.dec x op 0 0 0 (wordOf op 0 0 x.enc) :=
  reads_of_laid [(53, 3), (41, 6), (35, 6), (0, 24), (33, 2), (30, 2), (28, 2), (24, 4), (47, 6), (32, 1)] [x.stall.toNat,
    x.a.enc, x.b.enc, x.off.toNat, x.w.enc, x.sp.enc, x.pol.enc, x.ord.enc, 0, 0]
    rfl (by simp [wordOf, StM.enc, Nat.add_assoc]) (by simp [*])
    (fun w h => by simp only [laid_cons] at h; simp [StM.dec, h])

theorem VldR.reads (x : VldR) {op fn : Nat} (ho : op < 256) (hs : fn < 32) :
    Reads VldR.dec x op fn 24 5 (wordOf op fn 24 x.enc) :=
  reads_of_laid [(53, 3), (47, 6), (41, 6), (22, 2), (20, 2), (16, 4), (10, 6), (29, 12), (0, 10)] [x.stall.toNat,
    VReg.enc x.d, x.a.enc, x.sp.enc, x.pol.enc, x.ord.enc, x.k.enc, 0, 0]
    rfl (by simp [wordOf, VldR.enc, Nat.add_assoc]) (by simp [*])
    (fun w h => by simp only [laid_cons] at h; simp [VldR.dec, h])

theorem VstR.reads (x : VstR) {op fn : Nat} (ho : op < 256) (hs : fn < 32) :
    Reads VstR.dec x op fn 24 5 (wordOf op fn 24 x.enc) :=
  reads_of_laid [(53, 3), (41, 6), (35, 6), (22, 2), (20, 2), (16, 4), (10, 6), (47, 6), (29, 6), (0, 10)] [x.stall.toNat,
    x.a.enc, VReg.enc x.b, x.sp.enc, x.pol.enc, x.ord.enc, x.k.enc, 0, 0, 0]
    rfl (by simp [wordOf, VstR.enc, Nat.add_assoc]) (by simp [*])
    (fun w h => by simp only [laid_cons] at h; simp [VstR.dec, h])

theorem VldsR.reads (x : VldsR) {op fn : Nat} (ho : op < 256) (hs : fn < 32) :
    Reads VldsR.dec x op fn 24 5 (wordOf op fn 24 x.enc) :=
  reads_of_laid [(53, 3), (47, 6), (41, 6), (29, 6), (22, 2), (20, 2), (16, 4), (10, 6), (35, 6), (0, 10)] [x.stall.toNat,
    VReg.enc x.d, x.a.enc, x.c.enc, x.sp.enc, x.pol.enc, x.ord.enc, x.k.enc, 0, 0]
    rfl (by simp [wordOf, VldsR.enc, Nat.add_assoc]) (by simp [*])
    (fun w h => by simp only [laid_cons] at h; simp [VldsR.dec, h])

theorem VstsR.reads (x : VstsR) {op fn : Nat} (ho : op < 256) (hs : fn < 32) :
    Reads VstsR.dec x op fn 24 5 (wordOf op fn 24 x.enc) :=
  reads_of_laid [(53, 3), (41, 6), (35, 6), (29, 6), (22, 2), (20, 2), (16, 4), (10, 6), (47, 6), (0, 10)] [x.stall.toNat,
    x.a.enc, VReg.enc x.b, x.c.enc, x.sp.enc, x.pol.enc, x.ord.enc, x.k.enc, 0, 0]
    rfl (by simp [wordOf, VstsR.enc, Nat.add_assoc]) (by simp [*])
    (fun w h => by simp only [laid_cons] at h; simp [VstsR.dec, h])

theorem VgthR.reads (x : VgthR) {op fn : Nat} (ho : op < 256) (hs : fn < 32) :
    Reads VgthR.dec x op fn 24 5 (wordOf op fn 24 x.enc) :=
  reads_of_laid [(53, 3), (47, 6), (41, 6), (35, 6), (22, 2), (20, 2), (16, 4), (10, 6), (29, 6), (0, 10)] [x.stall.toNat,
    VReg.enc x.d, x.a.enc, VReg.enc x.b, x.sp.enc, x.pol.enc, x.ord.enc, x.k.enc, 0, 0]
    rfl (by simp [wordOf, VgthR.enc, Nat.add_assoc]) (by simp [*])
    (fun w h => by simp only [laid_cons] at h; simp [VgthR.dec, h])

theorem VsctR.reads (x : VsctR) {op fn : Nat} (ho : op < 256) (hs : fn < 32) :
    Reads VsctR.dec x op fn 24 5 (wordOf op fn 24 x.enc) :=
  reads_of_laid [(53, 3), (41, 6), (35, 6), (29, 6), (22, 2), (20, 2), (16, 4), (10, 6), (47, 6), (0, 10)] [x.stall.toNat,
    x.a.enc, VReg.enc x.b, VReg.enc x.c, x.sp.enc, x.pol.enc, x.ord.enc, x.k.enc, 0, 0]
    rfl (by simp [wordOf, VsctR.enc, Nat.add_assoc]) (by simp [*])
    (fun w h => by simp only [laid_cons] at h; simp [VsctR.dec, h])

theorem VldbR.reads (x : VldbR) {op : Nat} (ho : op < 256) : Reads VldbR.dec x op 0 27 2 (wordOf op 0 0 x.enc) :=
  reads_of_laid [(53, 3), (24, 3), (47, 6), (41, 6), (29, 6), (22, 2), (20, 2), (16, 4), (10, 6), (35, 6), (0, 10)]
    [x.stall.toNat, x.fmt.val, VReg.enc x.d, x.a.enc, x.c.enc, x.sp.enc, x.pol.enc, x.ord.enc, x.k.enc, 0, 0]
    rfl (by simp [wordOf, VldbR.enc, Nat.add_assoc]) (by simp [*])
    (fun w h => by simp only [laid_cons] at h; simp [VldbR.dec, h])

theorem VstbR.reads (x : VstbR) {op fn : Nat} (ho : op < 256) (hs : fn < 4) :
    Reads VstbR.dec x op fn 27 2 (wordOf op fn 27 x.enc) :=
  reads_of_laid [(53, 3), (24, 3), (41, 6), (35, 6), (29, 6), (22, 2), (20, 2), (16, 4), (10, 6), (47, 6), (0, 10)]
    [x.stall.toNat, x.fmt.val, x.a.enc, VReg.enc x.b, x.c.enc, x.sp.enc, x.pol.enc, x.ord.enc, x.k.enc, 0, 0]
    rfl (by simp [wordOf, VstbR.enc, Nat.add_assoc]) (by simp [*])
    (fun w h => by simp only [laid_cons] at h; simp [VstbR.dec, h])

theorem PrefM.reads (x : PrefM) {op fn : Nat} (ho : op < 256) (hs : fn < 32) :
    Reads PrefM.dec x op fn 30 5 (wordOf op fn 30 x.enc) :=
  reads_of_laid [(53, 3), (41, 6), (0, 24), (28, 2), (26, 2), (47, 6), (35, 6), (24, 2)] [x.stall.toNat, x.a.enc,
    x.off.toNat, x.pol.enc, x.sp.enc, 0, 0, 0]
    rfl (by simp [wordOf, PrefM.enc, Nat.add_assoc]) (by simp [*])
    (fun w h => by simp only [laid_cons] at h; simp [PrefM.dec, h])

theorem SbindR.reads (x : SbindR) {op fn : Nat} (ho : op < 256) (hs : fn < 32) :
    Reads SbindR.dec x op fn 24 5 (wordOf op fn 24 x.enc) :=
  reads_of_laid [(53, 3), (41, 6), (35, 6), (29, 6), (22, 2), (21, 1), (19, 2), (16, 3), (47, 6), (0, 16)] [x.stall.toNat,
    x.a.enc, x.b.enc, x.c.enc, x.es.toNat, x.wr.toNat, x.sp.enc, x.s.val, 0, 0]
    rfl (by simp [wordOf, SbindR.enc, Nat.add_assoc]) (by simp [*])
    (fun w h => by simp only [laid_cons] at h; simp [SbindR.dec, h])

theorem SunbR.reads (x : SunbR) {op fn : Nat} (ho : op < 256) (hs : fn < 32) :
    Reads SunbR.dec x op fn 24 5 (wordOf op fn 24 x.enc) :=
  reads_of_laid [(53, 3), (16, 3), (29, 24), (19, 5), (0, 16)] [x.stall.toNat, x.s.val, 0, 0, 0]
    rfl (by simp [wordOf, SunbR.enc, Nat.add_assoc]) (by simp [*])
    (fun w h => by simp only [laid_cons] at h; simp [SunbR.dec, h])

theorem DR.reads (x : DR) {op fn : Nat} (ho : op < 256) (hs : fn < 32) :
    Reads DR.dec x op fn 24 5 (wordOf op fn 24 x.enc) :=
  reads_of_laid [(53, 3), (47, 6), (29, 18), (0, 24)] [x.stall.toNat, x.d.enc, 0, 0]
    rfl (by simp [wordOf, DR.enc, Nat.add_assoc]) (by simp [*])
    (fun w h => by simp only [laid_cons] at h; simp [DR.dec, h])

theorem CbdefR.reads (x : CbdefR) {op fn : Nat} (ho : op < 256) (hs : fn < 32) :
    Reads CbdefR.dec x op fn 24 5 (wordOf op fn 24 x.enc) :=
  reads_of_laid [(53, 3), (41, 6), (35, 6), (29, 6), (21, 3), (19, 2), (47, 6), (0, 19)] [x.stall.toNat, x.a.enc, x.b.enc,
    x.c.enc, x.cb.val, x.sp.enc, 0, 0]
    rfl (by simp [wordOf, CbdefR.enc, Nat.add_assoc]) (by simp [*])
    (fun w h => by simp only [laid_cons] at h; simp [CbdefR.dec, h])

theorem CbdR.reads (x : CbdR) {op fn : Nat} (ho : op < 256) (hs : fn < 32) :
    Reads CbdR.dec x op fn 24 5 (wordOf op fn 24 x.enc) :=
  reads_of_laid [(53, 3), (47, 6), (21, 3), (29, 18), (0, 21)] [x.stall.toNat, x.d.enc, x.cb.val, 0, 0]
    rfl (by simp [wordOf, CbdR.enc, Nat.add_assoc]) (by simp [*])
    (fun w h => by simp only [laid_cons] at h; simp [CbdR.dec, h])

theorem CbR.reads (x : CbR) {op fn : Nat} (ho : op < 256) (hs : fn < 32) :
    Reads CbR.dec x op fn 24 5 (wordOf op fn 24 x.enc) :=
  reads_of_laid [(53, 3), (21, 3), (29, 24), (0, 21)] [x.stall.toNat, x.cb.val, 0, 0]
    rfl (by simp [wordOf, CbR.enc, Nat.add_assoc]) (by simp [*])
    (fun w h => by simp only [laid_cons] at h; simp [CbR.dec, h])

theorem LdcM.reads (x : LdcM) {op fn : Nat} (ho : op < 256) (hs : fn < 32) :
    Reads LdcM.dec x op fn 30 5 (wordOf op fn 30 x.enc) :=
  reads_of_laid [(53, 3), (47, 6), (41, 6), (0, 24), (35, 6), (24, 6)] [x.stall.toNat, x.d.enc, x.a.enc, x.off.toNat, 0,
    0]
    rfl (by simp [wordOf, LdcM.enc, Nat.add_assoc]) (by simp [*])
    (fun w h => by simp only [laid_cons] at h; simp [LdcM.dec, h])

theorem StfM.reads (x : StfM) {op fn : Nat} (ho : op < 256) (hs : fn < 32) :
    Reads StfM.dec x op fn 30 5 (wordOf op fn 30 x.enc) :=
  reads_of_laid [(53, 3), (41, 6), (35, 6), (0, 24), (47, 6), (24, 6)] [x.stall.toNat, x.a.enc, x.b.enc, x.off.toNat, 0,
    0]
    rfl (by simp [wordOf, StfM.enc, Nat.add_assoc]) (by simp [*])
    (fun w h => by simp only [laid_cons] at h; simp [StfM.dec, h])

theorem CpyR.reads (x : CpyR) {op fn : Nat} (ho : op < 256) (hs : fn < 32) :
    Reads CpyR.dec x op fn 24 5 (wordOf op fn 24 x.enc) :=
  reads_of_laid [(53, 3), (41, 6), (35, 6), (22, 2), (47, 6), (29, 6), (0, 22)] [x.stall.toNat, x.a.enc, x.b.enc,
    x.eq.val, 0, 0, 0]
    rfl (by simp [wordOf, CpyR.enc, Nat.add_assoc]) (by simp [*])
    (fun w h => by simp only [laid_cons] at h; simp [CpyR.dec, h])

theorem CpylR.reads (x : CpylR) {op fn : Nat} (ho : op < 256) (hs : fn < 32) :
    Reads CpylR.dec x op fn 24 5 (wordOf op fn 24 x.enc) :=
  reads_of_laid [(53, 3), (41, 6), (35, 6), (29, 6), (22, 2), (47, 6), (0, 22)] [x.stall.toNat, x.a.enc, x.b.enc, x.c.enc,
    x.eq.val, 0, 0]
    rfl (by simp [wordOf, CpylR.enc, Nat.add_assoc]) (by simp [*])
    (fun w h => by simp only [laid_cons] at h; simp [CpylR.dec, h])

theorem EqryR.reads (x : EqryR) {op fn : Nat} (ho : op < 256) (hs : fn < 32) :
    Reads EqryR.dec x op fn 24 5 (wordOf op fn 24 x.enc) :=
  reads_of_laid [(53, 3), (47, 6), (22, 2), (29, 18), (0, 22)] [x.stall.toNat, x.d.enc, x.eq.val, 0, 0]
    rfl (by simp [wordOf, EqryR.enc, Nat.add_assoc]) (by simp [*])
    (fun w h => by simp only [laid_cons] at h; simp [EqryR.dec, h])

theorem SendR.reads (x : SendR) {op fn : Nat} (ho : op < 256) (hs : fn < 32) :
    Reads SendR.dec x op fn 24 5 (wordOf op fn 24 x.enc) :=
  reads_of_laid [(53, 3), (41, 6), (35, 6), (21, 3), (47, 6), (29, 6), (0, 21)] [x.stall.toNat, x.a.enc, x.b.enc,
    x.mreg.val, 0, 0, 0]
    rfl (by simp [wordOf, SendR.enc, Nat.add_assoc]) (by simp [*])
    (fun w h => by simp only [laid_cons] at h; simp [SendR.dec, h])

theorem MpeekR.reads (x : MpeekR) {op fn : Nat} (ho : op < 256) (hs : fn < 32) :
    Reads MpeekR.dec x op fn 24 5 (wordOf op fn 24 x.enc) :=
  reads_of_laid [(53, 3), (47, 6), (21, 3), (29, 18), (0, 21)] [x.stall.toNat, x.d.enc, x.mreg.val, 0, 0]
    rfl (by simp [wordOf, MpeekR.enc, Nat.add_assoc]) (by simp [*])
    (fun w h => by simp only [laid_cons] at h; simp [MpeekR.dec, h])

theorem MclrR.reads (x : MclrR) {op fn : Nat} (ho : op < 256) (hs : fn < 32) :
    Reads MclrR.dec x op fn 24 5 (wordOf op fn 24 x.enc) :=
  reads_of_laid [(53, 3), (21, 3), (29, 24), (0, 21)] [x.stall.toNat, x.mreg.val, 0, 0]
    rfl (by simp [wordOf, MclrR.enc, Nat.add_assoc]) (by simp [*])
    (fun w h => by simp only [laid_cons] at h; simp [MclrR.dec, h])

theorem DlR.reads (x : DlR) {op fn : Nat} (ho : op < 256) (hs : fn < 32) :
    Reads DlR.dec x op fn 24 5 (wordOf op fn 24 x.enc) :=
  reads_of_laid [(53, 3), (47, 6), (29, 18), (0, 24)] [x.stall.toNat, x.d.enc, 0, 0]
    rfl (by simp [wordOf, DlR.enc, Nat.add_assoc]) (by simp [*])
    (fun w h => by simp only [laid_cons] at h; simp [DlR.dec, h])

theorem MigC.reads (x : MigC) {op fn : Nat} (ho : op < 256) (hs : fn < 32) :
    Reads MigC.dec x op fn 36 5 (wordOf op fn 36 x.enc) :=
  reads_of_laid [(53, 3), (41, 6), (0, 32), (47, 6), (32, 4)] [x.stall.toNat, x.a.enc, x.disp.toNat, 0, 0]
    rfl (by simp [wordOf, MigC.enc, Nat.add_assoc]) (by simp [*])
    (fun w h => by simp only [laid_cons] at h; simp [MigC.dec, h])

theorem HomeC.reads (x : HomeC) {op fn : Nat} (ho : op < 256) (hs : fn < 32) :
    Reads HomeC.dec x op fn 36 5 (wordOf op fn 36 x.enc) :=
  reads_of_laid [(53, 3), (47, 6), (41, 6), (0, 36)] [x.stall.toNat, x.d.enc, x.a.enc, 0]
    rfl (by simp [wordOf, HomeC.enc, Nat.add_assoc]) (by simp [*])
    (fun w h => by simp only [laid_cons] at h; simp [HomeC.dec, h])

theorem RngM.reads (x : RngM) {op fn : Nat} (ho : op < 256) (hs : fn < 32) :
    Reads RngM.dec x op fn 30 5 (wordOf op fn 30 x.enc) :=
  reads_of_laid [(53, 3), (41, 6), (35, 6), (0, 24), (47, 6), (24, 6)] [x.stall.toNat, x.a.enc, x.b.enc, x.off.toNat, 0,
    0]
    rfl (by simp [wordOf, RngM.enc, Nat.add_assoc]) (by simp [*])
    (fun w h => by simp only [laid_cons] at h; simp [RngM.dec, h])

theorem AmoR.reads (x : AmoR) {op : Nat} (ho : op < 256) : Reads AmoR.dec x op 0 0 0 (wordOf op 0 0 x.enc) :=
  reads_of_laid [(53, 3), (24, 5), (47, 6), (41, 6), (35, 6), (21, 3), (19, 2), (15, 4), (29, 6), (0, 15)] [x.stall.toNat,
    x.op.enc, x.d.enc, x.a.enc, x.b.enc, x.w.enc, x.sp.enc, x.ord.enc, 0, 0]
    rfl (by simp [wordOf, AmoR.enc, Nat.add_assoc]) (by simp [*])
    (fun w h => by simp only [laid_cons] at h; simp [AmoR.dec, h])

theorem RedR.reads (x : RedR) {op : Nat} (ho : op < 256) : Reads RedR.dec x op 0 0 0 (wordOf op 0 0 x.enc) :=
  reads_of_laid [(53, 3), (24, 5), (41, 6), (35, 6), (21, 3), (19, 2), (15, 4), (47, 6), (29, 6), (0, 15)] [x.stall.toNat,
    x.op.enc, x.a.enc, x.b.enc, x.w.enc, x.sp.enc, x.ord.enc, 0, 0, 0]
    rfl (by simp [wordOf, RedR.enc, Nat.add_assoc]) (by simp [*])
    (fun w h => by simp only [laid_cons] at h; simp [RedR.dec, h])

theorem CasR.reads (x : CasR) {op fn : Nat} (ho : op < 256) (hs : fn < 32) :
    Reads CasR.dec x op fn 24 5 (wordOf op fn 24 x.enc) :=
  reads_of_laid [(53, 3), (47, 6), (41, 6), (35, 6), (29, 6), (21, 3), (19, 2), (15, 4), (0, 15)] [x.stall.toNat, x.d.enc,
    x.a.enc, x.b.enc, x.c.enc, x.w.enc, x.sp.enc, x.ord.enc, 0]
    rfl (by simp [wordOf, CasR.enc, Nat.add_assoc]) (by simp [*])
    (fun w h => by simp only [laid_cons] at h; simp [CasR.dec, h])

theorem DlA.reads (x : DlA) {op fn : Nat} (ho : op < 256) (hs : fn < 32) :
    Reads DlA.dec x op fn 24 5 (wordOf op fn 24 x.enc) :=
  reads_of_laid [(53, 3), (47, 6), (41, 6), (29, 12), (0, 24)] [x.stall.toNat, x.d.enc, x.a.enc, 0, 0]
    rfl (by simp [wordOf, DlA.enc, Nat.add_assoc]) (by simp [*])
    (fun w h => by simp only [laid_cons] at h; simp [DlA.dec, h])

theorem AB.reads (x : AB) {op fn : Nat} (ho : op < 256) (hs : fn < 32) :
    Reads AB.dec x op fn 24 5 (wordOf op fn 24 x.enc) :=
  reads_of_laid [(53, 3), (41, 6), (35, 6), (47, 6), (29, 6), (0, 24)] [x.stall.toNat, x.a.enc, x.b.enc, 0, 0, 0]
    rfl (by simp [wordOf, AB.enc, Nat.add_assoc]) (by simp [*])
    (fun w h => by simp only [laid_cons] at h; simp [AB.dec, h])

theorem UnR.reads (x : UnR) {op fn : Nat} (ho : op < 256) (hs : fn < 32) :
    Reads UnR.dec x op fn 24 5 (wordOf op fn 24 x.enc) :=
  reads_of_laid [(53, 3), (41, 6), (47, 6), (29, 12), (0, 24)] [x.stall.toNat, x.a.enc, 0, 0, 0]
    rfl (by simp [wordOf, UnR.enc, Nat.add_assoc]) (by simp [*])
    (fun w h => by simp only [laid_cons] at h; simp [UnR.dec, h])

theorem FenceI.reads (x : FenceI) {op fn : Nat} (ho : op < 256) (hs : fn < 32) :
    Reads FenceI.dec x op fn 36 5 (wordOf op fn 36 x.enc) :=
  reads_of_laid [(53, 3), (32, 4), (41, 12), (0, 32)] [x.stall.toNat, x.ord.enc, 0, 0]
    rfl (by simp [wordOf, FenceI.enc, Nat.add_assoc]) (by simp [*])
    (fun w h => by simp only [laid_cons] at h; simp [FenceI.dec, h])

theorem QfI.reads (x : QfI) {op fn : Nat} (ho : op < 256) (hs : fn < 32) :
    Reads QfI.dec x op fn 36 5 (wordOf op fn 36 x.enc) :=
  reads_of_laid [(53, 3), (0, 6), (41, 12), (6, 30)] [x.stall.toNat, x.mask.toNat, 0, 0]
    rfl (by simp [wordOf, QfI.enc, Nat.add_assoc]) (by simp [*])
    (fun w h => by simp only [laid_cons] at h; simp [QfI.dec, h])

theorem LrwR.reads (x : LrwR) {op fn : Nat} (ho : op < 256) (hs : fn < 32) :
    Reads LrwR.dec x op fn 24 5 (wordOf op fn 24 x.enc) :=
  reads_of_laid [(53, 3), (47, 6), (41, 6), (21, 3), (15, 4), (29, 12), (19, 2), (0, 15)] [x.stall.toNat, x.d.enc,
    x.a.enc, x.w.enc, x.ord.enc, 0, 0, 0]
    rfl (by simp [wordOf, LrwR.enc, Nat.add_assoc]) (by simp [*])
    (fun w h => by simp only [laid_cons] at h; simp [LrwR.dec, h])

theorem SchR.reads (x : SchR) {op fn : Nat} (ho : op < 256) (hs : fn < 32) :
    Reads SchR.dec x op fn 24 5 (wordOf op fn 24 x.enc) :=
  reads_of_laid [(53, 3), (47, 6), (41, 6), (35, 6), (21, 3), (29, 6), (0, 21)] [x.stall.toNat, x.d.enc, x.a.enc, x.b.enc,
    x.w.enc, 0, 0]
    rfl (by simp [wordOf, SchR.enc, Nat.add_assoc]) (by simp [*])
    (fun w h => by simp only [laid_cons] at h; simp [SchR.dec, h])

theorem RrelR.reads (x : RrelR) {op fn : Nat} (ho : op < 256) (hs : fn < 32) :
    Reads RrelR.dec x op fn 24 5 (wordOf op fn 24 x.enc) :=
  reads_of_laid [(53, 3), (41, 6), (21, 3), (47, 6), (29, 12), (0, 21)] [x.stall.toNat, x.a.enc, x.w.enc, 0, 0, 0]
    rfl (by simp [wordOf, RrelR.enc, Nat.add_assoc]) (by simp [*])
    (fun w h => by simp only [laid_cons] at h; simp [RrelR.dec, h])

theorem RdxR.reads (x : RdxR) {op fn : Nat} (ho : op < 256) (hs : fn < 32) :
    Reads RdxR.dec x op fn 24 5 (wordOf op fn 24 x.enc) :=
  reads_of_laid [(53, 3), (41, 6), (35, 6), (21, 3), (47, 6), (29, 6), (0, 21)] [x.stall.toNat, x.a.enc, x.b.enc,
    x.ty.enc, 0, 0, 0]
    rfl (by simp [wordOf, RdxR.enc, Nat.add_assoc]) (by simp [*])
    (fun w h => by simp only [laid_cons] at h; simp [RdxR.dec, h])

theorem ABC.reads (x : ABC) {op fn : Nat} (ho : op < 256) (hs : fn < 32) :
    Reads ABC.dec x op fn 24 5 (wordOf op fn 24 x.enc) :=
  reads_of_laid [(53, 3), (41, 6), (35, 6), (29, 6), (47, 6), (0, 24)] [x.stall.toNat, x.a.enc, x.b.enc, x.c.enc, 0, 0]
    rfl (by simp [wordOf, ABC.enc, Nat.add_assoc]) (by simp [*])
    (fun w h => by simp only [laid_cons] at h; simp [ABC.dec, h])

theorem HnewR.reads (x : HnewR) {op fn : Nat} (ho : op < 256) (hs : fn < 32) :
    Reads HnewR.dec x op fn 24 5 (wordOf op fn 24 x.enc) :=
  reads_of_laid [(53, 3), (47, 6), (41, 6), (35, 6), (29, 6), (0, 24)] [x.stall.toNat, x.d.enc, x.a.enc, x.b.enc, 0, 0]
    rfl (by simp [wordOf, HnewR.enc, Nat.add_assoc]) (by simp [*])
    (fun w h => by simp only [laid_cons] at h; simp [HnewR.dec, h])

theorem HldM.reads (x : HldM) {op fn : Nat} (ho : op < 256) (hs : fn < 32) :
    Reads HldM.dec x op fn 30 5 (wordOf op fn 30 x.enc) :=
  reads_of_laid [(53, 3), (47, 6), (41, 6), (0, 24), (28, 2), (27, 1), (35, 6), (24, 3)] [x.stall.toNat, x.d.enc, x.a.enc,
    x.off.toNat, x.w.enc, x.sx.toNat, 0, 0]
    rfl (by simp [wordOf, HldM.enc, Nat.add_assoc]) (by simp [*])
    (fun w h => by simp only [laid_cons] at h; simp [HldM.dec, h])

theorem HstM.reads (x : HstM) {op fn : Nat} (ho : op < 256) (hs : fn < 32) :
    Reads HstM.dec x op fn 30 5 (wordOf op fn 30 x.enc) :=
  reads_of_laid [(53, 3), (41, 6), (35, 6), (0, 24), (28, 2), (47, 6), (24, 4)] [x.stall.toNat, x.a.enc, x.b.enc,
    x.off.toNat, x.w.enc, 0, 0]
    rfl (by simp [wordOf, HstM.enc, Nat.add_assoc]) (by simp [*])
    (fun w h => by simp only [laid_cons] at h; simp [HstM.dec, h])

theorem BaddqR.reads (x : BaddqR) {op fn : Nat} (ho : op < 256) (hs : fn < 32) :
    Reads BaddqR.dec x op fn 24 5 (wordOf op fn 24 x.enc) :=
  reads_of_laid [(53, 3), (41, 6), (35, 6), (29, 6), (21, 3), (47, 6), (0, 21)] [x.stall.toNat, x.a.enc, x.b.enc, x.c.enc,
    x.fmt.val, 0, 0]
    rfl (by simp [wordOf, BaddqR.enc, Nat.add_assoc]) (by simp [*])
    (fun w h => by simp only [laid_cons] at h; simp [BaddqR.dec, h])

end Sys2Proof
end

section
/-!
PROOFS. The statement that every encoded word decodes to itself (R36–R47): the encoder's opcode and selector lead the decoder to
the shape that reads the operands back.
-/

namespace Sys2Proof

/-- A word that a shape's decoder reads, where its opcode and selector lead the word decoder to that shape, decodes. -/
theorem decodeWord_of_reads {α : Type} {dec : Nat → Except Reject α} {x : α} {mk : α → Instr} {op fn p n w : Nat}
    (hwf : (mk x).wf = true) (hr : Reads dec x op fn p n w)
    (hraw : ∀ w, fld w 56 8 = op → fld w p n = fn → decodeRaw w = (dec w).map mk) :
    w < 2 ^ 64 ∧ decodeWord w = .ok (mk x) := by
  refine ⟨hr.lt, ?_⟩
  rw [decodeWord, hraw w hr.opcode hr.selector, hr.operands]
  exact if_pos hwf

end Sys2Proof

open Sys2Proof

/-- Settles O26, word by word: each constructor's encoding is read by its shape, to which its opcode and selector lead. -/
theorem encodedWordsDecodeToThemselves : Obligations.EncodedWordsDecodeToThemselves := by
  intro i w h he
  cases i with
  | add x => cases he; exact decodeWord_of_reads h (x.reads (by decide) (by decide)) (fun w h h' => by rw [decodeRaw, h, h']; rfl)
  | addImm x => cases he; exact decodeWord_of_reads h (x.reads (by decide) (by decide)) (fun w h h' => by rw [decodeRaw, h, h']; rfl)
  | sub x => cases he; exact decodeWord_of_reads h (x.reads (by decide) (by decide)) (fun w h h' => by rw [decodeRaw, h, h']; rfl)
  | subImm x => cases he; exact decodeWord_of_reads h (x.reads (by decide) (by decide)) (fun w h h' => by rw [decodeRaw, h, h']; rfl)
  | mul x => cases he; exact decodeWord_of_reads h (x.reads (by decide) (by decide)) (fun w h h' => by rw [decodeRaw, h, h']; rfl)
  | mulImm x => cases he; exact decodeWord_of_reads h (x.reads (by decide) (by decide)) (fun w h h' => by rw [decodeRaw, h, h']; rfl)
  | mulh x => cases he; exact decodeWord_of_reads h (x.reads (by decide) (by decide)) (fun w h h' => by rw [decodeRaw, h, h']; rfl)
  | mulhImm x => cases he; exact decodeWord_of_reads h (x.reads (by decide) (by decide)) (fun w h h' => by rw [decodeRaw, h, h']; rfl)
  | mulhu x => cases he; exact decodeWord_of_reads h (x.reads (by decide) (by decide)) (fun w h h' => by rw [decodeRaw, h, h']; rfl)
  | mulhuImm x => cases he; exact decodeWord_of_reads h (x.reads (by decide) (by decide)) (fun w h h' => by rw [decodeRaw, h, h']; rfl)
  | div x => cases he; exact decodeWord_of_reads h (x.reads (by decide) (by decide)) (fun w h h' => by rw [decodeRaw, h, h']; rfl)
  | divImm x => cases he; exact decodeWord_of_reads h (x.reads (by decide) (by decide)) (fun w h h' => by rw [decodeRaw, h, h']; rfl)
  | divu x => cases he; exact decodeWord_of_reads h (x.reads (by decide) (by decide)) (fun w h h' => by rw [decodeRaw, h, h']; rfl)
  | divuImm x => cases he; exact decodeWord_of_reads h (x.reads (by decide) (by decide)) (fun w h h' => by rw [decodeRaw, h, h']; rfl)
  | rem x => cases he; exact decodeWord_of_reads h (x.reads (by decide) (by decide)) (fun w h h' => by rw [decodeRaw, h, h']; rfl)
  | remImm x => cases he; exact decodeWord_of_reads h (x.reads (by decide) (by decide)) (fun w h h' => by rw [decodeRaw, h, h']; rfl)
  | remu x => cases he; exact decodeWord_of_reads h (x.reads (by decide) (by decide)) (fun w h h' => by rw [decodeRaw, h, h']; rfl)
  | remuImm x => cases he; exact decodeWord_of_reads h (x.reads (by decide) (by decide)) (fun w h h' => by rw [decodeRaw, h, h']; rfl)
  | and x => cases he; exact decodeWord_of_reads h (x.reads (by decide) (by decide)) (fun w h h' => by rw [decodeRaw, h, h']; rfl)
  | andImm x => cases he; exact decodeWord_of_reads h (x.reads (by decide) (by decide)) (fun w h h' => by rw [decodeRaw, h, h']; rfl)
  | or x => cases he; exact decodeWord_of_reads h (x.reads (by decide) (by decide)) (fun w h h' => by rw [decodeRaw, h, h']; rfl)
  | orImm x => cases he; exact decodeWord_of_reads h (x.reads (by decide) (by decide)) (fun w h h' => by rw [decodeRaw, h, h']; rfl)
  | xor x => cases he; exact decodeWord_of_reads h (x.reads (by decide) (by decide)) (fun w h h' => by rw [decodeRaw, h, h']; rfl)
  | xorImm x => cases he; exact decodeWord_of_reads h (x.reads (by decide) (by decide)) (fun w h h' => by rw [decodeRaw, h, h']; rfl)
  | andn x => cases he; exact decodeWord_of_reads h (x.reads (by decide) (by decide)) (fun w h h' => by rw [decodeRaw, h, h']; rfl)
  | andnImm x => cases he; exact decodeWord_of_reads h (x.reads (by decide) (by decide)) (fun w h h' => by rw [decodeRaw, h, h']; rfl)
  | shl x => cases he; exact decodeWord_of_reads h (x.reads (by decide) (by decide)) (fun w h h' => by rw [decodeRaw, h, h']; rfl)
  | shlImm x => cases he; exact decodeWord_of_reads h (x.reads (by decide) (by decide)) (fun w h h' => by rw [decodeRaw, h, h']; rfl)
  | shr x => cases he; exact decodeWord_of_reads h (x.reads (by decide) (by decide)) (fun w h h' => by rw [decodeRaw, h, h']; rfl)
  | shrImm x => cases he; exact decodeWord_of_reads h (x.reads (by decide) (by decide)) (fun w h h' => by rw [decodeRaw, h, h']; rfl)
  | sra x => cases he; exact decodeWord_of_reads h (x.reads (by decide) (by decide)) (fun w h h' => by rw [decodeRaw, h, h']; rfl)
  | sraImm x => cases he; exact decodeWord_of_reads h (x.reads (by decide) (by decide)) (fun w h h' => by rw [decodeRaw, h, h']; rfl)
  | rot x => cases he; exact decodeWord_of_reads h (x.reads (by decide) (by decide)) (fun w h h' => by rw [decodeRaw, h, h']; rfl)
  | rotImm x => cases he; exact decodeWord_of_reads h (x.reads (by decide) (by decide)) (fun w h h' => by rw [decodeRaw, h, h']; rfl)
  | min x => cases he; exact decodeWord_of_reads h (x.reads (by decide) (by decide)) (fun w h h' => by rw [decodeRaw, h, h']; rfl)
  | minImm x => cases he; exact decodeWord_of_reads h (x.reads (by decide) (by decide)) (fun w h h' => by rw [decodeRaw, h, h']; rfl)
  | max x => cases he; exact decodeWord_of_reads h (x.reads (by decide) (by decide)) (fun w h h' => by rw [decodeRaw, h, h']; rfl)
  | maxImm x => cases he; exact decodeWord_of_reads h (x.reads (by decide) (by decide)) (fun w h h' => by rw [decodeRaw, h, h']; rfl)
  | minu x => cases he; exact decodeWord_of_reads h (x.reads (by decide) (by decide)) (fun w h h' => by rw [decodeRaw, h, h']; rfl)
  | minuImm x => cases he; exact decodeWord_of_reads h (x.reads (by decide) (by decide)) (fun w h h' => by rw [decodeRaw, h, h']; rfl)
  | maxu x => cases he; exact decodeWord_of_reads h (x.reads (by decide) (by decide)) (fun w h h' => by rw [decodeRaw, h, h']; rfl)
  | maxuImm x => cases he; exact decodeWord_of_reads h (x.reads (by decide) (by decide)) (fun w h h' => by rw [decodeRaw, h, h']; rfl)
  | clz x => cases he; exact decodeWord_of_reads h (x.reads (by decide) (by decide)) (fun w h h' => by rw [decodeRaw, h, h']; rfl)
  | ctz x => cases he; exact decodeWord_of_reads h (x.reads (by decide) (by decide)) (fun w h h' => by rw [decodeRaw, h, h']; rfl)
  | popc x => cases he; exact decodeWord_of_reads h (x.reads (by decide) (by decide)) (fun w h h' => by rw [decodeRaw, h, h']; rfl)
  | brev x => cases he; exact decodeWord_of_reads h (x.reads (by decide) (by decide)) (fun w h h' => by rw [decodeRaw, h, h']; rfl)
  | bext x => cases he; exact decodeWord_of_reads h (x.reads (by decide) (by decide)) (fun w h h' => by rw [decodeRaw, h, h']; rfl)
  | bins x => cases he; exact decodeWord_of_reads h (x.reads (by decide) (by decide)) (fun w h h' => by rw [decodeRaw, h, h']; rfl)
  | sext x => cases he; exact decodeWord_of_reads h (x.reads (by decide) (by decide)) (fun w h h' => by rw [decodeRaw, h, h']; rfl)
  | zext x => cases he; exact decodeWord_of_reads h (x.reads (by decide) (by decide)) (fun w h h' => by rw [decodeRaw, h, h']; rfl)
  | abs x => cases he; exact decodeWord_of_reads h (x.reads (by decide) (by decide)) (fun w h h' => by rw [decodeRaw, h, h']; rfl)
  | neg x => cases he; exact decodeWord_of_reads h (x.reads (by decide) (by decide)) (fun w h h' => by rw [decodeRaw, h, h']; rfl)
  | cmpeq x => cases he; exact decodeWord_of_reads h (x.reads (by decide) (by decide)) (fun w h h' => by rw [decodeRaw, h, h']; rfl)
  | cmpne x => cases he; exact decodeWord_of_reads h (x.reads (by decide) (by decide)) (fun w h h' => by rw [decodeRaw, h, h']; rfl)
  | cmplt x => cases he; exact decodeWord_of_reads h (x.reads (by decide) (by decide)) (fun w h h' => by rw [decodeRaw, h, h']; rfl)
  | cmple x => cases he; exact decodeWord_of_reads h (x.reads (by decide) (by decide)) (fun w h h' => by rw [decodeRaw, h, h']; rfl)
  | cmpltu x => cases he; exact decodeWord_of_reads h (x.reads (by decide) (by decide)) (fun w h h' => by rw [decodeRaw, h, h']; rfl)
  | cmpleu x => cases he; exact decodeWord_of_reads h (x.reads (by decide) (by decide)) (fun w h h' => by rw [decodeRaw, h, h']; rfl)
  | sel x => cases he; exact decodeWord_of_reads h (x.reads (by decide) (by decide)) (fun w h h' => by rw [decodeRaw, h, h']; rfl)
  | li x => cases he; exact decodeWord_of_reads h (x.reads (by decide) (by decide)) (fun w h h' => by rw [decodeRaw, h, h']; rfl)
  | lih x => cases he; exact decodeWord_of_reads h (x.reads (by decide) (by decide)) (fun w h h' => by rw [decodeRaw, h, h']; rfl)
  | lea x => cases he; exact decodeWord_of_reads h (x.reads (by decide) (by decide)) (fun w h h' => by rw [decodeRaw, h, h']; rfl)
  | skipz x => cases he; exact decodeWord_of_reads h (x.reads (by decide) (by decide)) (fun w h h' => by rw [decodeRaw, h, h']; rfl)
  | skipnz x => cases he; exact decodeWord_of_reads h (x.reads (by decide) (by decide)) (fun w h h' => by rw [decodeRaw, h, h']; rfl)
  | br x => cases he; exact decodeWord_of_reads h (x.reads (by decide) (by decide)) (fun w h h' => by rw [decodeRaw, h, h']; rfl)
  | brz x => cases he; exact decodeWord_of_reads h (x.reads (by decide) (by decide)) (fun w h h' => by rw [decodeRaw, h, h']; rfl)
  | brnz x => cases he; exact decodeWord_of_reads h (x.reads (by decide) (by decide)) (fun w h h' => by rw [decodeRaw, h, h']; rfl)
  | call x => cases he; exact decodeWord_of_reads h (x.reads (by decide) (by decide)) (fun w h h' => by rw [decodeRaw, h, h']; rfl)
  | callr x => cases he; exact decodeWord_of_reads h (x.reads (by decide) (by decide)) (fun w h h' => by rw [decodeRaw, h, h']; rfl)
  | jmpr x => cases he; exact decodeWord_of_reads h (x.reads (by decide) (by decide)) (fun w h h' => by rw [decodeRaw, h, h']; rfl)
  | ret x => cases he; exact decodeWord_of_reads h (x.reads (by decide) (by decide)) (fun w h h' => by rw [decodeRaw, h, h']; rfl)
  | nest x => cases he; exact decodeWord_of_reads h (x.reads (by decide) (by decide)) (fun w h h' => by rw [decodeRaw, h, h']; rfl)
  | iter x => cases he; exact decodeWord_of_reads h (x.reads (by decide) (by decide)) (fun w h h' => by rw [decodeRaw, h, h']; rfl)
  | nop x => cases he; exact decodeWord_of_reads h (x.reads (by decide) (by decide)) (fun w h h' => by rw [decodeRaw, h, h']; rfl)
  | stalln x => cases he; exact decodeWord_of_reads h (x.reads (by decide) (by decide)) (fun w h h' => by rw [decodeRaw, h, h']; rfl)
  | yield x => cases he; exact decodeWord_of_reads h (x.reads (by decide) (by decide)) (fun w h h' => by rw [decodeRaw, h, h']; rfl)
  | park x => cases he; exact decodeWord_of_reads h (x.reads (by decide) (by decide)) (fun w h h' => by rw [decodeRaw, h, h']; rfl)
  | exit x => cases he; exact decodeWord_of_reads h (x.reads (by decide) (by decide)) (fun w h h' => by rw [decodeRaw, h, h']; rfl)
  | fadd x => cases he; exact decodeWord_of_reads h (x.reads (by decide) (by decide)) (fun w h h' => by rw [decodeRaw, h, h']; rfl)
  | fsub x => cases he; exact decodeWord_of_reads h (x.reads (by decide) (by decide)) (fun w h h' => by rw [decodeRaw, h, h']; rfl)
  | fmul x => cases he; exact decodeWord_of_reads h (x.reads (by decide) (by decide)) (fun w h h' => by rw [decodeRaw, h, h']; rfl)
  | fdiv x => cases he; exact decodeWord_of_reads h (x.reads (by decide) (by decide)) (fun w h h' => by rw [decodeRaw, h, h']; rfl)
  | fsqrt x => cases he; exact decodeWord_of_reads h (x.reads (by decide) (by decide)) (fun w h h' => by rw [decodeRaw, h, h']; rfl)
  | fmin x => cases he; exact decodeWord_of_reads h (x.reads (by decide) (by decide)) (fun w h h' => by rw [decodeRaw, h, h']; rfl)
  | fmax x => cases he; exact decodeWord_of_reads h (x.reads (by decide) (by decide)) (fun w h h' => by rw [decodeRaw, h, h']; rfl)
  | frcp x => cases he; exact decodeWord_of_reads h (x.reads (by decide) (by decide)) (fun w h h' => by rw [decodeRaw, h, h']; rfl)
  | frsq x => cases he; exact decodeWord_of_reads h (x.reads (by decide) (by decide)) (fun w h h' => by rw [decodeRaw, h, h']; rfl)
  | flog2 x => cases he; exact decodeWord_of_reads h (x.reads (by decide) (by decide)) (fun w h h' => by rw [decodeRaw, h, h']; rfl)
  | fexp2 x => cases he; exact decodeWord_of_reads h (x.reads (by decide) (by decide)) (fun w h h' => by rw [decodeRaw, h, h']; rfl)
  | fma x => cases he; exact decodeWord_of_reads h (x.reads (by decide) (by decide)) (fun w h h' => by rw [decodeRaw, h, h']; rfl)
  | fms x => cases he; exact decodeWord_of_reads h (x.reads (by decide) (by decide)) (fun w h h' => by rw [decodeRaw, h, h']; rfl)
  | fnma x => cases he; exact decodeWord_of_reads h (x.reads (by decide) (by decide)) (fun w h h' => by rw [decodeRaw, h, h']; rfl)
  | fceq x => cases he; exact decodeWord_of_reads h (x.reads (by decide) (by decide)) (fun w h h' => by rw [decodeRaw, h, h']; rfl)
  | fclt x => cases he; exact decodeWord_of_reads h (x.reads (by decide) (by decide)) (fun w h h' => by rw [decodeRaw, h, h']; rfl)
  | fcle x => cases he; exact decodeWord_of_reads h (x.reads (by decide) (by decide)) (fun w h h' => by rw [decodeRaw, h, h']; rfl)
  | fcun x => cases he; exact decodeWord_of_reads h (x.reads (by decide) (by decide)) (fun w h h' => by rw [decodeRaw, h, h']; rfl)
  | fclass x => cases he; exact decodeWord_of_reads h (x.reads (by decide) (by decide)) (fun w h h' => by rw [decodeRaw, h, h']; rfl)
  | fcvt x => cases he; exact decodeWord_of_reads h (x.reads (by decide) (by decide)) (fun w h h' => by rw [decodeRaw, h, h']; rfl)
  | sysrd x => cases he; exact decodeWord_of_reads h (x.reads (by decide) (by decide)) (fun w h h' => by rw [decodeRaw, h, h']; rfl)
  | syswr x => cases he; exact decodeWord_of_reads h (x.reads (by decide) (by decide)) (fun w h h' => by rw [decodeRaw, h, h']; rfl)
  | trap x => cases he; exact decodeWord_of_reads h (x.reads (by decide) (by decide)) (fun w h h' => by rw [decodeRaw, h, h']; rfl)
  | eret x => cases he; exact decodeWord_of_reads h (x.reads (by decide) (by decide)) (fun w h h' => by rw [decodeRaw, h, h']; rfl)
  | trace x => cases he; exact decodeWord_of_reads h (x.reads (by decide) (by decide)) (fun w h h' => by rw [decodeRaw, h, h']; rfl)
  | vadd x => cases he; exact decodeWord_of_reads h (x.reads (by decide) (by decide)) (fun w h h' => by rw [decodeRaw, h, h']; rfl)
  | vsub x => cases he; exact decodeWord_of_reads h (x.reads (by decide) (by decide)) (fun w h h' => by rw [decodeRaw, h, h']; rfl)
  | vmul x => cases he; exact decodeWord_of_reads h (x.reads (by decide) (by decide)) (fun w h h' => by rw [decodeRaw, h, h']; rfl)
  | vdiv x => cases he; exact decodeWord_of_reads h (x.reads (by decide) (by decide)) (fun w h h' => by rw [decodeRaw, h, h']; rfl)
  | vsqrt x => cases he; exact decodeWord_of_reads h (x.reads (by decide) (by decide)) (fun w h h' => by rw [decodeRaw, h, h']; rfl)
  | vmin x => cases he; exact decodeWord_of_reads h (x.reads (by decide) (by decide)) (fun w h h' => by rw [decodeRaw, h, h']; rfl)
  | vmax x => cases he; exact decodeWord_of_reads h (x.reads (by decide) (by decide)) (fun w h h' => by rw [decodeRaw, h, h']; rfl)
  | vrcp x => cases he; exact decodeWord_of_reads h (x.reads (by decide) (by decide)) (fun w h h' => by rw [decodeRaw, h, h']; rfl)
  | vrsq x => cases he; exact decodeWord_of_reads h (x.reads (by decide) (by decide)) (fun w h h' => by rw [decodeRaw, h, h']; rfl)
  | vlog2 x => cases he; exact decodeWord_of_reads h (x.reads (by decide) (by decide)) (fun w h h' => by rw [decodeRaw, h, h']; rfl)
  | vexp2 x => cases he; exact decodeWord_of_reads h (x.reads (by decide) (by decide)) (fun w h h' => by rw [decodeRaw, h, h']; rfl)
  | vfma x => cases he; exact decodeWord_of_reads h (x.reads (by decide) (by decide)) (fun w h h' => by rw [decodeRaw, h, h']; rfl)
  | vfms x => cases he; exact decodeWord_of_reads h (x.reads (by decide) (by decide)) (fun w h h' => by rw [decodeRaw, h, h']; rfl)
  | viadd x => cases he; exact decodeWord_of_reads h (x.reads (by decide) (by decide)) (fun w h h' => by rw [decodeRaw, h, h']; rfl)
  | visub x => cases he; exact decodeWord_of_reads h (x.reads (by decide) (by decide)) (fun w h h' => by rw [decodeRaw, h, h']; rfl)
  | vimul x => cases he; exact decodeWord_of_reads h (x.reads (by decide) (by decide)) (fun w h h' => by rw [decodeRaw, h, h']; rfl)
  | vand x => cases he; exact decodeWord_of_reads h (x.reads (by decide) (by decide)) (fun w h h' => by rw [decodeRaw, h, h']; rfl)
  | vor x => cases he; exact decodeWord_of_reads h (x.reads (by decide) (by decide)) (fun w h h' => by rw [decodeRaw, h, h']; rfl)
  | vxor x => cases he; exact decodeWord_of_reads h (x.reads (by decide) (by decide)) (fun w h h' => by rw [decodeRaw, h, h']; rfl)
  | vshl x => cases he; exact decodeWord_of_reads h (x.reads (by decide) (by decide)) (fun w h h' => by rw [decodeRaw, h, h']; rfl)
  | vshr x => cases he; exact decodeWord_of_reads h (x.reads (by decide) (by decide)) (fun w h h' => by rw [decodeRaw, h, h']; rfl)
  | vimin x => cases he; exact decodeWord_of_reads h (x.reads (by decide) (by decide)) (fun w h h' => by rw [decodeRaw, h, h']; rfl)
  | vimax x => cases he; exact decodeWord_of_reads h (x.reads (by decide) (by decide)) (fun w h h' => by rw [decodeRaw, h, h']; rfl)
  | vceq x => cases he; exact decodeWord_of_reads h (x.reads (by decide) (by decide)) (fun w h h' => by rw [decodeRaw, h, h']; rfl)
  | vclt x => cases he; exact decodeWord_of_reads h (x.reads (by decide) (by decide)) (fun w h h' => by rw [decodeRaw, h, h']; rfl)
  | vcle x => cases he; exact decodeWord_of_reads h (x.reads (by decide) (by decide)) (fun w h h' => by rw [decodeRaw, h, h']; rfl)
  | vcun x => cases he; exact decodeWord_of_reads h (x.reads (by decide) (by decide)) (fun w h h' => by rw [decodeRaw, h, h']; rfl)
  | vsel x => cases he; exact decodeWord_of_reads h (x.reads (by decide) (by decide)) (fun w h h' => by rw [decodeRaw, h, h']; rfl)
  | vred x =>
    cases he
    refine decodeWord_of_reads h (x.reads h (by decide)) (fun w h h' => ?_)
    rw [decodeRaw, h, h']
    cases x.op <;> rfl
  | vscan x => cases he; exact decodeWord_of_reads h (x.reads (by decide) (by decide)) (fun w h h' => by rw [decodeRaw, h, h']; rfl)
  | vrmaxi x => cases he; exact decodeWord_of_reads h (x.reads (by decide) (by decide)) (fun w h h' => by rw [decodeRaw, h, h']; rfl)
  | vsplat x => cases he; exact decodeWord_of_reads h (x.reads (by decide) (by decide)) (fun w h h' => by rw [decodeRaw, h, h']; rfl)
  | vlane x => cases he; exact decodeWord_of_reads h (x.reads (by decide) (by decide)) (fun w h h' => by rw [decodeRaw, h, h']; rfl)
  | vins x => cases he; exact decodeWord_of_reads h (x.reads (by decide) (by decide)) (fun w h h' => by rw [decodeRaw, h, h']; rfl)
  | vperm x => cases he; exact decodeWord_of_reads h (x.reads (by decide) (by decide)) (fun w h h' => by rw [decodeRaw, h, h']; rfl)
  | vmaxi x => cases he; exact decodeWord_of_reads h (x.reads (by decide) (by decide)) (fun w h h' => by rw [decodeRaw, h, h']; rfl)
  | vcmpr x => cases he; exact decodeWord_of_reads h (x.reads (by decide) (by decide)) (fun w h h' => by rw [decodeRaw, h, h']; rfl)
  | vselk x => cases he; exact decodeWord_of_reads h (x.reads (by decide) (by decide)) (fun w h h' => by rw [decodeRaw, h, h']; rfl)
  | vcvt x => cases he; exact decodeWord_of_reads h (x.reads (by decide) (by decide)) (fun w h h' => by rw [decodeRaw, h, h']; rfl)
  | vldl x => cases he; exact decodeWord_of_reads h (x.reads (by decide) (by decide)) (fun w h h' => by rw [decodeRaw, h, h']; rfl)
  | vstl x => cases he; exact decodeWord_of_reads h (x.reads (by decide) (by decide)) (fun w h h' => by rw [decodeRaw, h, h']; rfl)
  | odef x => cases he; exact decodeWord_of_reads h (x.reads (by decide) (by decide)) (fun w h h' => by rw [decodeRaw, h, h']; rfl)
  | spfence x => cases he; exact decodeWord_of_reads h (x.reads (by decide) (by decide)) (fun w h h' => by rw [decodeRaw, h, h']; rfl)
  | czero x => cases he; exact decodeWord_of_reads h (x.reads (by decide) (by decide)) (fun w h h' => by rw [decodeRaw, h, h']; rfl)
  | crd x => cases he; exact decodeWord_of_reads h (x.reads (by decide) (by decide)) (fun w h h' => by rw [decodeRaw, h, h']; rfl)
  | cwr x => cases he; exact decodeWord_of_reads h (x.reads (by decide) (by decide)) (fun w h h' => by rw [decodeRaw, h, h']; rfl)
  | cld x => cases he; exact decodeWord_of_reads h (x.reads (by decide) (by decide)) (fun w h h' => by rw [decodeRaw, h, h']; rfl)
  | cwait x => cases he; exact decodeWord_of_reads h (x.reads (by decide) (by decide)) (fun w h h' => by rw [decodeRaw, h, h']; rfl)
  | cqry x => cases he; exact decodeWord_of_reads h (x.reads (by decide) (by decide)) (fun w h h' => by rw [decodeRaw, h, h']; rfl)
  | cabort x => cases he; exact decodeWord_of_reads h (x.reads (by decide) (by decide)) (fun w h h' => by rw [decodeRaw, h, h']; rfl)
  | ld x => cases he; exact decodeWord_of_reads h (x.reads (by decide)) (fun w h _ => by rw [decodeRaw, h]; rfl)
  | st x => cases he; exact decodeWord_of_reads h (x.reads (by decide)) (fun w h _ => by rw [decodeRaw, h]; rfl)
  | vld x => cases he; exact decodeWord_of_reads h (x.reads (by decide) (by decide)) (fun w h h' => by rw [decodeRaw, h, h']; rfl)
  | vst x => cases he; exact decodeWord_of_reads h (x.reads (by decide) (by decide)) (fun w h h' => by rw [decodeRaw, h, h']; rfl)
  | vlds x => cases he; exact decodeWord_of_reads h (x.reads (by decide) (by decide)) (fun w h h' => by rw [decodeRaw, h, h']; rfl)
  | vsts x => cases he; exact decodeWord_of_reads h (x.reads (by decide) (by decide)) (fun w h h' => by rw [decodeRaw, h, h']; rfl)
  | vgth x => cases he; exact decodeWord_of_reads h (x.reads (by decide) (by decide)) (fun w h h' => by rw [decodeRaw, h, h']; rfl)
  | vsct x => cases he; exact decodeWord_of_reads h (x.reads (by decide) (by decide)) (fun w h h' => by rw [decodeRaw, h, h']; rfl)
  | vldb x => cases he; exact decodeWord_of_reads h (x.reads (by decide)) (fun w h h' => by rw [decodeRaw, h, h']; rfl)
  | vstb x => cases he; exact decodeWord_of_reads h (x.reads (by decide) (by decide)) (fun w h h' => by rw [decodeRaw, h, h']; rfl)
  | pref x => cases he; exact decodeWord_of_reads h (x.reads (by decide) (by decide)) (fun w h h' => by rw [decodeRaw, h, h']; rfl)
  | sbind x => cases he; exact decodeWord_of_reads h (x.reads (by decide) (by decide)) (fun w h h' => by rw [decodeRaw, h, h']; rfl)
  | sunb x => cases he; exact decodeWord_of_reads h (x.reads (by decide) (by decide)) (fun w h h' => by rw [decodeRaw, h, h']; rfl)
  | sstat x => cases he; exact decodeWord_of_reads h (x.reads (by decide) (by decide)) (fun w h h' => by rw [decodeRaw, h, h']; rfl)
  | cbdef x => cases he; exact decodeWord_of_reads h (x.reads (by decide) (by decide)) (fun w h h' => by rw [decodeRaw, h, h']; rfl)
  | cbrsv x => cases he; exact decodeWord_of_reads h (x.reads (by decide) (by decide)) (fun w h h' => by rw [decodeRaw, h, h']; rfl)
  | cbpub x => cases he; exact decodeWord_of_reads h (x.reads (by decide) (by decide)) (fun w h h' => by rw [decodeRaw, h, h']; rfl)
  | cbtake x => cases he; exact decodeWord_of_reads h (x.reads (by decide) (by decide)) (fun w h h' => by rw [decodeRaw, h, h']; rfl)
  | cbrel x => cases he; exact decodeWord_of_reads h (x.reads (by decide) (by decide)) (fun w h h' => by rw [decodeRaw, h, h']; rfl)
  | ldc x => cases he; exact decodeWord_of_reads h (x.reads (by decide) (by decide)) (fun w h h' => by rw [decodeRaw, h, h']; rfl)
  | stf x => cases he; exact decodeWord_of_reads h (x.reads (by decide) (by decide)) (fun w h h' => by rw [decodeRaw, h, h']; rfl)
  | cpy x => cases he; exact decodeWord_of_reads h (x.reads (by decide) (by decide)) (fun w h h' => by rw [decodeRaw, h, h']; rfl)
  | cpyl x => cases he; exact decodeWord_of_reads h (x.reads (by decide) (by decide)) (fun w h h' => by rw [decodeRaw, h, h']; rfl)
  | eqry x => cases he; exact decodeWord_of_reads h (x.reads (by decide) (by decide)) (fun w h h' => by rw [decodeRaw, h, h']; rfl)
  | send x => cases he; exact decodeWord_of_reads h (x.reads (by decide) (by decide)) (fun w h h' => by rw [decodeRaw, h, h']; rfl)
  | mpeek x => cases he; exact decodeWord_of_reads h (x.reads (by decide) (by decide)) (fun w h h' => by rw [decodeRaw, h, h']; rfl)
  | mclr x => cases he; exact decodeWord_of_reads h (x.reads (by decide) (by decide)) (fun w h h' => by rw [decodeRaw, h, h']; rfl)
  | lbsend x => cases he; exact decodeWord_of_reads h (x.reads (by decide) (by decide)) (fun w h h' => by rw [decodeRaw, h, h']; rfl)
  | inbx x => cases he; exact decodeWord_of_reads h (x.reads (by decide) (by decide)) (fun w h h' => by rw [decodeRaw, h, h']; rfl)
  | migrate x => cases he; exact decodeWord_of_reads h (x.reads (by decide) (by decide)) (fun w h h' => by rw [decodeRaw, h, h']; rfl)
  | homec x => cases he; exact decodeWord_of_reads h (x.reads (by decide) (by decide)) (fun w h h' => by rw [decodeRaw, h, h']; rfl)
  | cwb x => cases he; exact decodeWord_of_reads h (x.reads (by decide) (by decide)) (fun w h h' => by rw [decodeRaw, h, h']; rfl)
  | cinv x => cases he; exact decodeWord_of_reads h (x.reads (by decide) (by decide)) (fun w h h' => by rw [decodeRaw, h, h']; rfl)
  | alinv x => cases he; exact decodeWord_of_reads h (x.reads (by decide) (by decide)) (fun w h h' => by rw [decodeRaw, h, h']; rfl)
  | amo x => cases he; exact decodeWord_of_reads h (x.reads (by decide)) (fun w h _ => by rw [decodeRaw, h]; rfl)
  | red x => cases he; exact decodeWord_of_reads h (x.reads (by decide)) (fun w h _ => by rw [decodeRaw, h]; rfl)
  | cas x => cases he; exact decodeWord_of_reads h (x.reads (by decide) (by decide)) (fun w h h' => by rw [decodeRaw, h, h']; rfl)
  | barr x => cases he; exact decodeWord_of_reads h (x.reads (by decide) (by decide)) (fun w h h' => by rw [decodeRaw, h, h']; rfl)
  | barw x => cases he; exact decodeWord_of_reads h (x.reads (by decide) (by decide)) (fun w h h' => by rw [decodeRaw, h, h']; rfl)
  | bara x => cases he; exact decodeWord_of_reads h (x.reads (by decide) (by decide)) (fun w h h' => by rw [decodeRaw, h, h']; rfl)
  | mwait x => cases he; exact decodeWord_of_reads h (x.reads (by decide) (by decide)) (fun w h h' => by rw [decodeRaw, h, h']; rfl)
  | launch x => cases he; exact decodeWord_of_reads h (x.reads (by decide) (by decide)) (fun w h h' => by rw [decodeRaw, h, h']; rfl)
  | fence x => cases he; exact decodeWord_of_reads h (x.reads (by decide) (by decide)) (fun w h h' => by rw [decodeRaw, h, h']; rfl)
  | qfence x => cases he; exact decodeWord_of_reads h (x.reads (by decide) (by decide)) (fun w h h' => by rw [decodeRaw, h, h']; rfl)
  | lrw x => cases he; exact decodeWord_of_reads h (x.reads (by decide) (by decide)) (fun w h h' => by rw [decodeRaw, h, h']; rfl)
  | sch x => cases he; exact decodeWord_of_reads h (x.reads (by decide) (by decide)) (fun w h h' => by rw [decodeRaw, h, h']; rfl)
  | rrel x => cases he; exact decodeWord_of_reads h (x.reads (by decide) (by decide)) (fun w h h' => by rw [decodeRaw, h, h']; rfl)
  | rdx x => cases he; exact decodeWord_of_reads h (x.reads (by decide) (by decide)) (fun w h h' => by rw [decodeRaw, h, h']; rfl)
  | rqz x => cases he; exact decodeWord_of_reads h (x.reads (by decide) (by decide)) (fun w h h' => by rw [decodeRaw, h, h']; rfl)
  | hnew x => cases he; exact decodeWord_of_reads h (x.reads (by decide) (by decide)) (fun w h h' => by rw [decodeRaw, h, h']; rfl)
  | hfree x => cases he; exact decodeWord_of_reads h (x.reads (by decide) (by decide)) (fun w h h' => by rw [decodeRaw, h, h']; rfl)
  | hdown x => cases he; exact decodeWord_of_reads h (x.reads (by decide) (by decide)) (fun w h h' => by rw [decodeRaw, h, h']; rfl)
  | hup x => cases he; exact decodeWord_of_reads h (x.reads (by decide) (by decide)) (fun w h h' => by rw [decodeRaw, h, h']; rfl)
  | hprio x => cases he; exact decodeWord_of_reads h (x.reads (by decide) (by decide)) (fun w h h' => by rw [decodeRaw, h, h']; rfl)
  | haddr x => cases he; exact decodeWord_of_reads h (x.reads (by decide) (by decide)) (fun w h h' => by rw [decodeRaw, h, h']; rfl)
  | hld x => cases he; exact decodeWord_of_reads h (x.reads (by decide) (by decide)) (fun w h h' => by rw [decodeRaw, h, h']; rfl)
  | hldw x => cases he; exact decodeWord_of_reads h (x.reads (by decide) (by decide)) (fun w h h' => by rw [decodeRaw, h, h']; rfl)
  | hst x => cases he; exact decodeWord_of_reads h (x.reads (by decide) (by decide)) (fun w h h' => by rw [decodeRaw, h, h']; rfl)
  | gqclm x => cases he; exact decodeWord_of_reads h (x.reads (by decide) (by decide)) (fun w h h' => by rw [decodeRaw, h, h']; rfl)
  | baddq x => cases he; exact decodeWord_of_reads h (x.reads (by decide) (by decide)) (fun w h h' => by rw [decodeRaw, h, h']; rfl)
  | _ => cases he
end

section
/-!
PROOFS. The statements about the word map and about the words of the manual (R36, R37, R41, R43, R45–R47, R52).
-/

namespace Sys2Proof

/-- A word of an opcode absent from the map is refused (R47, R52). -/
theorem decodeRaw_unassigned {w : Nat} (h : fld w 56 8 ∉ Rules.assigned) (i : Instr) : decodeRaw w ≠ .ok i := by
  intro hd
  unfold decodeRaw at hd
  split at hd
  case h_59 | h_60 => cases hd
  all_goals
    next hop => exact h (by rw [hop]; decide)

/-- A reading that is refused or gives a word of R46. -/
def ReadsWord (r : Except Reject Instr) : Prop := ∀ i, r = .ok i → i.isWord = true

theorem readsWord_error (e : Reject) : ReadsWord (.error e) := fun _ h => nomatch h

/-- Operands read for a constructor of a word give a word. -/
theorem readsWord_map {α : Type} {mk : α → Instr} (hmk : ∀ x, (mk x).isWord = true) (r : Except Reject α) :
    ReadsWord (r.map mk) := by
  intro i h
  cases r with
  | error e => cases h
  | ok x => cases h; exact hmk x

/-- The decoder reads nothing but words of R46. -/
theorem decodeRaw_readsWord (w : Nat) : ReadsWord (decodeRaw w) := by
  unfold decodeRaw
  repeat' split
  any_goals exact readsWord_map (fun _ => rfl) _
  all_goals exact readsWord_error _

theorem decodeRaw_of_decodeWord {w : Nat} {i : Instr} (h : decodeWord w = .ok i) : decodeRaw w = .ok i ∧ i.wf = true := by
  unfold decodeWord at h
  split at h
  · next j hj =>
    split at h
    · next hwf => cases h; exact ⟨hj, hwf⟩
    · cases h
  · cases h

/-- Exactly the words of R46 have an encoding. -/
theorem isWord_eq_isSome_encode (i : Instr) : i.isWord = (encode i).isSome := by
  cases i <;> rfl

end Sys2Proof

open Sys2Proof

/-- Settles O27: the encoder's map is read off constructor by constructor, the decoder's off its opcodes and selectors. -/
theorem theWordMapAndTheEncoderAgree : Obligations.TheWordMapAndTheEncoderAgree := by
  refine ⟨fun i => by rw [isWord_eq_isSome_encode, Option.isSome_iff_exists], fun w i h => ?_, fun w hw ha i h => ?_⟩
  · obtain ⟨hd, hwf⟩ := decodeRaw_of_decodeWord h
    exact ⟨hwf, decodeRaw_readsWord w i hd⟩
  · have hop : fld w 56 8 = w / 2 ^ 56 := Nat.mod_eq_of_lt (by omega)
    exact decodeRaw_unassigned (by rwa [hop]) i (decodeRaw_of_decodeWord h).1

/-- Settles O28: the decoder is run on each word. -/
theorem wordsOfTheManualDecode : Obligations.WordsOfTheManualDecode := by
  refine ⟨rfl, rfl, rfl, rfl, rfl, rfl, rfl, rfl, rfl, rfl, fun i h => ?_, fun i h => ?_, fun i h => ?_⟩
  all_goals cases h
end

section
/-!
SUPPORT. The frame of accesses (R162, R163, R176, R190, R236): a load leaves every core's arrays as they were, and a store every
slot, but for monitors.
-/

namespace Sys2Proof.Machine

/-! ### Accesses: lines that move between L1s and homes (R162, R176, R190) -/

theorem noteDecode_background (s : State) (line : Nat) : Background s (noteDecode s line) := by
  unfold noteDecode
  split
  · exact noteLines_background _ _
  · exact .refl s

theorem noteRead_background (s : State) (pa : Nat) : Background s (noteRead s pa) :=
  (noteBad_background s pa true).trans (noteDecode_background _ _)

theorem fillAlias_background (s : State) (pa : Nat) : Background s (fillAlias s pa) := by
  unfold fillAlias
  split
  · exact .refl s
  · exact Background.trans .of_cores (setPoison_background _ _ _)

theorem dropSynonyms_background (s : State) (c : Nat) (t : Thread) (va pa : Nat) :
    Background s (dropSynonyms s c t va pa) := flushFrom_background _ _ _

theorem l1Touch_background (s : State) (c : Nat) (t : Thread) (pol : Policy) (vline : Nat) (f : L1Line → L1Line) :
    Background s (l1Touch s c t pol vline f) := background_setCore (.of_slots _ _ _ _ _)

theorem makeRoom_background (s : State) (c set : Nat) : Background s (makeRoom s c set) := by
  unfold makeRoom; dsimp only
  split
  · exact .refl s
  · split
    · exact flushLines_background _ _ _
    · exact .refl s

theorem dirFill_background (s : State) (c pa : Nat) : Background s (dirFill s c pa) := by
  unfold dirFill; dsimp only
  split
  · exact .refl s
  · split <;> exact setSide_background _ _ _

theorem recallIf_background (s : State) (p : Prop) [Decidable p] (c : Option Nat) (pa : Nat) :
    Background s (if p then recallOwner s c pa else s) := by
  split
  · exact recallOwner_background _ _ _
  · exact .refl s

theorem l1Fill_background (s : State) (c : Nat) (t : Thread) (pol : Policy) (va pa : Nat) (leaf : W64) :
    Background s (l1Fill s c t pol va pa leaf) := by
  unfold l1Fill
  extract_lets u same x v w y l z
  have hu : Background s u := dropSynonyms_background _ _ _ _ _
  split
  · exact hu
  · have hv : Background u v := background_setCore (.of_slots _ _ _ _ _)
    have hw : Background v w := (recallIf_background v _ _ _).trans (makeRoom_background _ _ _)
    have hz : Background w z := background_setCore (.of_slots _ _ _ _ _)
    refine hu.trans (hv.trans (hw.trans (hz.trans ?_)))
    split
    · exact dirFill_background _ _ _
    · exact .refl z

theorem writeCopy_background (s : State) (c : Nat) (t : Thread) (pol : Policy) (vline off : Nat) (bs : List Byte)
    (pline : Nat) : Background s (writeCopy s c t pol vline off bs pline) :=
  (l1Touch_background _ _ _ _ _ _).trans (wakeMonitors_background _ _ _)

/-- A load leaves every slot and every array of the cores as they were. -/
theorem loadLoc_background (s : State) (c : Nat) (t : Thread) (pol : Policy) (va : W64) (loc : Loc) (n : Nat) :
    Background s (loadLoc s c t pol va loc n).2.2 := by
  cases loc with
  | spd k o => exact .refl s
  | chip d o => exact .refl s
  | hit vline off =>
    simp only [loadLoc]
    split
    · exact l1Touch_background _ _ _ _ _ _
    · exact .refl s
  | mem pa leaf =>
    simp only [loadLoc]
    have hu := (tlbFill_background s c t.part t.asid va.toNat).trans
      ((dropSynonyms_background _ c t va.toNat pa).trans (recallIf_background _ (leafClass leaf = 0) (some c) pa))
    generalize (if leafClass leaf = 0 then _ else _ : State) = u at hu ⊢
    have hv : Background u (if (homeRead u pa n).2 = true then noteRead u pa else u) := by
      split
      · exact noteRead_background _ _
      · exact .refl u
    generalize (if (homeRead u pa n).2 = true then noteRead u pa else u) = w at hv ⊢
    split
    · exact hu.trans (hv.trans (fillAlias_background _ _))
    · split
      · exact hu.trans (hv.trans (l1Fill_background _ _ _ _ _ _ _))
      · exact hu.trans hv

/-- The slots hold what they held, but for monitors that woke (R244). -/
def SlotsKept (s t : State) : Prop :=
  t.cur = s.cur ∧ ∀ c k, ∃ m, t.slot c k = { s.slot c k with monitor := m }

theorem Background.slotsKept {s t : State} (h : Background s t) : SlotsKept s t := ⟨h.cur, h.slot⟩

theorem slotsKept_setCore {s : State} {c : Nat} {x : Core} (h : x.slots = (s.core c).slots) :
    SlotsKept s (s.setCore c x) := ⟨rfl, fun d k => ⟨_, slot_setCore s h d k⟩⟩

theorem SlotsKept.me {s t : State} (h : SlotsKept s t) : ∃ m, t.me = { s.me with monitor := m } := by
  rw [State.me, h.1]; exact h.2 _ _

/-- A store leaves every slot as it was, but for monitors that woke. -/
theorem storeLoc_slotsKept (s : State) (c : Nat) (t : Thread) (pol : Policy) (va : W64) (loc : Loc) (n v : Nat) :
    SlotsKept s (storeLoc s c t pol va loc n v) := by
  cases loc with
  | spd k o => exact slotsKept_setCore rfl
  | chip d o => exact ⟨rfl, fun _ _ => ⟨_, rfl⟩⟩
  | hit vline off =>
    simp only [storeLoc]
    split
    · exact (Background.refl s).slotsKept
    · split
      · exact ((l1Touch_background _ _ _ _ _ _).trans (homeWrite_background _ _ _ _ _)).slotsKept
      · exact (writeCopy_background _ _ _ _ _ _ _ _).slotsKept
  | mem pa leaf =>
    simp only [storeLoc]
    have hu := (tlbFill_background s c t.part t.asid va.toNat).trans (dropSynonyms_background _ c t va.toNat pa)
    generalize dropSynonyms _ c t va.toNat pa = u at hu ⊢
    have hf := hu.trans (l1Fill_background u c t pol va.toNat pa leaf)
    split
    · split
      · exact (hf.trans (homeWrite_background _ _ _ _ _)).slotsKept
      · exact (hf.trans (writeCopy_background _ _ _ _ _ _ _ _)).slotsKept
    · exact (hu.trans (homeWrite_background _ _ _ _ _)).slotsKept

end Sys2Proof.Machine
end

section
/-!
PROOFS. The statements about skips and about the words that trap (R47, R55, R98, R112, R133).
-/

namespace Sys2Proof.Machine
open Sys2Proof.Rules

/-! ### Skips (R55, R98) -/

/-- A count that R55 allows passes the check of a skip. -/
theorem skipCheck_passes {cnt : BitVec 32} {s : State} {y : Avail} (h1 : 1 ≤ cnt.toNat) (h31 : cnt.toNat ≤ 31)
    (hin : s.me.idx + cnt.toNat ≤ hdrLen (s.me.block.headD 0) + 1) : (skipCheck cnt).pre s y = none := by
  have h0 : cnt ≠ 0#32 := by rintro rfl; simp at h1
  have hlen : ¬ s.me.len + 1 < s.me.idx + cnt.toNat := by simpa [Slot.len] using hin
  simp [skipCheck, h0, hlen, Nat.not_lt.mpr h31]

/-- A count that R55 does not allow fails it. -/
theorem skipCheck_fails {cnt : BitVec 32} {s : State} {y : Avail}
    (h : cnt.toNat = 0 ∨ 31 < cnt.toNat ∨ hdrLen (s.me.block.headD 0) + 1 < s.me.idx + cnt.toNat) :
    (skipCheck cnt).pre s y = some trapIllegal := by
  have h0 : cnt.toNat = 0 → cnt = 0 := fun h => BitVec.eq_of_toNat_eq (by simpa using h)
  exact if_pos (h.imp_left h0)

theorem exec_skipz (x : SkipC) (s : State) : exec (.skipz x) s = skipOn (· == 0) x s := rfl

theorem exec_skipnz (x : SkipC) (s : State) : exec (.skipnz x) s = skipOn (· != 0) x s := rfl

/-- A skip whose count R55 allows goes past its words where its condition holds. -/
theorem skipOn_delivers (p : W64 → Bool) (x : SkipC) {s : State} {v : Vals} (hp : Poised s (formSrc x.a) v)
    (h1 : 1 ≤ x.cnt.toNat) (h31 : x.cnt.toNat ≤ 31) (hin : s.me.idx + x.cnt.toNat ≤ hdrLen (s.me.block.headD 0) + 1) :
    skipOn p x s = .next (delivers s (formSrc x.a) x.stall .none (if p v.a then .skip x.cnt.toNat else .seq) false) :=
  issue_delivers hp (skipCheck_passes h1 h31 hin) rfl rfl

/-- A skip whose count R55 does not allow is ILLEGAL. -/
theorem skipOn_illegal (p : W64 → Bool) (x : SkipC) {s : State} (hm : s.me.mayIssue = true) (hs : s.me.suspect = false)
    (h : x.cnt.toNat = 0 ∨ 31 < x.cnt.toNat ∨ hdrLen (s.me.block.headD 0) + 1 < s.me.idx + x.cnt.toNat) :
    skipOn p x s = .next (trapHere s trapIllegal) :=
  issue_trap hm hs (firstTrap_pre (skipCheck_fails h))

/-! ### Traps of words (R112) -/

theorem exec_trap (x : TrapI) (s : State) : exec (.trap x) s =
    issue x.stall noOperands noChecks (fun _ _ => .fail 0 (.trap (trapTrap x.imm.toNat))) s := rfl

/-! ### The word that is no instruction (R47) -/

theorem exec_illegalWord (w : W64) (s : State) : exec (.illegalWord w) s =
    if s.me.mayIssue then .next (if s.me.suspect then rejectWord s else trapHere s trapIllegal) else .fault .noThread := rfl

end Sys2Proof.Machine

open Sys2Proof Sys2Proof.Machine Sys2Proof.Rules

/-- Settles O5: the checks of a skip pass exactly where R55 allows its count. -/
theorem skipsPassOverTheirCount : Obligations.SkipsPassOverTheirCount := by
  unfold Obligations.SkipsPassOverTheirCount
  refine ⟨fun x s v hp h1 h31 hin => ?_, fun x s hm hs h => ?_⟩
  · rw [exec_skipz, exec_skipnz, skipOn_delivers _ x hp h1 h31 hin, skipOn_delivers _ x hp h1 h31 hin]
    simp only [beq_iff_eq, bne_iff_ne, and_self]
  · rw [exec_skipz, exec_skipnz, skipOn_illegal _ x hm hs h, skipOn_illegal _ x hm hs h]
    exact ⟨rfl, rfl⟩

/-- Settles O21. -/
theorem trapAndUnassignedWordsTrap : Obligations.TrapAndUnassignedWordsTrap := by
  unfold Obligations.TrapAndUnassignedWordsTrap
  refine ⟨fun x s v hp => ?_, fun w s hm => ⟨fun hs => ?_, fun hs => ?_⟩⟩
  · rw [exec_trap, issue_noChecks hp]
    simp only [conclude, hp.agrees, Bool.false_eq_true, if_false]
    rfl
  · rw [exec_illegalWord, if_pos hm, hs]
    rfl
  · rw [exec_illegalWord, if_pos hm, hs]
    rfl
end

section
/-!
PROOFS. The statement about control moving on (R52, R55, R79), from the one about a word that issues on a slot that is not traced.
-/

namespace Sys2Proof.Machine
open Sys2Proof.Rules

/-! ### Frames -/

theorem outsideUnchanged_refl (s : State) : OutsideUnchanged s s :=
  ⟨rfl, fun _ _ _ => rfl, fun _ => rfl, rfl⟩

theorem outsideUnchanged_trans {s t u : State} (h : OutsideUnchanged s t) (h' : OutsideUnchanged t u) :
    OutsideUnchanged s u := by
  obtain ⟨hcur, hslot, hcore, hrest⟩ := h
  obtain ⟨hcur', hslot', hcore', hrest'⟩ := h'
  exact ⟨hcur'.trans hcur, fun c k hk => (hslot' c k (hcur ▸ hk)).trans (hslot c k hk),
    fun c => (hcore' c).trans (hcore c), hrest'.trans hrest⟩

/-- Replacing the current slot changes nothing outside it. -/
theorem outsideUnchanged_setMe (s : State) (x : Slot) : OutsideUnchanged s (s.setMe x) := by
  refine ⟨rfl, fun c k h => slot_setMe_ne s x h, fun c => ?_, rfl⟩
  by_cases hc : c = s.cur.1
  · subst hc
    simp [State.setMe, State.setSlot]
  · rw [setMe_core_ne s x hc]

/-! ### Control moving on (R52, R55, R79) -/

/-- The current slot after its word issued, its slot not traced: the unwritten fields are as they were. -/
def moved (x : Slot) (stall : Nat) : Pos → Slot
  | .seq => { x.issued stall with idx := x.idx + 1 }
  | .skip c => { x.issued stall with idx := x.idx + 1 + c, passed := x.passed ||| passBits x.idx c }
  | .jump t => { x.issued stall with hdr := t, idx := 1, block := [], entering := true, passed := 0 }
  | .at_ h i => { x.issued stall with hdr := h, idx := i, block := [], passed := 0, lastIdx := i - 1 }
  | .gone => x

theorem moveOn_untraced {s : State} {stall : Nat} {p : Pos} (ht : s.me.trace = false) (hp : p ≠ .gone) :
    moveOn s stall p = s.setMe (moved s.me stall p) := by
  have hexit : ∀ i, traceExit s s.cur.1 s.cur.2 i = s := fun i => traceExit_off ht
  cases p with
  | gone => exact absurd rfl hp
  | seq => rfl
  | skip c => rfl
  | jump t => simp only [moveOn, hexit, moved]
  | at_ h i => simp only [moveOn, hexit, moved]

/-- A word issued on a slot that is not traced: its result delivered and a signalling NaN noted, the slot moves. -/
theorem finish_untraced {s : State} {d : Dest} {stall : Nat} {r : Result} {p : Pos} {sn : Bool}
    (ht : (writeResult s d r).me.trace = false) (hp : p ≠ .gone) :
    finish s d stall r p sn =
      (writeResult s d r).setMe (moved ((writeResult s d r).me.noteSnan sn) stall p) := by
  cases sn with
  | false =>
    simp only [finish, Bool.false_eq_true, if_false]
    rw [traceUnpark_off ht, moveOn_untraced ht hp]
    rfl
  | true =>
    have ht' : ((writeResult s d r).setMe ((writeResult s d r).me.noteSnan true)).me.trace = false := by simpa using ht
    simp only [finish, if_true]
    rw [traceUnpark_off ht', moveOn_untraced ht' hp, setMe_setMe, me_setMe]

end Sys2Proof.Machine

open Sys2Proof Sys2Proof.Machine Sys2Proof.Rules

/-- Settles O17: on a slot that is not traced, `finish` without a result replaces the slot by the one moved on. -/
theorem controlMovesOnAndNothingElse : Obligations.ControlMovesOnAndNothingElse := by
  unfold Obligations.ControlMovesOnAndNothingElse
  intro s stall p ht hp
  have h : finish s .none stall .none p false = s.setMe (moved s.me stall p) := by
    have := finish_untraced (s := s) (d := .none) (stall := stall) (r := .none) (sn := false) (by simpa using ht) hp
    rwa [writeResult_none] at this
  rw [h]
  dsimp only
  rw [me_setMe]
  cases p with
  | gone => exact absurd rfl hp
  | _ => simp [moved, Slot.issued, outsideUnchanged_setMe]
end

section
/-!
PROOFS. The statement about results (R56, R80–R84, R103): an equation of `writeResult` for each kind of result, and what a push
makes of the queue.
-/

namespace Sys2Proof.Machine
open Sys2Proof.Rules

/-! ### The result queue (R80, R81) -/

theorem pushCell_qCell_zero (x : Slot) (mk : W64 → Cell W64) : (x.pushCell mk).qCell 0 = mk (x.qCell 15).val := by
  simp [Slot.pushCell, Slot.qCell]

theorem pushCell_qCell_succ (x : Slot) (mk : W64 → Cell W64) {j : Nat} (h : j < 15) :
    (x.pushCell mk).qCell (j + 1) = x.qCell j := by
  simp [Slot.pushCell, Slot.qCell, List.getD_eq_getElem?_getD, h]

/-- What a push of a fixed-latency result makes of the queue, for any slot with the same queue. -/
theorem pushed_pushCell {x y : Slot} (h : y.q = x.q) (v : W64) (lat : Nat) :
    Pushed x (y.pushCell (fun old => cellWrite old lat v)) v lat := by
  have hq : ∀ j, y.qCell j = x.qCell j := fun j => by rw [Slot.qCell, Slot.qCell, h]
  refine ⟨?_, fun j hj => ?_⟩
  · rw [pushCell_qCell_zero, hq]; rfl
  · rw [pushCell_qCell_succ _ _ hj, hq]

/-! ### Link FIFOs (R181, R182) -/

/-- A FIFO just put in place is the one that is found. -/
theorem linkFifo_setLinkFifo (s : State) (c : Nat) (d : Dir) (t : Thread) {f : LinkFifo} (hf : f.is d t = true)
    (hw : f.wire ≠ []) : linkFifo (setLinkFifo s c d t f) c d t = f := by
  have hnone : ∀ l : List LinkFifo, (l.filter (fun g => !g.is d t)).find? (fun g => g.is d t) = none := by
    intro l
    simp [List.find?_eq_none]
  simp [linkFifo, setLinkFifo, hw, List.find?_append, hnone, hf]

/-- The FIFO found for a direction and a thread is theirs. -/
theorem linkFifo_is (s : State) (c : Nat) (d : Dir) (t : Thread) : (linkFifo s c d t).is d t = true := by
  unfold linkFifo
  cases h : (s.core c).links.find? (fun f => f.is d t) with
  | none => simp [LinkFifo.is]
  | some f => exact List.find?_some (p := fun f : LinkFifo => f.is d t) h

theorem linkPush_me (s : State) (c : Nat) (t : Thread) (d : Dir) (v : W64) : (linkPush s c t d v).me = s.me := by
  unfold linkPush
  split
  · rfl
  · split
    · rfl
    · exact setLinkFifo_me _ _ _ _ _

/-- A word pushed toward a neighbour that is not sealed stands last on the wire. -/
theorem linkPush_wire {s : State} {c n : Nat} {t : Thread} {d : Dir} (v : W64) (hn : neighbour c d = some n)
    (hs : (s.core n).isSealed = false) :
    (linkFifo (linkPush s c t d v) c d t).wire = (linkFifo s c d t).wire ++ [v] := by
  have h : linkPush s c t d v = (setLinkFifo s c d t { linkFifo s c d t with wire := (linkFifo s c d t).wire ++ [v] }).post
      [.linkWordArrival c d t.launch t.gang t.j] := by
    simp only [linkPush, hn, hs, Bool.false_eq_true, if_false]
  have hf := linkFifo_setLinkFifo s c d t (f := { linkFifo s c d t with wire := (linkFifo s c d t).wire ++ [v] })
    (linkFifo_is s c d t) (by simp)
  rw [h]
  exact congrArg LinkFifo.wire hf

/-- The current slot holds none of the FIFOs. -/
theorem linkFifo_setMe (s : State) (x : Slot) (c : Nat) (d : Dir) (t : Thread) :
    linkFifo (s.setMe x) c d t = linkFifo s c d t := by
  have h : ((s.setMe x).core c).links = (s.core c).links := by
    by_cases hc : c = s.cur.1
    · subst hc
      simp [State.setMe, State.setSlot]
    · rw [setMe_core_ne s x hc]
  rw [linkFifo, linkFifo, h]

/-! ### Results (R80–R84) -/

theorem writeResult_z (s : State) (r : Result) : writeResult s (.s .z) r = s := rfl

/-- A scalar result is written to D, then pushed. -/
theorem writeResult_one {s : State} {d : Dst} (v : W64) (lat : Nat) (hd : d ≠ .z) : writeResult s (.s d) (.one v lat) =
    (writeReg s d v lat).setMe ((writeReg s d v lat).me.pushCell (fun old => cellWrite old lat v)) := by
  cases d with
  | z => exact absurd rfl hd
  | _ => rfl

/-- A pair: the datum is written to D, then the status and the datum are pushed. -/
theorem writeResult_two {s : State} {d : Dst} (st v : W64) (lat : Nat) (hd : d ≠ .z) :
    writeResult s (.s d) (.two st v lat) =
      (writeReg s d v lat).setMe (((writeReg s d v lat).me.pushCell (fun old => cellWrite old lat st)).pushCell
        (fun old => cellWrite old lat v)) := by
  cases d with
  | z => exact absurd rfl hd
  | _ => rfl

/-- A slot whose register that D names waits for the datum owed under a tag (R82). -/
def Slot.owing (x : Slot) (d : Dst) (tag : Nat) : Slot :=
  match d with
  | .n i => { x with n := mapSet x.n i.val (owedCell (x.nCell i.val).val tag 1) }
  | _ => x

/-- A datum owed: D waits for it, and so does the entry pushed. -/
theorem writeResult_owed {s : State} {d : Dst} (tag : Nat) (hd : d ≠ .z) : writeResult s (.s d) (.owed tag false) =
    s.setMe ((s.me.owing d tag).pushCell (fun old => owedCell old tag 1)) := by
  cases d with
  | z => exact absurd rfl hd
  | _ => rfl

/-- A status and a datum owed: two entries are pushed. -/
theorem writeResult_owedPair {s : State} {d : Dst} (tag : Nat) (hd : d ≠ .z) : writeResult s (.s d) (.owed tag true) =
    s.setMe (((s.me.owing d tag).pushCell (fun old => owedCell old tag 0)).pushCell (fun old => owedCell old tag 1)) := by
  cases d with
  | z => exact absurd rfl hd
  | _ => rfl

theorem owing_q (x : Slot) (d : Dst) (tag : Nat) : (x.owing d tag).q = x.q := by cases d <;> rfl

/-- The register that D names waits; the others are as they were. -/
theorem owing_nCell (x : Slot) (d : Dst) (tag : Nat) (i : Fin 24) :
    (d = .n i → (x.owing d tag).nCell i.val = owedCell (x.nCell i.val).val tag 1) ∧
      (d ≠ .n i → (x.owing d tag).nCell i.val = x.nCell i.val) := by
  refine ⟨fun h => ?_, fun h => ?_⟩
  · subst h
    exact mapGet_mapSet_self _ _ _ _
  · cases d with
    | n j =>
      have hj : i.val ≠ j.val := fun e => h (by rw [Fin.ext e])
      exact mapGet_mapSet_ne _ _ _ hj
    | _ => rfl

/-- Writing D leaves the queue to the push. -/
theorem writeReg_q (s : State) (d : Dst) (v : W64) (lat : Nat) : (writeReg s d v lat).me.q = s.me.q := by
  cases d with
  | push => rfl
  | z => rfl
  | n i => simp [writeReg]
  | m i => simp [writeReg]
  | link l => simp [writeReg, linkPush_me]
  | s i =>
    simp only [writeReg]
    split
    · simp [Slot.setSend]
    · split
      · rfl
      · obtain ⟨m, hm⟩ := (storeLoc_slotsKept s s.cur.1 s.me.thread .nrm _ _ _ _).me
        rw [me_setMe, hm]

/-- A scalar result is pushed wherever it goes, but to z. -/
theorem pushed_one {s : State} {d : Dst} (v : W64) (lat : Nat) (hd : d ≠ .z) :
    Pushed s.me (writeResult s (.s d) (.one v lat)).me v lat := by
  rw [writeResult_one v lat hd, me_setMe]
  exact pushed_pushCell (writeReg_q s d v lat) v lat

theorem setRegs_q (x : Slot) (i : Nat) (vs : List W64) : (x.setRegs i vs).q = x.q := by
  induction vs generalizing x i with
  | nil => rfl
  | cons v vs ih => exact ih _ _

theorem setRegs_v (x : Slot) (i : Nat) (vs : List W64) : (x.setRegs i vs).v = x.v := by
  induction vs generalizing x i with
  | nil => rfl
  | cons v vs ih => exact ih _ _

/-- Consecutive registers written. -/
theorem setRegs_nCell (x : Slot) (i : Nat) (vs : List W64) (j : Nat) : (x.setRegs i vs).nCell j =
    if i ≤ j ∧ j < i + vs.length then { val := vs.getD (j - i) 0, st := .now } else x.nCell j := by
  induction vs generalizing x i with
  | nil => simp [Slot.setRegs]
  | cons v vs ih =>
    rw [Slot.setRegs, ih]
    by_cases hj : j = i
    · subst hj
      simp [Slot.nCell]
    · have hother : ({ x with n := mapSet x.n i { val := v, st := .now } } : Slot).nCell j = x.nCell j :=
        mapGet_mapSet_ne _ _ _ hj
      rw [hother, List.length_cons]
      by_cases hin : i + 1 ≤ j ∧ j < i + 1 + vs.length
      · have hsub : j - i = j - (i + 1) + 1 := by omega
        rw [if_pos hin, if_pos (by omega), hsub, List.getD_cons_succ]
      · rw [if_neg hin, if_neg (by omega)]

/-- An element appended to a write stream: its position counts on. -/
theorem writeReg_append {s : State} {k : Fin 8} (v : W64) (lat : Nat) (hb : (s.me.stream k.val).bound = true)
    (hw : (s.me.stream k.val).wr = true) (hpos : (s.me.stream k.val).pos < (s.me.stream k.val).count)
    (hf : destFail s (.s (.s k)) = none) :
    (writeReg s (.s k) v lat).me.stream k.val = { s.me.stream k.val with pos := (s.me.stream k.val).pos + 1 } := by
  have ha : appendAddr s k.val = some ((s.me.stream k.val).addr (s.me.stream k.val).pos, s.me.stream k.val) := by
    simp [appendAddr, hb, hw, hpos]
  simp only [destFail, ha] at hf
  simp only [writeReg, ha]
  split
  · next he => simp [he] at hf
  · simp [Slot.stream]

end Sys2Proof.Machine

open Sys2Proof Sys2Proof.Machine Sys2Proof.Rules

/-- Settles O16: each destination's equation of `writeResult`, and what a push makes of the queue. -/
theorem resultsArePushedAndWritten : Obligations.ResultsArePushedAndWritten := by
  unfold Obligations.ResultsArePushedAndWritten
  intro s v st u lat
  refine ⟨writeResult_z s, ⟨pushed_one v lat (by simp), ?_⟩, fun i => ⟨pushed_one v lat (by simp), ?_, fun j hj => ?_⟩,
    fun i => ⟨pushed_one v lat (by simp), ?_, ?_⟩, fun i => ?_, fun r => ?_, fun d tag hd => ?_, fun d tag hd => ?_,
    fun r tag => ?_, fun a k vs => ?_, fun d n hn hs => ⟨pushed_one v lat (by simp), ?_⟩,
    fun k => ⟨pushed_one v lat (by simp), fun hb hw hpos hf => ?_⟩⟩
  · rw [writeResult_one v lat (by simp), me_setMe]
    rfl
  · rw [writeResult_one v lat (by simp), me_setMe]
    simp [writeReg, Slot.pushCell, Slot.nCell, cellWrite, issuedCell]
  · rw [writeResult_one v lat (by simp), me_setMe]
    simp [writeReg, Slot.pushCell, Slot.nCell, mapGet_mapSet_ne _ _ _ hj]
  · rw [writeResult_one v lat (by simp), me_setMe]
    simp [writeReg, Slot.pushCell, Slot.mreg]
  · rw [writeResult_one v lat (by simp), me_setMe]
    simp [writeReg, Slot.pushCell]
  · have hq : ∀ j, (writeReg s (.n i) v lat).me.qCell j = s.me.qCell j := fun j => by
      rw [Slot.qCell, Slot.qCell, writeReg_q]
    dsimp only
    rw [writeResult_two st v lat (by simp), me_setMe]
    refine ⟨?_, ?_, ?_⟩
    · rw [pushCell_qCell_zero, pushCell_qCell_succ _ _ (by decide), hq]
      rfl
    · rw [pushCell_qCell_succ _ _ (by decide), pushCell_qCell_zero, hq]
      rfl
    · simp [writeReg, Slot.pushCell, Slot.nCell, cellWrite, issuedCell]
  · refine ⟨?_, ?_, fun j hj => ?_⟩
    · simp [writeResult, Slot.vCell, cellWrite, issuedCell]
    · simp [writeResult]
    · simp [writeResult, Slot.vCell, mapGet_mapSet_ne _ _ _ hj]
  · have hq : ∀ j, (s.me.owing d tag).qCell j = s.me.qCell j := fun j => by rw [Slot.qCell, Slot.qCell, owing_q]
    dsimp only
    rw [writeResult_owed tag hd, me_setMe]
    refine ⟨?_, fun j hj => ?_, owing_nCell s.me d tag⟩
    · rw [pushCell_qCell_zero, hq]
    · rw [pushCell_qCell_succ _ _ hj, hq]
  · have hq : ∀ j, (s.me.owing d tag).qCell j = s.me.qCell j := fun j => by rw [Slot.qCell, Slot.qCell, owing_q]
    dsimp only
    rw [writeResult_owedPair tag hd, me_setMe]
    refine ⟨?_, ?_, fun j hj => ?_, owing_nCell s.me d tag⟩
    · rw [pushCell_qCell_zero, pushCell_qCell_succ _ _ (by decide), hq]
    · rw [pushCell_qCell_succ _ _ (by decide), pushCell_qCell_zero, hq]
    · rw [pushCell_qCell_succ _ _ (by omega), pushCell_qCell_succ _ _ (by omega), hq]
  · refine ⟨?_, ?_, ?_, fun j hj => ?_⟩
    · simp [writeResult, Slot.vCell, owedCell]
    · simp [writeResult]
    · simp [writeResult]
    · simp [writeResult, Slot.vCell, mapGet_mapSet_ne _ _ _ hj]
  · have h : writeResult s (.regs a k) (.regs vs) = s.setMe (s.me.setRegs a vs) := rfl
    dsimp only
    rw [h, me_setMe]
    exact ⟨setRegs_q _ _ _, setRegs_v _ _ _, setRegs_nCell _ _ _⟩
  · rw [writeResult_one v lat (by simp), linkFifo_setMe]
    exact linkPush_wire v hn hs
  · rw [writeResult_one v lat (by simp), me_setMe]
    exact writeReg_append v lat hb hw hpos hf
end

section
/-!
PROOFS. The statements about what scalar and vector words leave unchanged (R42, R63, R80, R88, R118).
-/

namespace Sys2Proof.Machine
open Sys2Proof.Rules

/-! ### Frames of words that compute from registers (R42, R80, R88) -/

/-- What a slot keeps when its word issues with control at the next word, its result having gone to the queue and the
registers. -/
theorem moved_seq_frame (x : Slot) (q : List (Cell W64)) (n : Map (Cell W64)) (w : Map (Cell VImage)) (sn : Bool)
    (stall : Nat) :
    let y := moved (({ x with q := q, n := n, v := w } : Slot).noteSnan sn) stall .seq
    NextWord x y stall ∧ SlotKept x y ∧ y.status = statusAfter x.status sn ∧ y.q = q ∧ y.n = n ∧ y.v = w := by
  cases sn <;> exact ⟨⟨rfl, rfl, rfl, rfl⟩, ⟨rfl, rfl, rfl, rfl, rfl, rfl, rfl, rfl, rfl, rfl, rfl, rfl, rfl, rfl⟩,
    rfl, rfl, rfl, rfl⟩

/-- Where a scalar result goes whose destination is z, q0 or a named register: `LandsIn x d r lat q n` says which queue q and
registers n a slot x then has. -/
structure LandsIn (x : Slot) (d : Dest) (r : W64) (lat : Nat) (q : List (Cell W64)) (n : Map (Cell W64)) : Prop where
  nowhere : d = .s .z → q = x.q ∧ n = x.n
  queue : d = .s .push → Pushed x { x with q := q } r lat ∧ n = x.n
  register : ∀ j : Fin 24, d = .s (.n j) → (Pushed x { x with q := q } r lat ∧
    mapGet Cell.zero n j.val = issuedCell (x.nCell j.val).val r lat) ∧ ∀ k ≠ j.val, mapGet Cell.zero n k = x.nCell k

/-- A word with a scalar result, on a slot that is not traced, replaces the current slot. -/
theorem finish_one {s : State} {d : Dest} (stall : Nat) (r : W64) (lat : Nat) (sn : Bool) (ht : s.me.trace = false)
    (hd : d = .s .z ∨ d = .s .push ∨ ∃ j, d = .s (.n j)) :
    ∃ q n, LandsIn s.me d r lat q n ∧ finish s d stall (.one r lat) .seq sn =
      s.setMe (moved (({ s.me with q := q, n := n, v := s.me.v } : Slot).noteSnan sn) stall .seq) := by
  obtain rfl | rfl | ⟨j, rfl⟩ := hd
  · exact ⟨s.me.q, s.me.n, ⟨fun _ => ⟨rfl, rfl⟩, nofun, nofun⟩, finish_untraced ht nofun⟩
  · have hw : writeResult s (.s .push) (.one r lat) = s.setMe (s.me.pushCell (fun old => cellWrite old lat r)) :=
      writeResult_one r lat nofun
    refine ⟨(s.me.pushCell (fun old => cellWrite old lat r)).q, s.me.n,
      ⟨nofun, fun _ => ⟨pushed_pushCell rfl r lat, rfl⟩, nofun⟩, ?_⟩
    rw [finish_untraced (p := .seq) (by rw [hw, me_setMe]; exact ht) nofun, hw, setMe_setMe, me_setMe]
    rfl
  · have hw : writeResult s (.s (.n j)) (.one r lat) =
        s.setMe (({ s.me with n := mapSet s.me.n j.val (cellWrite (s.me.nCell j.val).val lat r) } : Slot).pushCell
          (fun old => cellWrite old lat r)) := by
      rw [writeResult_one (d := .n j) r lat nofun, writeReg, setMe_setMe, me_setMe]
    refine ⟨(s.me.pushCell (fun old => cellWrite old lat r)).q,
      mapSet s.me.n j.val (cellWrite (s.me.nCell j.val).val lat r), ⟨nofun, nofun, ?_⟩, ?_⟩
    · rintro j' ⟨⟩
      exact ⟨⟨pushed_pushCell rfl r lat, mapGet_mapSet_self _ _ _ _⟩, fun k hk => mapGet_mapSet_ne _ _ _ hk⟩
    · rw [finish_untraced (p := .seq) (by rw [hw, me_setMe]; exact ht) nofun, hw, setMe_setMe, me_setMe]
      rfl

/-- A word with a vector result, on a slot that is not traced, replaces the current slot. -/
theorem finish_vec {s : State} {d : VReg} (stall : Nat) (r : VImage) (lat : Nat) (sn : Bool) (ht : s.me.trace = false) :
    finish s (.v d) stall (.vec r lat) .seq sn = s.setMe (moved (({ s.me with
      q := s.me.q, n := s.me.n, v := mapSet s.me.v d.val (cellWrite (s.me.vCell d.val).val lat r) } : Slot).noteSnan sn)
        stall .seq) := by
  have hw : writeResult s (.v d) (.vec r lat) =
      s.setMe { s.me with v := mapSet s.me.v d.val (cellWrite (s.me.vCell d.val).val lat r) } := rfl
  rw [finish_untraced (p := .seq) (by rw [hw, me_setMe]; exact ht) nofun, hw, setMe_setMe, me_setMe]

/-- What runs a word without checks that ends with a scalar at the next word, whatever its operands are. -/
def GivesScalar (run : State → Out) (f : Form) : Prop :=
  ∃ stall body, (∀ s, run s = issue stall f noChecks body s) ∧ ∀ u v, ∃ r lat sn, body u v = .done u (.one r lat) .seq sn

/-- The same with a vector for a register. -/
def GivesVector (run : State → Out) (f : Form) : Prop :=
  ∃ d, f.d = .v d ∧ ∃ stall body, (∀ s, run s = issue stall f noChecks body s) ∧
    ∀ u v, ∃ r lat sn, body u v = .done u (.vec r lat) .seq sn

theorem issue_givesScalar (stall : BitVec 3) (f : Form) (r : State → Vals → W64) (lat : Nat) (sn : State → Vals → Bool) :
    GivesScalar (issue stall f noChecks (fun s v => .done s (.one (r s v) lat) .seq (sn s v))) f :=
  ⟨stall, _, fun _ => rfl, fun _ _ => ⟨_, _, _, rfl⟩⟩

theorem issue_givesVector (stall : BitVec 3) {f : Form} {d : VReg} (hd : f.d = .v d) (r : State → Vals → VImage) (lat : Nat)
    (sn : State → Vals → Bool) :
    GivesVector (issue stall f noChecks (fun s v => .done s (.vec (r s v) lat) .seq (sn s v))) f :=
  ⟨d, hd, stall, _, fun _ => rfl, fun _ _ => ⟨_, _, _, rfl⟩⟩

theorem wordA_givesScalar (stall : BitVec 3) (a : Src) (d : Dst) (lat : Nat) (g : W64 → W64) :
    GivesScalar (wordA stall a d lat g) (formA a d) := by
  delta wordA
  exact issue_givesScalar _ _ _ _ _

theorem wordAB_givesScalar (stall : BitVec 3) (a b : Src) (d : Dst) (lat : Nat) (g : W64 → W64 → W64) :
    GivesScalar (wordAB stall a b d lat g) (formAB a b d) := by
  delta wordAB
  exact issue_givesScalar _ _ _ _ _

theorem wordABC_givesScalar (stall : BitVec 3) (a b c : Src) (d : Dst) (lat : Nat) (g : W64 → W64 → W64 → W64) :
    GivesScalar (wordABC stall a b c d lat g) (formABC a b c d) := by
  delta wordABC
  exact issue_givesScalar _ _ _ _ _

theorem intI_givesScalar (op : IntOp) (lat : Nat) (x : IntI) :
    GivesScalar (intI op lat x) (formI x.a x.d (extImm x.zx x.imm)) := by
  delta intI
  exact issue_givesScalar _ _ _ _ _

theorem intR_givesScalar (op : IntOp) (lat : Nat) (x : IntR) : GivesScalar (intR op lat x) (formAB x.a x.b x.d) :=
  wordAB_givesScalar _ _ _ _ _ _

theorem execLea_givesScalar (x : LeaM) : GivesScalar (execLea x) (formAB x.a x.b x.d) := by
  delta execLea
  exact wordAB_givesScalar _ _ _ _ _ _

theorem execBext_givesScalar (x : BitT) : GivesScalar (execBext x) (formABC x.a x.b x.c x.d) := by
  delta execBext
  exact wordABC_givesScalar _ _ _ _ _ _ _

theorem execBins_givesScalar (x : BitT) : GivesScalar (execBins x) (formABC x.a x.b x.c x.d) := by
  delta execBins
  exact wordABC_givesScalar _ _ _ _ _ _ _

theorem execSel_givesScalar (x : SelR) : GivesScalar (execSel x) (formABC x.a x.b x.c x.d) := by
  delta execSel
  exact wordABC_givesScalar _ _ _ _ _ _ _

theorem execLi_givesScalar (x : LiI) : GivesScalar (execLi x) { noOperands with d := .s x.d } := by
  delta execLi
  exact issue_givesScalar _ _ _ _ _

theorem execLih_givesScalar (x : LihI) : GivesScalar (execLih x) (formI x.a x.d (x.imm.signExtend 64)) := by
  delta execLih
  exact issue_givesScalar _ _ _ _ _

theorem fpWord1_givesScalar (op : FpOp1) (lat : Nat) (x : Fp1) : GivesScalar (fpWord1 op lat x) (formA x.a x.d) := by
  delta fpWord1
  exact issue_givesScalar _ _ _ _ _

theorem fpWord2_givesScalar (op : FpOp2) (lat : Nat) (x : Fp2) : GivesScalar (fpWord2 op lat x) (formAB x.a x.b x.d) := by
  delta fpWord2
  exact issue_givesScalar _ _ _ _ _

theorem fpWordMin_givesScalar (op : FpOp2) (x : Fp2n) : GivesScalar (fpWordMin op x) (formAB x.a x.b x.d) :=
  fpWord2_givesScalar op 0 _

theorem fpWord3_givesScalar (op : FpOp3) (x : Fp3) : GivesScalar (fpWord3 op x) (formABC x.a x.b x.c x.d) := by
  delta fpWord3
  exact issue_givesScalar _ _ _ _ _

theorem fpWordRel_givesScalar (r : FpRel) (x : Fp2n) : GivesScalar (fpWordRel r x) (formAB x.a x.b x.d) := by
  delta fpWordRel
  exact issue_givesScalar _ _ _ _ _

theorem execFclass_givesScalar (x : Fp1n) : GivesScalar (execFclass x) (formA x.a x.d) := by
  delta execFclass
  exact issue_givesScalar _ _ _ _ _

theorem exec_givesScalar {i : Instr} {f : Form} (h : scalarForm i = some f) : GivesScalar (exec i) f := by
  cases i with
  | add x | sub x | mul x | mulh x | mulhu x | div x | divu x | rem x | remu x | and x | or x | xor x
  | andn x | shl x | shr x | sra x | rot x | min x | max x | minu x | maxu x => cases h; exact intR_givesScalar _ _ x
  | cmpeq x | cmpne x | cmplt x | cmple x
  | cmpltu x | cmpleu x => cases h; exact wordAB_givesScalar x.stall x.a x.b x.d 0 (cmpResult _ x.w)
  | lea x => cases h; exact execLea_givesScalar x
  | addImm x | subImm x | mulImm x | mulhImm x | mulhuImm x | divImm x | divuImm x | remImm x | remuImm x
  | andImm x | orImm x | xorImm x | andnImm x | shlImm x | shrImm x | sraImm x | rotImm x | minImm x | maxImm x
  | minuImm x | maxuImm x => cases h; exact intI_givesScalar _ _ x
  | clz x | ctz x | popc x | brev x | sext x | zext x | abs x | neg x => 
    cases h; exact wordA_givesScalar x.stall x.a x.d 0 (bitResult _ x.w)
  | bext x => cases h; exact execBext_givesScalar x
  | bins x => cases h; exact execBins_givesScalar x
  | sel x => cases h; exact execSel_givesScalar x
  | li x => cases h; exact execLi_givesScalar x
  | lih x => cases h; exact execLih_givesScalar x
  | fadd x | fsub x | fmul x | fdiv x => cases h; exact fpWord2_givesScalar _ _ x
  | fmin x | fmax x => cases h; exact fpWordMin_givesScalar _ x
  | fceq x | fclt x | fcle x | fcun x => cases h; exact fpWordRel_givesScalar _ x
  | fsqrt x | frcp x | frsq x | flog2 x | fexp2 x => cases h; exact fpWord1_givesScalar _ _ x
  | fma x | fms x | fnma x => cases h; exact fpWord3_givesScalar _ x
  | fclass x => cases h; exact execFclass_givesScalar x
  | _ => contradiction

theorem vecWord1_givesVector (op : FpOp1) (x : V1) : GivesVector (vecWord1 op x) (formV x.a x.d x.k) := by
  delta vecWord1
  exact issue_givesVector _ rfl _ _ _

theorem vecWord2_givesVector (op : FpOp2) (lat : Nat) (x : V2) :
    GivesVector (vecWord2 op lat x) (formVV x.a x.b x.d x.k) := by
  delta vecWord2
  exact issue_givesVector _ rfl _ _ _

theorem vecWordMin_givesVector (op : FpOp2) (x : V2n) : GivesVector (vecWordMin op x) (formVV x.a x.b x.d x.k) :=
  vecWord2_givesVector op 0 _

theorem vecWord3_givesVector (op : FpOp3) (x : V3) : GivesVector (vecWord3 op x) (formVVV x.a x.b x.c x.d x.k) := by
  delta vecWord3
  exact issue_givesVector _ rfl _ _ _

theorem vecInt_givesVector (op : VIntOp) (x : VI2) : GivesVector (vecInt op x) (formVV x.a x.b x.d x.k) := by
  delta vecInt
  exact issue_givesVector _ rfl _ _ _

theorem execVsel_givesVector (x : VSelR) : GivesVector (execVsel x) { formVV x.a x.b x.d x.k with c := .s x.c } := by
  delta execVsel
  exact issue_givesVector _ rfl _ _ _

theorem execVscan_givesVector (x : VScanR) : GivesVector (execVscan x) (formV x.a x.d x.k) := by
  delta execVscan
  exact issue_givesVector _ rfl _ _ _

theorem execVsplat_givesVector (x : VSplatR) :
    GivesVector (execVsplat x) { noOperands with a := .s x.a, k := .s x.k, d := .v x.d } := by
  delta execVsplat
  exact issue_givesVector _ rfl _ _ _

theorem execVins_givesVector (x : VInsR) :
    GivesVector (execVins x) { a := .v x.a, b := .s x.b, c := .s x.c, k := .s x.k, d := .v x.d, imm := 0 } := by
  delta execVins
  exact issue_givesVector _ rfl _ _ _

theorem execVperm_givesVector (x : VPermR) : GivesVector (execVperm x) (formVV x.a x.b x.d x.k) := by
  delta execVperm
  exact issue_givesVector _ rfl _ _ _

theorem execVmaxi_givesVector (x : VRankR) : GivesVector (execVmaxi x) (formVV x.a x.b x.d x.k) := by
  delta execVmaxi
  exact issue_givesVector _ rfl _ _ _

theorem execVcmpr_givesVector (x : VRankR) : GivesVector (execVcmpr x) (formVV x.a x.b x.d x.k) := by
  delta execVcmpr
  exact issue_givesVector _ rfl _ _ _

theorem exec_givesVector {i : Instr} {f : Form} (h : vectorForm i = some f) : GivesVector (exec i) f := by
  cases i with
  | vadd x | vsub x | vmul x | vdiv x => cases h; exact vecWord2_givesVector _ _ x
  | vmin x | vmax x => cases h; exact vecWordMin_givesVector _ x
  | vsqrt x | vrcp x | vrsq x | vlog2 x | vexp2 x => cases h; exact vecWord1_givesVector _ x
  | vfma x | vfms x => cases h; exact vecWord3_givesVector _ x
  | viadd x | visub x | vimul x | vand x | vor x | vxor x | vshl x | vshr x | vimin x | vimax x =>
    cases h; exact vecInt_givesVector _ x
  | vsel x => cases h; exact execVsel_givesVector x
  | vscan x => cases h; exact execVscan_givesVector x
  | vsplat x => cases h; exact execVsplat_givesVector x
  | vins x => cases h; exact execVins_givesVector x
  | vperm x => cases h; exact execVperm_givesVector x
  | vmaxi x => cases h; exact execVmaxi_givesVector x
  | vcmpr x => cases h; exact execVcmpr_givesVector x
  | _ => contradiction

end Sys2Proof.Machine

open Sys2Proof Sys2Proof.Machine Sys2Proof.Rules

/-- Settles O18: every such word issues without checks and ends with a scalar; the frame is that of `finish`. -/
theorem scalarWordsChangeOnlyTheirDestination : Obligations.ScalarWordsChangeOnlyTheirDestination := by
  unfold Obligations.ScalarWordsChangeOnlyTheirDestination
  intro i f s v hf hp hplain ht hd
  obtain ⟨stall, body, hexec, hbody⟩ := exec_givesScalar hf
  obtain ⟨r, lat, sn, hb⟩ := hbody s v
  obtain ⟨q, n, hland, hfin⟩ := finish_one stall.toNat r lat sn ht hd
  obtain ⟨hnext, hkept, hstatus, hq, hn, hv⟩ := moved_seq_frame s.me q n s.me.v sn stall.toNat
  have hqc : ∀ x : Slot, x.q = q → ∀ j, x.qCell j = ({ s.me with q := q } : Slot).qCell j := fun x hx j => by
    rw [Slot.qCell, Slot.qCell, hx]
  have hrun : exec i s = .next (s.setMe (moved (({ s.me with q := q, n := n, v := s.me.v } : Slot).noteSnan sn)
      stall.toNat .seq)) := by
    rw [hexec, issue_delivers (r := .one r lat) (p := .seq) (sn := sn) hp rfl rfl (by rw [consumeAll_plain hplain, hb]),
      delivers, consumeAll_plain hplain, hfin]
  refine ⟨_, hrun, ?_⟩
  rw [me_setMe]
  generalize moved (({ s.me with q := q, n := n, v := s.me.v } : Slot).noteSnan sn) stall.toNat .seq = y at *
  have hpush : Pushed s.me { s.me with q := q } r lat → Pushed s.me y r lat := fun ⟨h0, hs⟩ =>
    ⟨(hqc y hq 0).trans h0, fun j hj => (hqc y hq _).trans (hs j hj)⟩
  have hnc : ∀ k, y.nCell k = mapGet Cell.zero n k := fun k => by rw [Slot.nCell, hn]
  refine ⟨⟨_, hnext⟩, fun hz => ?_, fun hpd => ?_, fun j hj => ?_, hv, hkept, ⟨sn, hstatus⟩, outsideUnchanged_setMe _ _⟩
  · obtain ⟨hq', hn'⟩ := hland.nowhere hz
    exact ⟨fun j _ => by rw [Slot.qCell, Slot.qCell, hq, hq'], hn.trans hn'⟩
  · obtain ⟨hpd', hn'⟩ := hland.queue hpd
    exact ⟨⟨r, lat, hpush hpd'⟩, hn.trans hn'⟩
  · obtain ⟨⟨hpd', hreg⟩, hother⟩ := hland.register j hj
    exact ⟨⟨r, lat, hpush hpd', (hnc _).trans hreg⟩, fun k hk => (hnc _).trans (hother k hk)⟩

/-- Settles O19: every such word issues without checks and ends with a vector; the frame is that of `finish`. -/
theorem vectorWordsChangeOnlyTheirRegister : Obligations.VectorWordsChangeOnlyTheirRegister := by
  unfold Obligations.VectorWordsChangeOnlyTheirRegister
  intro i f s v hf hp hplain ht
  obtain ⟨d, hd, stall, body, hexec, hbody⟩ := exec_givesVector hf
  obtain ⟨r, lat, sn, hb⟩ := hbody s v
  obtain ⟨hnext, hkept, hstatus, hq, hn, hv⟩ := moved_seq_frame s.me s.me.q s.me.n
    (mapSet s.me.v d.val (cellWrite (s.me.vCell d.val).val lat r)) sn stall.toNat
  have hrun : exec i s = .next (s.setMe (moved (({ s.me with
      q := s.me.q, n := s.me.n, v := mapSet s.me.v d.val (cellWrite (s.me.vCell d.val).val lat r) } : Slot).noteSnan sn)
        stall.toNat .seq)) := by
    rw [hexec, issue_delivers (r := .vec r lat) (p := .seq) (sn := sn) hp rfl rfl (by rw [consumeAll_plain hplain, hb]),
      delivers, consumeAll_plain hplain, hd, finish_vec _ r lat sn ht]
  refine ⟨_, d, hd, hrun, ?_⟩
  · rw [me_setMe]
    refine ⟨⟨_, hnext⟩, hq, hn, ⟨r, lat, ?_⟩, fun j hj => ?_, hkept, ⟨sn, hstatus⟩, outsideUnchanged_setMe _ _⟩
    · rw [Slot.vCell, hv]
      exact mapGet_mapSet_self _ _ _ _
    · rw [Slot.vCell, hv]
      exact mapGet_mapSet_ne _ _ _ hj
end


section
/-!
SUPPORT. What the fetch of a word reads (R54, R57): it does not hang on the current slot, but for its thread.
-/

namespace Sys2Proof.Machine

/-! ### What the fetch of a word reads (R54, R57) -/

/-- A table in which one entry has been replaced by one that passes a test as the old one did. -/
theorem any_mapSet {α : Type} {p : Nat × α → Bool} {d : α} {m : Map α} {k : Nat} {a : α}
    (ha : p (k, a) = p (k, mapGet d m k)) (hd : p (k, d) = false) : (mapSet m k a).any p = m.any p := by
  induction m with
  | nil =>
    rw [mapGet_nil, hd] at ha
    simp [mapSet, ha]
  | cons e m ih =>
    obtain ⟨j, b⟩ := e
    by_cases hjk : j = k
    · subst hjk
      have hb : p (j, a) = p (j, b) := by simpa [mapGet, mapFind] using ha
      simp [mapSet, hb]
    · have hget : mapGet d ((j, b) :: m) k = mapGet d m k := by simp [mapGet, mapFind, hjk]
      rw [hget] at ha
      by_cases hlt : j < k
      · simp [mapSet, hlt, ih ha]
      · have hm : ∀ m : Map α, p (k, mapGet d m k) = true → m.any p = true := by
          intro m hp
          induction m with
          | nil => rw [mapGet_nil, hd] at hp; cases hp
          | cons e m ihm =>
            obtain ⟨i, c⟩ := e
            by_cases hik : i = k
            · subst hik
              simp only [mapGet, mapFind, if_true, Option.getD_some] at hp
              simp [hp]
            · simp only [mapGet, mapFind, hik, if_false] at hp
              simp [ihm hp]
        cases hpa : p (k, a) with
        | false => simp [mapSet, hlt, hjk, hpa]
        | true => simp [mapSet, hlt, hjk, hpa, hm m (ha ▸ hpa)]

theorem ownedWith_setMe (s : State) (x : Slot) (pa : Nat) (p : L1Line → Bool) :
    (s.setMe x).ownedWith pa p = s.ownedWith pa p :=
  any_mapSet (d := Core.reset) rfl rfl

theorem poisoned_setMe (s : State) (x : Slot) (pa : Nat) : (s.setMe x).poisoned pa = s.poisoned pa := by
  simp only [State.poisoned, ownedWith_setMe, setMe_poison]

theorem decodePoisoned_setMe (s : State) (x : Slot) (line : Nat) :
    decodePoisoned (s.setMe x) line = decodePoisoned s line := by
  simp only [decodePoisoned, funext (poisoned_setMe s x)]
  rfl

theorem fillAlias_setMe (s : State) (x : Slot) (pa : Nat) : fillAlias (s.setMe x) pa = (fillAlias s pa).setMe x := by
  simp only [fillAlias, setMe_aliases, decodePoisoned_setMe]
  split
  · rfl
  · simp only [State.setPoison]
    split <;> rfl

theorem homeRead_setMe (s : State) (x : Slot) (pa n : Nat) : homeRead (s.setMe x) pa n = homeRead s pa n := by
  simp only [homeRead, fillAlias_setMe, poisoned_setMe, setMe_aliases, setMe_hostMem, setMe_mem]

theorem inPartition_setMe (s : State) (x : Slot) (part : Nat) : (s.setMe x).inPartition part = s.inPartition part := rfl

/-- A walk reads table entries in memory and asks whom they belong to. -/
theorem walkFrom_congr {s t : State} {part : Nat} (hm : t.mem = s.mem) (hin : t.inPartition part = s.inPartition part)
    (va fuel level base : Nat) : walkFrom t part va fuel level base = walkFrom s part va fuel level base := by
  induction fuel generalizing level base with
  | zero => rfl
  | succ fuel ih =>
    rw [walkFrom, walkFrom, hm, hin]
    simp only [ih]

theorem walk_setMe (s : State) (x : Slot) (part asid va : Nat) : walk (s.setMe x) part asid va = walk s part asid va := by
  simp only [walk, setMe_asrec, walkFrom_congr (setMe_mem s x) (inPartition_setMe s x part)]

theorem lookup_setMe (s : State) (x : Slot) (c part asid va : Nat) :
    lookup (s.setMe x) c part asid va = lookup s c part asid va := by
  have hin := inPartition_setMe s x part
  have hfind : tlbFind (s.setMe x) c part asid va = tlbFind s c part asid va := rfl
  simp only [lookup, walk_setMe, hin, hfind]

theorem translate_setMe (s : State) (x : Slot) (c : Nat) (t : Thread) (need : Need) (va : W64) :
    translate (s.setMe x) c t need va = translate s c t need va := by
  simp only [translate, lookup_setMe]

theorem l1_setMe (s : State) (x : Slot) (c : Nat) : ((s.setMe x).core c).l1 = (s.core c).l1 := by
  by_cases hc : c = s.cur.1
  · subst hc
    simp [State.setMe, State.setSlot]
  · rw [setMe_core_ne s x hc]

theorem ownFlawed_setMe (s : State) (x : Slot) (c pa n : Nat) : ownFlawed (s.setMe x) c pa n = ownFlawed s c pa n := by
  rw [ownFlawed, l1_setMe]
  rfl

theorem ownBytes_setMe (s : State) (x : Slot) (c pa : Nat) (bs : List Byte) :
    ownBytes (s.setMe x) c pa bs = ownBytes s c pa bs := by
  rw [ownBytes, l1_setMe]
  rfl

/-- What is fetched does not hang on the current slot, but for its thread. -/
theorem fetchAt_setMe {s : State} {x : Slot} (hx : x.thread = s.me.thread) (va : W64) :
    fetchAt (s.setMe x) va = fetchAt s va := by
  simp only [fetchAt, setMe_cur, me_setMe, hx, translate_setMe, homeRead_setMe, ownFlawed_setMe, ownBytes_setMe]

/-- The address of a word, counted from the next. -/
theorem wordAfter (va : W64) (i : Nat) : va + 8 * BitVec.ofNat 64 (i + 1) = va + 8 + 8 * BitVec.ofNat 64 i := by
  rw [BitVec.ofNat_add, BitVec.mul_add, BitVec.add_comm (8 * _) _, ← BitVec.add_assoc]
  rfl

/-- The words fetched from an address on, as far as each can be. -/
theorem fetchRun_get {s : State} {va : W64} {n j : Nat} (hj : j < n)
    (h : ∀ i ≤ j, ∃ x, fetchAt s (va + 8 * BitVec.ofNat 64 i) = .word x) :
    ∃ x, fetchAt s (va + 8 * BitVec.ofNat 64 j) = .word x ∧ (fetchRun s va n)[j]? = some x := by
  induction j generalizing va n with
  | zero =>
    obtain ⟨m, rfl⟩ : ∃ m, n = m + 1 := ⟨n - 1, by omega⟩
    obtain ⟨x, hx⟩ := h 0 le_rfl
    have h0 : va + 8 * BitVec.ofNat 64 0 = va := by simp
    rw [h0] at hx ⊢
    exact ⟨x, hx, by simp [fetchRun, hx]⟩
  | succ j ih =>
    obtain ⟨m, rfl⟩ : ∃ m, n = m + 1 := ⟨n - 1, by omega⟩
    obtain ⟨y, hy⟩ := h 0 (Nat.zero_le _)
    rw [show va + 8 * BitVec.ofNat 64 0 = va by simp] at hy
    obtain ⟨x, hx, hget⟩ := ih (va := va + 8) (n := m) (by omega) (fun i hi => by
      rw [← wordAfter]; exact h (i + 1) (by omega))
    exact ⟨x, by rw [wordAfter]; exact hx, by simpa [fetchRun, hy] using hget⟩

end Sys2Proof.Machine
end

section
/-!
PROOFS. The statement about a step that runs the word its slot stands at (R47, R52, R78, R163, R254).
-/

namespace Sys2Proof.Machine
open Sys2Proof.Rules

/-! ### A turn (R47, R52, R78) -/

/-- With no other agent's step under way, a step is the current slot's turn. -/
theorem step_turn {s : State} (h : s.agenda = []) : step s = turnStep s := by
  simp [step, h]

/-- A slot at its turn may issue. -/
theorem mayTurn_of {s : State} (hst : s.me.st = .running ∧ s.me.stall = 0 ∨ ∃ r, s.me.st = .parked r)
    (hgo : s.stopped s.me.thread = false ∨ s.me.retry = true) : mayTurn s = true := by
  have hstop : (!s.stopped s.me.thread || s.me.retry) = true := by
    rcases hgo with h | h <;> simp [h]
  rcases hst with ⟨hr, h0⟩ | ⟨r, hp⟩
  · simp [mayTurn, hstop, hr, h0]
  · simp [mayTurn, hstop, hp]

theorem mayIssue_of {x : Slot} (hst : x.st = .running ∧ x.stall = 0 ∨ ∃ r, x.st = .parked r) : x.mayIssue = true := by
  rcases hst with ⟨hr, -⟩ | ⟨r, hp⟩
  · simp [Slot.mayIssue, hr]
  · simp [Slot.mayIssue, hp]

theorem turnStep_run {s u t : State} {i : Instr} (hm : mayTurn s = true) (hf : fetchTurn s = .run i u)
    (he : exec i u = .next t) : turnStep s = .next (nextTurn t) := by
  simp [turnStep, hm, hf, he]

theorem turnStep_illegal {s u t : State} {w : W64} (hm : mayTurn s = true) (hf : fetchTurn s = .illegal w u)
    (he : execIllegalWord w u = .next t) : turnStep s = .next (nextTurn t) := by
  simp [turnStep, hm, hf, he]

theorem turnStep_spent {s u : State} (hm : mayTurn s = true) (hf : fetchTurn s = .spent u) :
    turnStep s = .next (nextTurn u) := by
  simp [turnStep, hm, hf]

theorem turnStep_passes {s t : State} (hm : mayTurn s = false) (he : exec .turn s = .next t) :
    turnStep s = .next (nextTurn t) := by
  simp [turnStep, hm, he]

/-- The fetch of a turn whose slot reaches a word there. -/
theorem fetchTurn_word {s u u' : State} {w : W64} (hseal : s.myCore.sealDue = false) (hr : reachWord s = (true, u))
    (hw : wordHere u = (some w, u')) :
    (∀ i, decodeWord w.toNat = .ok i → fetchTurn s = .run i u') ∧
      ((∀ i, decodeWord w.toNat ≠ .ok i) → fetchTurn s = .illegal w u') := by
  refine ⟨fun i hi => ?_, fun hi => ?_⟩
  · simp [fetchTurn, hseal, hr, hw, hi]
  · cases hd : decodeWord w.toNat with
    | ok i => exact absurd hd (hi i)
    | error e => simp [fetchTurn, hseal, hr, hw, hd]

/-- A step whose turn reaches a word runs the instruction it decodes to. -/
theorem step_word {s u u' : State} {w : W64} (ha : s.agenda = []) (hm : mayTurn s = true)
    (hseal : s.myCore.sealDue = false) (hr : reachWord s = (true, u)) (hw : wordHere u = (some w, u'))
    (hi : u'.me.mayIssue = true) :
    (∀ i t, decodeWord w.toNat = .ok i → exec i u' = .next t → step s = .next (nextTurn t)) ∧
      ((∀ i, decodeWord w.toNat ≠ .ok i) →
        (u'.me.suspect = false → step s = .next (nextTurn (trapHere u' trapIllegal))) ∧
        (u'.me.suspect = true → step s = .next (nextTurn (rejectWord u')))) := by
  obtain ⟨hrun, hill⟩ := fetchTurn_word hseal hr hw
  rw [step_turn ha]
  refine ⟨fun i t hd he => turnStep_run hm (hrun i hd) he, fun hd => ⟨fun hs => ?_, fun hs => ?_⟩⟩
  · exact turnStep_illegal hm (hill hd) (by simp [execIllegalWord, hi, hs])
  · exact turnStep_illegal hm (hill hd) (by simp [execIllegalWord, hi, hs])

/-- A sealed core stays sealed, and one that is sealed is. -/
theorem sealCore_isSealed (s : State) (c cause : Nat) (word : W64) :
    ((sealCore s c cause word).core c).isSealed = true := by
  unfold sealCore
  split
  · assumption
  · extract_lets k0 tids u v x y w z k
    obtain ⟨_, _, _, _, _, _, hy⟩ := ((sendFault_background z c k (z.slot c k).thread 0x11 word 0 cause word).core c).rest
    rw [hy]
    show (w.core c).isSealed = true
    rw [core_setCore_self]

/-- A slot within its block stands at its word. -/
theorem reachWord_within {s : State} {w : W64} (he : s.me.entering = false)
    (hin : s.me.idx ≤ hdrLen (s.me.block.headD 0) + 1) (hw : s.me.block[s.me.idx]? = some w) :
    reachWord s = (true, s) ∧ wordHere s = (some w, s) := by
  have hb : s.me.block ≠ [] := by rintro h; simp [h] at hw
  have hlen : ¬ s.me.len + 2 ≤ s.me.idx := by simp only [Slot.len]; omega
  exact ⟨by simp [reachWord, he, hb, hlen], by simp [wordHere, hw]⟩

end Sys2Proof.Machine

open Sys2Proof Sys2Proof.Machine Sys2Proof.Rules

/-- Settles O32: the slot stands at its word, which the turn fetches, decodes and runs. -/
theorem stepRunsTheDecodedWord : Obligations.StepRunsTheDecodedWord := by
  unfold Obligations.StepRunsTheDecodedWord
  intro s w ha hst hgo he _ hin hw
  have hm := mayTurn_of hst hgo
  obtain ⟨hr, hh⟩ := reachWord_within he hin hw
  refine ⟨fun hseal => step_word ha hm hseal hr hh (mayIssue_of hst), fun hseal => ?_⟩
  have hf : fetchTurn s = .spent (sealCore s s.cur.1 1 s.me.wordAddr) := by simp [fetchTurn, hseal]
  exact ⟨_, (step_turn ha).trans (turnStep_spent hm hf), sealCore_isSealed _ _ _ _⟩
end

section
/-!
PROOFS. The statement about turns that enter blocks (R48, R52–R54, R78, R254).
-/

namespace Sys2Proof.Machine
open Sys2Proof.Rules

/-! ### Entering blocks (R52–R54) -/

theorem isHeader_iff {h : W64} : isHeader h = true ↔ h.toNat / 2 ^ 56 = 0xFE := by
  have hlt : h.toNat / 2 ^ 56 < 2 ^ 8 := by have := h.isLt; omega
  show (h.toNat / 2 ^ 56 % 2 ^ 8 == 0xFE) = true ↔ _
  rw [Nat.mod_eq_of_lt hlt, beq_iff_eq]

theorem isHeader_false_iff {h : W64} : isHeader h = false ↔ h.toNat / 2 ^ 56 ≠ 0xFE := by
  rw [← Bool.not_eq_true, isHeader_iff]

/-- A block entered: its header h and the words from its first on. -/
def entered (x : Slot) (h : W64) (ws : List W64) : Slot :=
  { x with idx := 1, block := h :: ws, entering := false, passed := 0, lastIdx := 0 }

/-- A slot that has reached a header it may enter. -/
theorem enterHere_enters {s : State} {h : W64} (hal : s.me.hdr.toNat % 8 = 0) (hf : fetchAt s s.me.hdr = .word h)
    (hh : h.toNat / 2 ^ 56 = 0xFE) (hl : h.toNat / 2 ^ 29 % 2 ^ 5 ≤ 16) (ht : s.me.trace = false) :
    enterHere s = (true, s.setMe (entered s.me h (fetchRun s (s.me.hdr + 8) (hdrLen h + 1)))) := by
  have hlive : ¬ 16 < hdrLiveq h := by simpa [hdrLiveq, fld] using hl
  have hq : ∀ u : State, u.me.trace = false → ∀ a, (if hdrQuiet h then u else traceRec u u.cur.1 u.cur.2 0x1 0 a) = u :=
    fun u hu a => by
      split
      · rfl
      · exact traceRec_off hu
  have ht' : (s.setMe (entered s.me h (fetchRun s (s.me.hdr + 8) (hdrLen h + 1)))).me.trace = false := by
    simpa [entered, Slot.trace] using ht
  simp only [enterHere, hal, hf, isHeader_iff.2 hh, hlive, bne_self_eq_false, Bool.not_true, Bool.false_eq_true, if_false]
  exact congrArg (Prod.mk true) (hq _ ht' _)

/-- One whose header names 17 to 31 live entries. -/
theorem enterHere_illegal {s : State} {h : W64} (hal : s.me.hdr.toNat % 8 = 0) (hf : fetchAt s s.me.hdr = .word h)
    (hh : h.toNat / 2 ^ 56 = 0xFE) (hl : 16 < h.toNat / 2 ^ 29 % 2 ^ 5) :
    enterHere s = (false, deliverTrap s s.me.hdr 0 trapIllegal) := by
  have hlive : 16 < hdrLiveq h := by simpa [hdrLiveq, fld] using hl
  simp [enterHere, hal, hf, isHeader_iff.2 hh, hlive]

/-- One that stands at no header. -/
theorem enterHere_bad {s : State} (h : noHeaderAt s s.me.hdr) :
    enterHere s = (false, deliverTrap s s.me.hdr 0 (trapBadtgt s.me.hdr)) := by
  by_cases hal : s.me.hdr.toNat % 8 = 0
  · obtain hal' | ⟨w, hf, hw⟩ := h
    · exact absurd hal hal'
    · simp [enterHere, hal, hf, isHeader_false_iff.2 hw]
  · simp [enterHere, hal]

theorem reachWord_entering {s : State} (h : s.me.entering = true) : reachWord s = enterHere s := by
  simp [reachWord, h]

/-- The first word of a block just entered. -/
theorem wordHere_entered {s : State} {x : Slot} {h w : W64} (hf : fetchAt s (x.hdr + 8) = .word w) (n : Nat) :
    wordHere (s.setMe (entered x h (fetchRun s (x.hdr + 8) (n + 1)))) =
      (some w, s.setMe (entered x h (fetchRun s (x.hdr + 8) (n + 1)))) := by
  have hw : (s.setMe (entered x h (fetchRun s (x.hdr + 8) (n + 1)))).me.block[
      (s.setMe (entered x h (fetchRun s (x.hdr + 8) (n + 1)))).me.idx]? = some w := by
    rw [me_setMe]
    show (fetchRun s (x.hdr + 8) (n + 1))[0]? = some w
    simp only [fetchRun, hf]
    rfl
  simp only [wordHere, hw]

/-- A slot on its way into the block at an address. -/
def reaching (x : Slot) (a : W64) : Slot := { x with hdr := a, idx := 1, block := [], entering := true, passed := 0 }

/-- A slot that has come to the end of its block goes on to the header behind it. -/
theorem reachWord_falls {s : State} {h : W64} (he : s.me.entering = false) (hb : s.me.block ≠ [])
    (hi : s.me.idx = hdrLen (s.me.block.headD 0) + 2) (ht : s.me.trace = false)
    (hf : fetchAt s (s.me.hdr + 8 * BitVec.ofNat 64 s.me.idx) = .word h) (hh : h.toNat / 2 ^ 56 = 0xFE) :
    reachWord s = enterHere (s.setMe (reaching s.me (s.me.hdr + 8 * BitVec.ofNat 64 s.me.idx))) := by
  have hlen : s.me.len + 2 = s.me.idx := by rw [Slot.len, hi]
  have hexit : ∀ i, traceExit s s.cur.1 s.cur.2 i = s := fun i => traceExit_off ht
  simp only [reachWord, he, hb, fallThrough, hlen, hf, isHeader_iff.2 hh, hexit, le_refl, Bool.false_eq_true, if_false,
    if_true, Bool.not_true]
  rfl

/-- A running slot enters the block whose header it has reached, at the end of its turn. -/
theorem reachNext_enters {s u : State} (hst : s.me.st = .running)
    (hreach : s.me.entering = true ∨ s.me.block = [] ∨ s.me.len + 2 ≤ s.me.idx) (hr : reachWord s = (true, u)) :
    reachNext s = u := by
  simp only [reachNext, hst, hreach, hr, and_self, if_true]

end Sys2Proof.Machine

open Sys2Proof Sys2Proof.Machine Sys2Proof.Rules

/-- Settles O33. -/
theorem turnsEnterBlocksOrCountDown : Obligations.TurnsEnterBlocksOrCountDown := by
  unfold Obligations.TurnsEnterBlocksOrCountDown
  refine ⟨fun s ha hst h0 he hgo hseal => ⟨fun h w hal hf hh hl ht hw => ?_, fun h hal hf hh hl => ?_, fun hbad => ?_⟩,
    fun s h a hst ht hreach hal hf hh hl => ?_, fun s => ⟨rfl, fun ha hidle t hturn => ?_⟩⟩
  · have hm := mayTurn_of (.inl ⟨hst, h0⟩) hgo
    have hr := (reachWord_entering he).trans (enterHere_enters hal hf hh hl ht)
    have hstep := step_word ha hm hseal hr (wordHere_entered hw _) (by simp [entered, Slot.mayIssue, hst])
    obtain ⟨hrun, hill⟩ := hstep
    refine ⟨fetchRun s (s.me.hdr + 8) (hdrLen h + 1), fun j hj hall => ?_, hrun, fun hd hs => ?_⟩
    · simp only [wordAfter] at hall ⊢
      exact fetchRun_get (by omega) hall
    · exact (hill hd).1 (by simpa [entered] using hs)
  · have hm := mayTurn_of (.inl ⟨hst, h0⟩) hgo
    have hf' : fetchTurn s = .spent (deliverTrap s s.me.hdr 0 trapIllegal) := by
      simp [fetchTurn, hseal, reachWord_entering he, enterHere_illegal hal hf hh hl]
    exact (step_turn ha).trans (turnStep_spent hm hf')
  · have hm := mayTurn_of (.inl ⟨hst, h0⟩) hgo
    have hf' : fetchTurn s = .spent (deliverTrap s s.me.hdr 0 (trapBadtgt s.me.hdr)) := by
      simp [fetchTurn, hseal, reachWord_entering he, enterHere_bad hbad]
    exact (step_turn ha).trans (turnStep_spent hm hf')
  · refine ⟨fun t => rfl, ?_⟩
    obtain ⟨he, rfl⟩ | ⟨he, hb, hi, rfl⟩ := hreach
    · have hr := (reachWord_entering he).trans (enterHere_enters hal hf hh hl ht)
      rw [reachNext_enters hst (.inl he) hr, me_setMe]
      exact ⟨rfl, rfl, rfl, rfl, rfl⟩
    · have hfall := reachWord_falls he hb hi ht hf hh
      have hr := hfall.trans (enterHere_enters (h := h) (by rw [me_setMe]; exact hal)
        (by rw [fetchAt_setMe (by rfl), me_setMe]; exact hf) hh hl (by rw [me_setMe]; exact ht))
      rw [reachNext_enters hst (.inr (.inr (by rw [Slot.len, hi]))) hr, me_setMe, me_setMe]
      exact ⟨rfl, rfl, rfl, rfl, rfl⟩
  · have hm : mayTurn s = false := by
      rcases hidle with ⟨hr, h0⟩ | h | h | h | ⟨hstop, hretry⟩
      · simp [mayTurn, hr, h0]
      · simp [mayTurn, h]
      · simp [mayTurn, h]
      · simp [mayTurn, h]
      · simp [mayTurn, hstop, hretry]
    exact (step_turn ha).trans (turnStep_passes hm hturn)
end

section
/-!
PROOFS. The refutation of the statement about transfers (R54, R56, R200, R214), by a page fault of the thread that stands for
none.
-/

namespace Sys2Proof.Rules
open Sys2Proof.Machine

/-- A core of cluster 0, which partition 5 owns, with no address space: its running slot stands at the one word of a block at
0x1000 and holds the thread that stands for none, whose partition is 0. -/
def strayThread : State :=
  { State.reset with
    agenda := [], parts := [(5, { Partition.reset with clusters := 1 })]
    cores := [(0, { Core.reset with slots := [(0, { Slot.reset with
      st := .running, hdr := 0x1000, idx := 1, block := [0xFE00000000000000, 0] })] })] }

/-- A branch to the word itself. -/
def strayBranch : JmpC := { stall := 0, disp := 0 }

/-- The branch can issue there. -/
theorem strayThread_poised :
    Poised strayThread noOperands { a := 0, b := 0, c := 0, k := 0, va := 0, vb := 0, vc := 0 } := by
  constructor <;> decide +kernel

/-- Its target is not mapped. -/
theorem strayThread_fetch : fetchAt strayThread (target strayThread 0) = .fail (.page 0x1008 4) := by decide +kernel

/-- The partitions of the flits that a core is to send. -/
def sentFor (o : Out) (c : Nat) : List Nat :=
  match o with
  | .next t => (t.core c).inject.map Flit.part
  | _ => []

/-- The fault message goes out for the partition of the core. -/
theorem strayThread_sends : sentFor (exec (.br strayBranch) strayThread) 0 = [5] := by decide +kernel

end Sys2Proof.Rules

open Sys2Proof Sys2Proof.Machine Sys2Proof.Rules

/-- Refutes O6: where the thread on a running slot is `Thread.none`, the fault message of a branch whose target page-faults is
sent for the partition that owns the core's cluster (`faultPart`), not for the partition of the thread that `FaultSent` asks
for; at `strayThread` these are 5 and 0. -/
theorem not_transfersEnterTheirTargetBlock : ¬ Obligations.TransfersEnterTheirTargetBlock := by
  unfold Obligations.TransfersEnterTheirTargetBlock
  intro h
  obtain ⟨⟨-, hbr, -⟩, -⟩ := h
  obtain ⟨-, hpage⟩ := hbr strayBranch strayThread _ strayThread_poised
  obtain ⟨t, hexec, -, -, -, -, -, -, -, -, -, fl, hinject, -, hpart, -⟩ :=
    hpage 0x1008 4 (by decide +kernel) strayThread_fetch
  have hsent := strayThread_sends
  rw [hexec] at hsent
  have hcore : (strayThread.core strayThread.cur.1).inject = [] := by decide +kernel
  rw [hcore] at hinject
  have hfl : [fl.part] = [5] := by rw [← hsent]; exact (congrArg (List.map Flit.part) hinject).symm
  rw [hpart] at hfl
  exact absurd hfl (by decide +kernel)
end

section
/-!
SUPPORT. The dies under accesses to memory (R231): no move of a line, record or write-back touches a chip scratchpad.
-/

namespace Sys2Proof.Machine

/-! ### Dies: no access to memory touches a chip scratchpad (R231) -/

theorem foldl_dies {α : Type} {f : State → α → State} (h : ∀ s a, (f s a).dies = s.dies) (l : List α) (s : State) :
    (l.foldl f s).dies = s.dies := by
  induction l generalizing s with
  | nil => rfl
  | cons a l ih => exact (ih _).trans (h s a)

@[simp] theorem tlbFill_dies (s : State) (c part asid va : Nat) : (tlbFill s c part asid va).dies = s.dies := by
  unfold tlbFill
  split
  · rfl
  · split <;> rfl

@[simp] theorem setPoison_dies (s : State) (pa : Nat) (b : Bool) : (s.setPoison pa b).dies = s.dies := by
  unfold State.setPoison; split <;> rfl

@[simp] theorem logFault_dies (s : State) (pa kind info : Nat) : (s.logFault pa kind info).dies = s.dies := by
  unfold State.logFault; split <;> rfl

@[simp] theorem setSide_dies (s : State) (pa : Nat) (x : SideBits) : (s.setSide pa x).dies = s.dies := rfl

@[simp] theorem dirWrite_dies (s : State) (pa : Nat) (k : Option Nat) : (dirWrite s pa k).dies = s.dies := by
  unfold dirWrite; dsimp only
  split
  · rfl
  · split <;> rfl

@[simp] theorem dirFill_dies (s : State) (c pa : Nat) : (dirFill s c pa).dies = s.dies := by
  unfold dirFill; dsimp only
  split
  · rfl
  · split <;> rfl

@[simp] theorem returnCopies_dies (s : State) (p : Nat → L1Line → Bool) : (returnCopies s p).dies = s.dies := by
  refine (foldl_dies (fun s l => ?_) _ _).trans (foldl_dies (fun s l => ?_) _ s) <;> split <;> simp

@[simp] theorem dropCopies_dies (s : State) (pa n : Nat) (k : Option Nat) : (dropCopies s pa n k).dies = s.dies := by
  simp [dropCopies]

@[simp] theorem recallOwner_dies (s : State) (c : Option Nat) (pa : Nat) : (recallOwner s c pa).dies = s.dies := by
  unfold recallOwner; dsimp only
  split
  · simp
  · rfl

@[simp] theorem noteBad_dies (s : State) (pa : Nat) (bad : Bool) : (noteBad s pa bad).dies = s.dies := by
  unfold noteBad; split <;> simp

@[simp] theorem noteDecode_dies (s : State) (line : Nat) : (noteDecode s line).dies = s.dies := by
  unfold noteDecode
  split
  · exact foldl_dies (fun s pa => noteBad_dies s pa true) _ s
  · rfl

@[simp] theorem noteRead_dies (s : State) (pa : Nat) : (noteRead s pa).dies = s.dies := by simp [noteRead]

@[simp] theorem fillAlias_dies (s : State) (pa : Nat) : (fillAlias s pa).dies = s.dies := by
  unfold fillAlias; split <;> simp

@[simp] theorem wakeMonitors_dies (s : State) (pa n : Nat) : (wakeMonitors s pa n).dies = s.dies := rfl

@[simp] theorem writeOwn_dies (s : State) (c pa : Nat) (bs : List Byte) : (writeOwn s c pa bs).dies = s.dies := by
  unfold writeOwn
  extract_lets x mine y
  split
  · rw [dirWrite_dies, setCore_dies]
  · rw [dirWrite_dies]
    split <;> rfl

@[simp] theorem homeWrite_dies (s : State) (w : Option Nat) (hc : Bool) (pa : Nat) (bs : List Byte) :
    (homeWrite s w hc pa bs).dies = s.dies := by
  unfold homeWrite
  split
  · rfl
  · extract_lets n u v x
    have hu : u.dies = s.dies := by unfold u; split <;> simp
    have hx : x.dies = s.dies := hu
    split
    · split
      · exact (foldl_dies (fun s a => dirWrite_dies s a none) _ x).trans hx
      · exact (writeOwn_dies _ _ _ _).trans hx
    · exact hx
  · rfl

@[simp] theorem writeBackBytes_dies (s : State) (c : Nat) (l : L1Line) (is : List Nat) :
    (writeBackBytes s c l is).dies = s.dies := by
  induction is generalizing s with
  | nil => rfl
  | cons i is ih =>
    rw [writeBackBytes, ih]
    split <;> simp

@[simp] theorem writeBackLine_dies (s : State) (c : Nat) (l : L1Line) : (writeBackLine s c l).dies = s.dies := by
  have hu : (if l.cls = 0 then s else writeBackBytes s c l (List.range 32)).dies = s.dies := by split <;> simp
  unfold writeBackLine; dsimp only
  split <;> simp [hu]

@[simp] theorem writeBackAll_dies (s : State) (c : Nat) (ls : List L1Line) : (writeBackAll s c ls).dies = s.dies := by
  induction ls generalizing s with
  | nil => rfl
  | cons l ls ih =>
    rw [writeBackAll, ih]
    split <;> simp

@[simp] theorem cleanLines_dies (s : State) (c : Nat) (p : L1Line → Bool) : (cleanLines s c p).dies = s.dies := by
  simp [cleanLines]

@[simp] theorem flushLines_dies (s : State) (c : Nat) (p : L1Line → Bool) : (flushLines s c p).dies = s.dies := by
  simp [flushLines]

@[simp] theorem flushFrom_dies (s : State) (p : L1Line → Bool) (cs : List Nat) : (flushFrom s p cs).dies = s.dies := by
  induction cs generalizing s with
  | nil => rfl
  | cons c cs ih =>
    rw [flushFrom, ih]
    split <;> simp

@[simp] theorem dropSynonyms_dies (s : State) (c : Nat) (t : Thread) (va pa : Nat) :
    (dropSynonyms s c t va pa).dies = s.dies := flushFrom_dies _ _ _

@[simp] theorem scRelease_dies (s : State) (c : Nat) : (scRelease s c).dies = s.dies := by
  unfold scRelease; split <;> simp

@[simp] theorem scAcquire_dies (s : State) (c : Nat) : (scAcquire s c).dies = s.dies := by
  unfold scAcquire; split <;> simp

@[simp] theorem orderAfter_dies (s : State) (c : Nat) (o : Ord) : (orderAfter s c o).dies = s.dies := by
  unfold orderAfter; dsimp only
  split <;> split <;> simp

@[simp] theorem l1Touch_dies (s : State) (c : Nat) (t : Thread) (pol : Policy) (vline : Nat) (f : L1Line → L1Line) :
    (l1Touch s c t pol vline f).dies = s.dies := rfl

@[simp] theorem makeRoom_dies (s : State) (c set : Nat) : (makeRoom s c set).dies = s.dies := by
  unfold makeRoom; dsimp only
  split
  · rfl
  · split <;> simp

@[simp] theorem l1Fill_dies (s : State) (c : Nat) (t : Thread) (pol : Policy) (va pa : Nat) (leaf : W64) :
    (l1Fill s c t pol va pa leaf).dies = s.dies := by
  unfold l1Fill; dsimp only
  split
  · simp
  · split <;> simp

@[simp] theorem loadLoc_dies (s : State) (c : Nat) (t : Thread) (pol : Policy) (va : W64) (loc : Loc) (n : Nat) :
    (loadLoc s c t pol va loc n).2.2.dies = s.dies := by
  cases loc with
  | spd k o => rfl
  | chip d o => rfl
  | hit vline off => simp only [loadLoc]; split <;> simp
  | mem pa leaf =>
    simp only [loadLoc]
    split
    · split <;> split <;> simp
    · split
      · split <;> split <;> simp
      · split <;> split <;> simp

end Sys2Proof.Machine
end

section
/-!
SUPPORT. Accesses where no L1 holds bytes that are not yet at home (R190, R236): no home changes, and a load from memory reads
its home.
-/

namespace Sys2Proof.Machine
open Sys2Proof.Rules

/-! ### Lines that hold nothing to write back (R190, R236) -/

/-- No L1 holds a line of a kind with bytes that are not yet at home. -/
def CleanOf (P : L1Line → Prop) (s : State) : Prop := ∀ e ∈ s.cores, ∀ l ∈ e.2.l1, P l → l.dirty = 0

theorem cleanOf_clean {s : State} (h : Clean s) : CleanOf (fun _ => True) s := fun e he l hl _ => h e he l hl

theorem clean_of_cleanOf {s : State} (h : CleanOf (fun _ => True) s) : Clean s := fun e he l hl => h e he l hl trivial

theorem cleanOf_core {P : L1Line → Prop} {s : State} (h : CleanOf P s) (c : Nat) : ∀ l ∈ (s.core c).l1, P l → l.dirty = 0 := by
  unfold State.core mapGet
  cases hf : mapFind s.cores c with
  | none => intro l hl; cases hl
  | some x => exact h _ (mapFind_mem hf)

/-- A state in which the homes hold what they held, with no line of a kind to write back. -/
structure HomesKept (P : L1Line → Prop) (s t : State) : Prop where
  clean : CleanOf P t
  mem : t.mem = s.mem
  hostMem : t.hostMem = s.hostMem
  poison : t.poison = s.poison

theorem HomesKept.refl {P : L1Line → Prop} {s : State} (h : CleanOf P s) : HomesKept P s s := ⟨h, rfl, rfl, rfl⟩

theorem HomesKept.trans {P : L1Line → Prop} {s t u : State} (h : HomesKept P s t) (g : HomesKept P t u) : HomesKept P s u :=
  ⟨g.clean, g.mem.trans h.mem, g.hostMem.trans h.hostMem, g.poison.trans h.poison⟩

/-- A core replaced by one whose lines of the kind are clean. -/
theorem homesKept_setCore {P : L1Line → Prop} {s : State} (h : CleanOf P s) {c : Nat} {x : Core}
    (hx : ∀ l ∈ x.l1, P l → l.dirty = 0) : HomesKept P s (s.setCore c x) := by
  refine ⟨fun e he => ?_, rfl, rfl, rfl⟩
  rcases mem_mapSet he with rfl | he
  · exact hx
  · exact h e he

theorem tlbFill_homesKept {P : L1Line → Prop} {s : State} (h : CleanOf P s) (c part asid va : Nat) :
    HomesKept P s (tlbFill s c part asid va) := by
  unfold tlbFill
  split
  · exact .refl h
  · split
    · exact ⟨h, rfl, rfl, rfl⟩
    · exact .refl h

theorem flushLines_homesKept {P : L1Line → Prop} {s : State} (h : CleanOf P s) (c : Nat) {p : L1Line → Bool}
    (hp : ∀ l, p l = true → P l) : HomesKept P s (flushLines s c p) := by
  have hw : writeBackAll s c ((s.core c).l1.filter p) = s := writeBackAll_clean (fun l hl => by
    obtain ⟨hl, hpl⟩ := List.mem_filter.1 hl
    exact cleanOf_core h c l hl (hp l hpl))
  rw [flushLines, hw]
  exact homesKept_setCore h (fun l hl => cleanOf_core h c l (List.mem_filter.1 hl).1)

theorem cleanLines_homesKept {P : L1Line → Prop} {s : State} (h : CleanOf P s) (c : Nat) {p : L1Line → Bool}
    (hp : ∀ l, p l = true → P l) : HomesKept P s (cleanLines s c p) := by
  have hw : writeBackAll s c ((s.core c).l1.filter p) = s := writeBackAll_clean (fun l hl => by
    obtain ⟨hl, hpl⟩ := List.mem_filter.1 hl
    exact cleanOf_core h c l hl (hp l hpl))
  rw [cleanLines, hw]
  refine homesKept_setCore h (fun l hl hPl => ?_)
  obtain ⟨m, hm, rfl⟩ := List.mem_map.1 hl
  by_cases hpm : p m = true
  · simp only [hpm, if_true]
  · simp only [hpm, Bool.false_eq_true, if_false] at hPl ⊢
    exact cleanOf_core h c m hm hPl

theorem flushFrom_homesKept {P : L1Line → Prop} {p : L1Line → Bool} (hp : ∀ l, p l = true → P l) (cs : List Nat)
    {s : State} (h : CleanOf P s) : HomesKept P s (flushFrom s p cs) := by
  induction cs generalizing s with
  | nil => exact .refl h
  | cons c cs ih =>
    rw [flushFrom]
    split
    · have hu := flushLines_homesKept h c hp
      exact hu.trans (ih hu.clean)
    · exact ih h

/-- The synonyms of a line are lines of the same 64 bytes. -/
theorem dropSynonyms_homesKept {P : L1Line → Prop} {s : State} (h : CleanOf P s) (c : Nat) (t : Thread) (va : Nat) {pa : Nat}
    (hp : ∀ l : L1Line, l.pline / 2 = pa / 64 → P l) : HomesKept P s (dropSynonyms s c t va pa) := by
  refine flushFrom_homesKept (fun l hl => hp l ?_) _ h
  have hpl : l.pline = pa / 32 := by
    simp only [L1Line.synonym, Bool.and_eq_true, beq_iff_eq] at hl
    exact hl.1
  omega

/-- An owner with nothing to write back is not recalled. -/
theorem recallOwner_cleanOf {P : L1Line → Prop} {s : State} (h : CleanOf P s) (c : Option Nat) {pa : Nat}
    (hp : ∀ l : L1Line, l.pline / 2 = pa / 64 → P l) : recallOwner s c pa = s := by
  have hnone : ¬ s.cores.any (fun e : Nat × Core => e.2.l1.any (fun l =>
      l.owned && l.pline / 2 == pa / 64 && some e.1 != c)) = true := by
    simp only [List.any_eq_true, Bool.and_eq_true, beq_iff_eq, not_exists, not_and]
    rintro e he l hl ⟨ho, hpl⟩
    simp [L1Line.owned, h e he l hl (hp l hpl)] at ho
  simp only [recallOwner]
  exact if_neg hnone

/-- Of a line that no L1 holds dirty only its own mark says whether it is poisoned. -/
theorem poisoned_cleanOf {P : L1Line → Prop} {s : State} (h : CleanOf P s) {pa : Nat}
    (hp : ∀ l : L1Line, l.pline / 2 = pa / 64 → P l) : s.poisoned pa = s.poison.contains (pa / 64) := by
  have key (p : L1Line → Bool) : s.ownedWith pa p = false := by
    simp only [State.ownedWith, List.any_eq_false, Bool.and_eq_true, beq_iff_eq, not_and, Bool.not_eq_true,
      List.any_eq_true, not_exists]
    rintro e he l hl ⟨ho, hpl⟩
    simp [L1Line.owned, h e he l hl (hp l hpl)] at ho
  simp [State.poisoned, key]

theorem logFault_homesKept {P : L1Line → Prop} {s : State} (h : CleanOf P s) (pa kind info : Nat) :
    HomesKept P s (s.logFault pa kind info) := by
  unfold State.logFault; split <;> exact ⟨h, rfl, rfl, rfl⟩

/-! ### Reads of a clean machine -/

theorem noteBad_homesKept {s : State} (h : CleanOf (fun _ => True) s) (pa : Nat) (bad : Bool) :
    HomesKept (fun _ => True) s (noteBad s pa bad) := by
  unfold noteBad
  split
  · rw [recallOwner_cleanOf h none (fun _ _ => trivial)]
    exact logFault_homesKept h _ _ _
  · exact .refl h

theorem noteRead_homesKept {s : State} (h : CleanOf (fun _ => True) s) (pa : Nat) :
    HomesKept (fun _ => True) s (noteRead s pa) := by
  have hfold : ∀ (ls : List Nat) {u : State}, CleanOf (fun _ => True) u →
      HomesKept (fun _ => True) u (ls.foldl (fun s pa => noteBad s pa true) u) := by
    intro ls
    induction ls with
    | nil => exact fun hu => .refl hu
    | cons a ls ih =>
      intro u hu
      have hb := noteBad_homesKept hu a true
      exact hb.trans (ih hb.clean)
  have hb := noteBad_homesKept h pa true
  rw [noteRead, noteDecode]
  split
  · exact hb.trans (hfold _ hb.clean)
  · exact hb

theorem l1Touch_homesKept {s : State} (h : CleanOf (fun _ => True) s) (c : Nat) (t : Thread) (pol : Policy) (vline : Nat) :
    HomesKept (fun _ => True) s (l1Touch s c t pol vline id) := by
  refine homesKept_setCore h (fun l hl _ => ?_)
  obtain ⟨m, hm, rfl⟩ := List.mem_map.1 hl
  have hd := cleanOf_core h c m hm trivial
  split
  · exact hd
  · exact hd

theorem makeRoom_homesKept {s : State} (h : CleanOf (fun _ => True) s) (c set : Nat) :
    HomesKept (fun _ => True) s (makeRoom s c set) := by
  unfold makeRoom; dsimp only
  split
  · exact .refl h
  · split
    · exact flushLines_homesKept h c (fun _ _ => trivial)
    · exact .refl h

theorem dirFill_homesKept {P : L1Line → Prop} {s : State} (h : CleanOf P s) (c pa : Nat) :
    HomesKept P s (dirFill s c pa) := by
  unfold dirFill; dsimp only
  split
  · exact .refl h
  · split <;> exact ⟨h, rfl, rfl, rfl⟩

theorem recallIf_cleanOf {P : L1Line → Prop} {s : State} (h : CleanOf P s) (q : Prop) [Decidable q] (c : Option Nat) {pa : Nat}
    (hp : ∀ l : L1Line, l.pline / 2 = pa / 64 → P l) : (if q then recallOwner s c pa else s) = s := by
  rw [recallOwner_cleanOf h c hp, ite_self]

theorem l1Fill_homesKept {s : State} (h : CleanOf (fun _ => True) s) (c : Nat) (t : Thread) (pol : Policy) (va pa : Nat)
    (leaf : W64) : HomesKept (fun _ => True) s (l1Fill s c t pol va pa leaf) := by
  unfold l1Fill
  extract_lets u same x v w y l z
  have hu : HomesKept (fun _ => True) s u := dropSynonyms_homesKept h c t va (fun _ _ => trivial)
  split
  · exact hu
  · have hv : HomesKept (fun _ => True) u v := homesKept_setCore hu.clean (fun l hl _ =>
      cleanOf_core hu.clean c l (List.mem_filter.1 hl).1 trivial)
    have hw : HomesKept (fun _ => True) v w := by
      unfold w
      rw [recallIf_cleanOf hv.clean _ _ (fun _ _ => trivial)]
      exact makeRoom_homesKept hv.clean _ _
    have hz : HomesKept (fun _ => True) w z := homesKept_setCore hw.clean (fun m hm _ => by
      rcases List.mem_cons.1 hm with rfl | hm
      · rfl
      · exact cleanOf_core hw.clean c m hm trivial)
    refine hu.trans (hv.trans (hw.trans (hz.trans ?_)))
    split
    · exact dirFill_homesKept hz.clean _ _
    · exact .refl hz.clean

/-- A state that is clean and whose memories hold what they held. -/
structure MemKept (s t : State) : Prop where
  clean : CleanOf (fun _ => True) t
  mem : t.mem = s.mem
  hostMem : t.hostMem = s.hostMem

theorem HomesKept.memKept {s t : State} (h : HomesKept (fun _ => True) s t) : MemKept s t := ⟨h.clean, h.mem, h.hostMem⟩

theorem MemKept.trans {s t u : State} (h : MemKept s t) (g : MemKept t u) : MemKept s u :=
  ⟨g.clean, g.mem.trans h.mem, g.hostMem.trans h.hostMem⟩

theorem fillAlias_memKept {s : State} (h : CleanOf (fun _ => True) s) (pa : Nat) : MemKept s (fillAlias s pa) := by
  unfold fillAlias
  split
  · exact ⟨h, rfl, rfl⟩
  · unfold State.setPoison; dsimp only
    split <;> exact ⟨h, rfl, rfl⟩

/-- The state in which a load from memory reads its home: its page cached, synonyms of its line gone, its owner recalled. -/
def missed (s : State) (c : Nat) (t : Thread) (va : W64) (pa : Nat) (leaf : W64) : State :=
  let s := tlbFill s c t.part t.asid va.toNat
  let s := dropSynonyms s c t va.toNat pa
  if leafClass leaf = 0 then recallOwner s (some c) pa else s

theorem missed_homesKept {P : L1Line → Prop} {s : State} (h : CleanOf P s) (c : Nat) (t : Thread) (va : W64) {pa : Nat}
    (leaf : W64) (hp : ∀ l : L1Line, l.pline / 2 = pa / 64 → P l) : HomesKept P s (missed s c t va pa leaf) := by
  have hu := tlbFill_homesKept h c t.part t.asid va.toNat
  have hv := hu.trans (dropSynonyms_homesKept hu.clean c t va.toNat hp)
  unfold missed; dsimp only
  rw [recallIf_cleanOf hv.clean _ _ hp]
  exact hv

/-- A load from memory: the value and its mark are those of its home. -/
theorem loadLoc_mem_value (s : State) (c : Nat) (t : Thread) (pol : Policy) (va : W64) (pa : Nat) (leaf : W64) (n : Nat) :
    (loadLoc s c t pol va (.mem pa leaf) n).1 = (homeRead (missed s c t va pa leaf) pa n).1 ∧
      (loadLoc s c t pol va (.mem pa leaf) n).2.1 = (homeRead (missed s c t va pa leaf) pa n).2 := by
  simp only [loadLoc]
  rw [← missed]
  generalize missed s c t va pa leaf = u
  generalize (if (homeRead u pa n).2 = true then noteRead u pa else u) = w
  split
  · exact ⟨rfl, rfl⟩
  · split
    · exact ⟨rfl, rfl⟩
    · exact ⟨rfl, rfl⟩

/-- A load of a clean machine changes no memory and leaves it clean. -/
theorem loadLoc_memKept {s : State} (h : CleanOf (fun _ => True) s) (c : Nat) (t : Thread) (pol : Policy) (va : W64) (loc : Loc)
    (n : Nat) : MemKept s (loadLoc s c t pol va loc n).2.2 := by
  cases loc with
  | spd k o => exact ⟨h, rfl, rfl⟩
  | chip d o => exact ⟨h, rfl, rfl⟩
  | hit vline off =>
    simp only [loadLoc]
    split
    · exact (l1Touch_homesKept h _ _ _ _).memKept
    · exact ⟨h, rfl, rfl⟩
  | mem pa leaf =>
    have hu : HomesKept _ s (missed s c t va pa leaf) := missed_homesKept h c t va leaf (fun _ _ => trivial)
    simp only [loadLoc]
    rw [← missed]
    generalize missed s c t va pa leaf = u at hu ⊢
    have hv : HomesKept (fun _ => True) u (if (homeRead u pa n).2 = true then noteRead u pa else u) := by
      split
      · exact noteRead_homesKept hu.clean _
      · exact .refl hu.clean
    generalize (if (homeRead u pa n).2 = true then noteRead u pa else u) = w at hv ⊢
    have hw := (hu.trans hv).memKept
    split
    · exact hw.trans (fillAlias_memKept hw.clean _)
    · split
      · exact hw.trans (l1Fill_homesKept hw.clean _ _ _ _ _ _).memKept
      · exact hw

theorem orderAfter_homesKept {s : State} (h : CleanOf (fun _ => True) s) (c : Nat) (o : Ord) :
    HomesKept (fun _ => True) s (orderAfter s c o) := by
  have hrel : HomesKept (fun _ => True) s (if ordReleases o then scRelease s c else s) := by
    split
    · unfold scRelease
      split
      · exact cleanLines_homesKept h c (fun _ _ => trivial)
      · exact .refl h
    · exact .refl h
  unfold orderAfter; dsimp only
  generalize (if ordReleases o then scRelease s c else s) = u at hrel ⊢
  split
  · unfold scAcquire
    split
    · exact hrel.trans (flushLines_homesKept hrel.clean c (fun _ _ => trivial))
    · exact hrel
  · exact hrel

theorem orderAfter_background (s : State) (c : Nat) (o : Ord) : Background s (orderAfter s c o) := by
  have hrel : Background s (if ordReleases o then scRelease s c else s) := by
    split
    · exact scRelease_background _ _
    · exact .refl s
  unfold orderAfter; dsimp only
  split
  · exact hrel.trans (scAcquire_background _ _)
  · exact hrel

end Sys2Proof.Machine
end

section
/-!
PROOFS. The statement about LD (R40, R82, R162, R163, R165).
-/

namespace Sys2Proof.Machine
open Sys2Proof.Rules

/-! ### Addresses and extension (R40, R58) -/

theorem effAddr_eq (off : BitVec 24) (a : W64) : effAddr off a = ea off a := by
  rw [effAddr, ea, BitVec.ofInt_add, BitVec.ofInt_natCast, BitVec.ofNat_toNat, BitVec.setWidth_eq]
  rfl

theorem tyBytes_eq (ty : IntTy) : tyBytes ty = width4 ty / 8 := by cases ty <;> rfl

theorem width4_bytes (ty : IntTy) : 8 * (width4 ty / 8) ≤ 64 := by cases ty <;> decide

/-- A loaded value extended to 64 bits. -/
theorem extend_eq (n b : Nat) (sx : Bool) (hb : b < 2 ^ (8 * n)) :
    BitVec.ofNat 64 (extend n sx b) = if sx then wrap (8 * n) b else BitVec.ofNat 64 b := by
  cases sx with
  | false => simp [extend, Nat.mod_eq_of_lt hb]
  | true =>
    simp only [extend, if_true, BitVec.ofNat_toNat, BitVec.setWidth_eq, wrap]
    rw [BitVec.signExtend, BitVec.toInt_ofNat']

/-! ### Reads of a location (R160–R165) -/

theorem readLe_num (m : Memory) (a n : Nat) : readLe m a n = num m a n := leValue_bytesAt m a n

theorem num_lt_pow (m : Memory) (a n : Nat) : num m a n < 2 ^ (8 * n) := by
  have h := num_lt m a n
  rwa [show (256 : Nat) = 2 ^ 8 by rfl, ← pow_mul] at h

/-- A number that a location holds fits its bytes. -/
theorem valueAt_lt {u : State} {loc : Loc} {n b : Nat} (h : valueAt u loc n = some b) : b < 2 ^ (8 * n) := by
  cases loc with
  | spd k o =>
    simp only [valueAt] at h
    split at h
    · cases h
    · cases h; exact num_lt_pow _ _ _
  | chip d o => cases h; exact num_lt_pow _ _ _
  | hit vline off =>
    simp only [valueAt, Option.bind_eq_some_iff] at h
    obtain ⟨l, -, hl⟩ := h
    split at hl
    · cases hl
    · cases hl; exact Nat.mod_lt _ (Nat.two_pow_pos _)
  | mem pa leaf =>
    simp only [valueAt] at h
    split at h
    · split at h
      · cases h
      · cases h; exact num_lt_pow _ _ _
    · cases h; exact num_lt_pow _ _ _
    · cases h

/-- The lines of the 64 bytes at an address. -/
def Of64 (pa : Nat) (l : L1Line) : Prop := l.pline / 2 = pa / 64

/-- A load of a location whose home is current yields the number there, unmarked. -/
theorem loadLoc_value {u : State} {loc : Loc} {n b : Nat} (pol : Policy) (va : W64) (hc : Current u loc)
    (h : valueAt u loc n = some b) :
    (loadLoc u u.cur.1 u.me.thread pol va loc n).1 = b ∧ (loadLoc u u.cur.1 u.me.thread pol va loc n).2.1 = false := by
  cases loc with
  | spd k o =>
    simp only [valueAt] at h
    split at h
    · cases h
    · next hf =>
      cases h
      exact ⟨readLe_num _ _ _, by simpa [loadLoc] using hf⟩
  | chip d o =>
    cases h
    exact ⟨readLe_num _ _ _, rfl⟩
  | hit vline off =>
    simp only [valueAt, Option.bind_eq_some_iff] at h
    obtain ⟨l, hl, hb⟩ := h
    split at hb
    · cases hb
    · next hf =>
      cases hb
      simp only [loadLoc, hl]
      exact ⟨trivial, by simpa using hf⟩
  | mem pa leaf =>
    have hk := missed_homesKept (P := Of64 pa) (hc pa leaf rfl) u.cur.1 u.me.thread va leaf (fun _ h => h)
    obtain ⟨hv, hm⟩ := loadLoc_mem_value u u.cur.1 u.me.thread pol va pa leaf n
    have hpoison : (missed u u.cur.1 u.me.thread va pa leaf).poisoned pa = u.poisoned pa := by
      rw [poisoned_cleanOf (P := Of64 pa) hk.clean (fun _ h => h), hk.poison,
        poisoned_cleanOf (P := Of64 pa) (s := u) (hc pa leaf rfl) (fun _ h => h)]
    rw [hv, hm]
    simp only [valueAt] at h
    split at h
    · next hr =>
      split at h
      · cases h
      · next hp =>
        cases h
        simp only [homeRead, hr, hk.mem, hpoison, readLe_num]
        exact ⟨trivial, by simpa using hp⟩
    · next hr =>
      cases h
      simp only [homeRead, hr, hk.hostMem, readLe_num]
      exact ⟨trivial, trivial⟩
    · cases h

/-- A load of a location that carries an uncorrectable error is marked. -/
theorem loadLoc_damaged {u : State} {loc : Loc} {n : Nat} (pol : Policy) (va : W64) (hc : Current u loc)
    (h : Damaged u loc n) : (loadLoc u u.cur.1 u.me.thread pol va loc n).2.1 = true := by
  obtain ⟨k, o, rfl, hf⟩ | ⟨pa, leaf, k, rfl, hr, hp⟩ | ⟨vline, off, l, rfl, hl, hf⟩ := h
  · exact hf
  · have hk := missed_homesKept (P := Of64 pa) (hc pa leaf rfl) u.cur.1 u.me.thread va leaf (fun _ h => h)
    have hpoison : (missed u u.cur.1 u.me.thread va pa leaf).poisoned pa = u.poisoned pa := by
      rw [poisoned_cleanOf (P := Of64 pa) hk.clean (fun _ h => h), hk.poison,
        poisoned_cleanOf (P := Of64 pa) (s := u) (hc pa leaf rfl) (fun _ h => h)]
    rw [(loadLoc_mem_value u u.cur.1 u.me.thread pol va pa leaf n).2]
    simp only [homeRead, hr, hpoison, hp]
  · simpa only [loadLoc, hl] using hf

/-! ### Accesses with nothing to wait for (R189, R264, R273) -/

theorem walkDue_cached {u : State} {a : W64} (h : Cached u a) : walkDue u u.cur.1 u.me.thread a = false := by
  unfold walkDue
  rcases h with h | h
  · rw [Option.isNone_eq_false_iff.2 (Option.isSome_iff_ne_none.2 h)]
    simp
  · rw [Option.isNone_eq_false_iff.2 (Option.isSome_iff_ne_none.2 h)]
    simp

/-- Nothing of a thread without REDs and claims stands ahead of its accesses. -/
theorem ownAhead_of_noRed {u : State} (h : NoRed u) (a : W64) (n : Nat) : ownAhead u u.cur.1 u.cur.2 a n = false := by
  have hp := redsPending_of_noRed h
  simp only [redsPending, Bool.or_eq_false_iff, List.any_eq_false, beq_iff_eq] at hp
  obtain ⟨hr, hcl⟩ := hp
  have hme : u.slot u.cur.1 u.cur.2 = u.me := rfl
  simp only [ownAhead, claimMeets, hme, hcl, Bool.false_and, Bool.or_false, List.any_eq_false, Bool.and_eq_true, DefRed.of,
    beq_iff_eq]
  exact fun r hm hand => hr r hm hand.1

/-- An access with nothing to wait for goes on. -/
theorem behindReds_free {u : State} {sp : Space} {a : W64} {n : Nat} {act : Act} (hr : NoRed u) (hf : Free u sp a) :
    behindReds u sp [(a, n)] act = act := by
  obtain ⟨hfence, hcached⟩ := hf
  unfold behindReds
  rw [behindFence_clear (fenced_of_unfenced hfence)]
  by_cases hsp : sp = .glb
  · have hown : behindOwn u [(a, n)] act = act := by simp [behindOwn, ownAhead_of_noRed hr]
    have hwalk : behindWalk u [(a, n)] act = act := behindWalk_cached (by simpa using walkDue_cached (hcached hsp))
    rw [hsp, hwalk, hown]
    rfl
  · simp [hsp]

theorem vals_a {x : Avail} {v : Vals} (h : x.vals = some v) : x.a.val? = some v.a := by
  unfold Avail.vals at h
  split at h
  · next ha _ _ _ _ _ _ => cases h; exact ha
  · cases h

/-- An access that resolves at a multiple of its size neither traps nor faults before the word. -/
theorem accessCheck_passes {s : State} {f : Form} {v : Vals} {sp : Space} {need : Need} {hits : Bool} {n : Nat}
    {g : W64 → W64} (hv : (avail s f).vals = some v) (hal : (g v.a).toNat % n = 0)
    (hres : ∃ l, resolve s s.cur.1 s.me.thread sp need hits (g v.a) n = .ok l) :
    (accessCheck sp need hits n g).mid s (avail s f) = none := by
  obtain ⟨l, hl⟩ := hres
  simp [accessCheck, vals_a hv, accessTrap, hal, hl]

/-! ### LD (R165) -/

/-- The state that LD leaves but for what it owes: the location read, the ordering observed. -/
def afterLoad (x : LdM) (u : State) (a : W64) (loc : Loc) : State :=
  orderAfter (loadLoc u u.cur.1 u.me.thread x.pol a loc (width4 x.w / 8)).2.2 u.cur.1 x.ord

/-- What LD owes. -/
def loadedVal (x : LdM) (u : State) (a : W64) (loc : Loc) : OwedVal :=
  let r := loadLoc u u.cur.1 u.me.thread x.pol a loc (width4 x.w / 8)
  if r.2.1 then .poison else .scalar 0 (BitVec.ofNat 64 (extend (width4 x.w / 8) x.sx r.1))

theorem exec_ld (x : LdM) (s : State) : exec (.ld x) s = execLd x s := rfl

/-- LD of an address with nothing to wait for owes what stands there. -/
theorem execLd_owes {x : LdM} {s : State} {v : Vals} {loc : Loc} (hp : Poised s (formA x.a x.d) v)
    (hr : Reaches s (formA x.a x.d) x.sp needLoad true (ea x.off v.a) (width4 x.w / 8) loc) :
    exec (.ld x) s = .next (owes (afterLoad x (Rules.within s (formA x.a x.d)) (ea x.off v.a) loc) (.s x.d) x.stall
      (loadedVal x (Rules.within s (formA x.a x.d)) (ea x.off v.a) loc)) := by
  obtain ⟨hal, hbefore, hfound, hred, hfree⟩ := hr
  rw [exec_ld, execLd, tyBytes_eq]
  rw [issue_poised hp rfl (accessCheck_passes hp.values (by rw [effAddr_eq]; exact hal) (by rw [effAddr_eq]; exact hbefore))]
  rw [← Rules.within]
  generalize Rules.within s (formA x.a x.d) = u at *
  have hcur : (loadLoc u u.cur.1 u.me.thread x.pol (ea x.off v.a) loc (width4 x.w / 8)).2.2.cur = u.cur :=
    (loadLoc_background _ _ _ _ _ _ _).cur
  simp only [effAddr_eq, hfound, behindReds_free hred hfree, oweScalar, hcur, conclude, hp.agrees, Bool.false_eq_true,
    if_false]
  rfl

/-- Work in the background that leaves the dies alone keeps the cores. -/
theorem coresKept_of_background {u w : State} (h : Background u w) (hd : w.dies = u.dies) : CoresKept u w := by
  refine ⟨h.cur, fun c k => ?_, fun c => ?_, fun d => ?_⟩
  · obtain ⟨m, hm⟩ := h.slot c k
    rw [hm]
  · obtain ⟨_, _, _, _, _, _, hc⟩ := (h.core c).rest
    rw [hc]
    exact ⟨rfl, rfl, rfl⟩
  · rw [State.die, State.die, hd]

end Sys2Proof.Machine

open Sys2Proof Sys2Proof.Machine Sys2Proof.Rules

/-- Settles O35: what the location holds is what the load finds, and neither the load nor its ordering touches more than L1s. -/
theorem loadsYieldTheBytesAtTheirAddress : Obligations.LoadsYieldTheBytesAtTheirAddress := by
  unfold Obligations.LoadsYieldTheBytesAtTheirAddress
  intro x s v loc u n hp hr
  have hexec := execLd_owes hp hr
  refine ⟨afterLoad x u (ea x.off v.a) loc, ⟨_, hexec⟩, fun hc => ⟨fun b hb => ?_, fun hd => ?_⟩, ?_, fun hclean => ?_⟩
  · obtain ⟨hval, hmark⟩ := loadLoc_value x.pol (ea x.off v.a) hc hb
    have howed : loadedVal x u (ea x.off v.a) loc =
        .scalar 0 (if x.sx then wrap (8 * n) b else BitVec.ofNat 64 b) := by
      rw [loadedVal]
      simp only [n] at hval hmark hb ⊢
      simp only [hval, hmark, Bool.false_eq_true, if_false, extend_eq _ _ _ (valueAt_lt hb)]
    rw [hexec, howed]
  · have hmark := loadLoc_damaged x.pol (ea x.off v.a) hc hd
    have howed : loadedVal x u (ea x.off v.a) loc = .poison := by
      rw [loadedVal]
      simp only [n] at hmark
      simp only [hmark, if_true]
    rw [hexec, howed]
  · exact coresKept_of_background ((loadLoc_background _ _ _ _ _ _ _).trans (orderAfter_background _ _ _))
      (by simp [afterLoad])
  · have hload := loadLoc_memKept (cleanOf_clean hclean) u.cur.1 u.me.thread x.pol (ea x.off v.a) loc (width4 x.w / 8)
    have hall := hload.trans (orderAfter_homesKept hload.clean u.cur.1 x.ord).memKept
    exact ⟨hall.mem, hall.hostMem⟩
end

section
/-!
SUPPORT. Rounding (R61, R66): what `roundAt` makes of a number, and what stays the same when a quotient keeps only a
sticky last bit.
-/

namespace Sys2Proof.Machine

open Sys2Proof.Rules

/-! ### Rounding to an integer -/

/-- An integer rounds to itself in every mode. -/
theorem roundsTo_natCast (rm : Rm) (neg : Prop) (k : Nat) : RoundsTo rm neg (k : ℝ) k := by
  have hself : (k : ℝ) ≤ k ∧ (k : ℝ) < k + 1 := ⟨le_rfl, lt_add_one _⟩
  cases rm with
  | rne => simp [RoundsTo]
  | rtz => exact hself
  | rdn => exact ⟨fun _ => hself, fun _ => hself⟩
  | rup => exact ⟨fun _ => hself, fun _ => hself⟩

/-- A rounded number lies within one unit of the number. -/
theorem near_of_roundsTo {rm : Rm} {neg : Prop} {y : ℝ} {k : Nat} (h : RoundsTo rm neg y k) :
    (k : ℝ) < y + 1 ∧ y < k + 1 := by
  have hdown : ((k : ℝ) ≤ y ∧ y < k + 1) → (k : ℝ) < y + 1 ∧ y < k + 1 := fun hd => ⟨by linarith [hd.1], hd.2⟩
  have hup : (y ≤ k ∧ (k : ℝ) < y + 1) → (k : ℝ) < y + 1 ∧ y < k + 1 := fun hu => ⟨hu.2, by linarith [hu.1]⟩
  cases rm with
  | rne =>
    have hnear : |y - k| ≤ 1 / 2 := by linarith [h.1]
    constructor <;> linarith [abs_le.mp hnear]
  | rtz => exact hdown h
  | rdn => exact (em neg).elim (fun hn => hup (h.1 hn)) (fun hn => hdown (h.2 hn))
  | rup => exact (em neg).elim (fun hn => hdown (h.1 hn)) (fun hn => hup (h.2 hn))

theorem le_of_roundsTo {rm : Rm} {neg : Prop} {y : ℝ} {k N : Nat} (h : RoundsTo rm neg y k) (hy : y ≤ N) : k ≤ N := by
  have := (near_of_roundsTo h).1
  exact Nat.lt_succ_iff.mp (by exact_mod_cast (by push_cast; linarith : (k : ℝ) < (N + 1 : Nat)))

theorem ge_of_roundsTo {rm : Rm} {neg : Prop} {y : ℝ} {k N : Nat} (h : RoundsTo rm neg y k) (hy : N ≤ y) : N ≤ k := by
  have := (near_of_roundsTo h).2
  exact Nat.lt_succ_iff.mp (by exact_mod_cast (by push_cast; linarith : (N : ℝ) < (k + 1 : Nat)))

/-- Numbers that compare alike with every half of an integer round alike. -/
theorem roundsTo_congr {rm : Rm} {neg : Prop} {y z : ℝ} {k : Nat}
    (hlt : ∀ N : ℤ, 2 * y < N ↔ 2 * z < N) (hgt : ∀ N : ℤ, (N : ℝ) < 2 * y ↔ (N : ℝ) < 2 * z) (h : RoundsTo rm neg y k) :
    RoundsTo rm neg z k := by
  have below := hlt (2 * k)
  have below' := hlt (2 * k + 2)
  have above := hgt (2 * k)
  have above' := hgt (2 * k - 2)
  have hdown : ((k : ℝ) ≤ y ∧ y < k + 1) → ((k : ℝ) ≤ z ∧ z < k + 1) := by
    rintro ⟨h1, h2⟩
    exact ⟨by by_contra hz; have := below.mpr (by push_cast; linarith); push_cast at this; linarith,
      by have := below'.mp (by push_cast; linarith); push_cast at this; linarith⟩
  have hup : (y ≤ k ∧ (k : ℝ) < y + 1) → (z ≤ k ∧ (k : ℝ) < z + 1) := by
    rintro ⟨h1, h2⟩
    exact ⟨by by_contra hz; have := above.mpr (by push_cast; linarith); push_cast at this; linarith,
      by have := above'.mp (by push_cast; linarith); push_cast at this; linarith⟩
  cases rm with
  | rtz => exact hdown h
  | rdn => exact ⟨fun hn => hup (h.1 hn), fun hn => hdown (h.2 hn)⟩
  | rup => exact ⟨fun hn => hdown (h.1 hn), fun hn => hup (h.2 hn)⟩
  | rne =>
    obtain ⟨hnear, heven⟩ := h
    have hnear' : -(1 : ℝ) ≤ 2 * (y - k) ∧ 2 * (y - k) ≤ 1 := abs_le.mp (by rwa [abs_mul, abs_two])
    have hz : -(1 : ℝ) ≤ 2 * (z - k) ∧ 2 * (z - k) ≤ 1 := by
      constructor
      · by_contra hz
        have := (hlt (2 * k - 1)).mpr (by push_cast; linarith)
        push_cast at this
        linarith
      · by_contra hz
        have := (hgt (2 * k + 1)).mpr (by push_cast; linarith)
        push_cast at this
        linarith
    refine ⟨by rw [← abs_two, ← abs_mul]; exact abs_le.mpr hz, fun htie => heven ?_⟩
    rw [← abs_two, ← abs_mul] at htie ⊢
    refine le_antisymm (abs_le.mpr hnear') ?_
    rcases (abs_eq zero_le_one).mp htie with htop | hbottom
    · by_contra hy
      have := (hlt (2 * k + 1)).mp (by push_cast; linarith [lt_of_abs_lt (not_le.mp hy)])
      push_cast at this
      linarith
    · by_contra hy
      have := (hgt (2 * k - 1)).mp (by push_cast; linarith [neg_lt_of_abs_lt (not_le.mp hy)])
      push_cast at this
      linarith

/-- An integer and a fraction rounded: the next integer is taken where the mode's condition on the fraction holds. -/
theorem roundsTo_add_fraction (rm : Rm) (neg : Bool) (lo : Nat) {t : ℝ} (h0 : 0 ≤ t) (h1 : t < 1) (up : Bool)
    (hup : up = true ↔ match rm with
      | .rne => 1 / 2 < t ∨ (t = 1 / 2 ∧ lo % 2 = 1)
      | .rtz => False
      | .rdn => neg = true ∧ t ≠ 0
      | .rup => neg = false ∧ t ≠ 0) :
    RoundsTo rm (neg = true) (lo + t) (if up then lo + 1 else lo) := by
  have pos_of_ne : t ≠ 0 → 0 < t := fun h => lt_of_le_of_ne h0 (Ne.symm h)
  cases rm with
  | rtz =>
    have : up = false := by simpa using hup
    subst this
    exact ⟨by simp; linarith, by simp; linarith⟩
  | rdn =>
    cases neg <;> cases up <;> simp at hup <;> simp [RoundsTo]
    · exact ⟨h0, h1⟩
    · subst hup; simp
    · exact ⟨h1.le, pos_of_ne hup⟩
  | rup =>
    cases neg <;> cases up <;> simp at hup <;> simp [RoundsTo]
    · subst hup; simp
    · exact ⟨h1.le, pos_of_ne hup⟩
    · exact ⟨h0, h1⟩
  | rne =>
    cases up with
    | false =>
      have hup' : ¬ (1 / 2 < t ∨ (t = 1 / 2 ∧ lo % 2 = 1)) := fun h => absurd (hup.mpr h) (by simp)
      push Not at hup'
      have habs : |(lo : ℝ) + t - lo| = t := by rw [add_sub_cancel_left, abs_of_nonneg h0]
      simp only [RoundsTo, Bool.false_eq_true, if_false, habs]
      exact ⟨by linarith [hup'.1], fun h => by have := hup'.2 (by linarith); omega⟩
    | true =>
      have hup' := hup.mp rfl
      have habs : |(lo : ℝ) + t - (lo + 1 : Nat)| = 1 - t := by
        rw [show (lo : ℝ) + t - (lo + 1 : Nat) = -(1 - t) by push_cast; ring, abs_neg, abs_of_nonneg (by linarith)]
      simp only [RoundsTo, if_true, habs]
      refine ⟨by rcases hup' with h | h <;> linarith, fun h => ?_⟩
      rcases hup' with h' | h'
      · linarith
      · omega

/-- `roundAt` rounds m × 2^e to a multiple of 2^q. -/
theorem roundsTo_roundAt (rm : Rm) (neg : Bool) (m : Nat) (e q : Int) :
    RoundsTo rm (neg = true) ((m : ℝ) * 2 ^ e / 2 ^ q) (roundAt rm neg m e q) := by
  unfold roundAt
  split
  · next hle =>
    have : (m : ℝ) * 2 ^ e / 2 ^ q = (m <<< (e - q).toNat : Nat) := by
      rw [Nat.shiftLeft_eq, mul_div_assoc, ← zpow_sub₀ two_ne_zero]
      push_cast
      rw [← zpow_natCast, Int.toNat_of_nonneg (by omega)]
    rw [this]
    exact roundsTo_natCast rm _ _
  · next hlt =>
    set s := (q - e).toNat with hs
    have hP : (0 : ℝ) < 2 ^ s := by positivity
    have hlt' : m % 2 ^ s < 2 ^ s := Nat.mod_lt _ (by positivity)
    have hval : (m : ℝ) * 2 ^ e / 2 ^ q = (m >>> s : Nat) + ((m % 2 ^ s : Nat) : ℝ) / 2 ^ s := by
      rw [mul_div_assoc, ← zpow_sub₀ two_ne_zero, show e - q = -(s : ℤ) by omega, zpow_neg, zpow_natCast,
        Nat.shiftRight_eq_div_pow, ← div_eq_mul_inv, div_eq_iff hP.ne', add_mul, div_mul_cancel₀ _ hP.ne']
      exact_mod_cast (Nat.div_add_mod' m (2 ^ s)).symm
    rw [hval]
    refine roundsTo_add_fraction rm neg (m >>> s) (by positivity) (by rw [div_lt_one hP]; exact_mod_cast hlt') _ ?_
    have hhalf : (1 / 2 : ℝ) < ((m % 2 ^ s : Nat) : ℝ) / 2 ^ s ↔ 2 ^ s < 2 * (m % 2 ^ s) := by
      rw [lt_div_iff₀ hP, div_mul_eq_mul_div, one_mul, div_lt_iff₀' two_pos]
      exact_mod_cast Iff.rfl
    have htie : ((m % 2 ^ s : Nat) : ℝ) / 2 ^ s = 1 / 2 ↔ 2 * (m % 2 ^ s) = 2 ^ s := by
      rw [div_eq_iff hP.ne', div_mul_eq_mul_div, one_mul, eq_div_iff two_ne_zero, mul_comm]
      exact_mod_cast Iff.rfl
    have hzero : ((m % 2 ^ s : Nat) : ℝ) / 2 ^ s ≠ 0 ↔ m % 2 ^ s ≠ 0 := by
      rw [Ne, div_eq_zero_iff, or_iff_left hP.ne']
      exact_mod_cast Iff.rfl
    cases rm with
    | rne => rw [hhalf, htie]; simp
    | rtz => simp
    | rdn => rw [hzero]; simp
    | rup => rw [hzero]; simp

end Sys2Proof.Machine
end
section
/-!
SUPPORT. Magnitude codes (R59, R65): the number that a code of a layout with exponent bits stands for, that it grows with
the code, and the code that `magCode` makes of a number.
-/

namespace Sys2Proof.Machine

open Sys2Proof.Rules

/-! ### The magnitude of a code -/

/-- The magnitude of a code with mb fraction bits and the least exponent emin, where the lowest exponent field is
subnormal and the exponent range has no upper end. -/
def codeValue (mb : Nat) (emin : Int) (c : Nat) : ℚ :=
  if c < 2 ^ mb then (c : ℚ) * (2 : ℚ) ^ (emin - mb)
  else ((c % 2 ^ mb + 2 ^ mb : Nat) : ℚ) * (2 : ℚ) ^ ((c / 2 ^ mb : Nat) + emin - 1 - mb)

/-- A code of binade j above the least one is its significand in units of the binade's last place, up to the first code
of the next binade. -/
theorem codeValue_binade (mb : Nat) (emin : Int) (j k : Nat) (hk : k ≤ 2 ^ (mb + 1)) (hj : j = 0 ∨ 2 ^ mb ≤ k) :
    codeValue mb emin (j <<< mb + k) = k * (2 : ℚ) ^ (emin + j - mb) := by
  have hpos : 0 < 2 ^ mb := by positivity
  rw [pow_succ] at hk
  rw [Nat.shiftLeft_eq, codeValue]
  rcases lt_or_ge k (2 ^ mb) with hlt | hge
  · obtain rfl : j = 0 := hj.resolve_right (by omega)
    rw [if_pos (by simpa using hlt)]
    simp
  · have hnot : ¬ j * 2 ^ mb + k < 2 ^ mb := by
      have := Nat.zero_le (j * 2 ^ mb)
      omega
    rw [if_neg hnot]
    rcases lt_or_eq_of_le hk with hlt | rfl
    · have hsplit : j * 2 ^ mb + k = (k - 2 ^ mb) + 2 ^ mb * (j + 1) := by
        rw [mul_add, mul_comm (2 ^ mb) j]
        omega
      rw [hsplit, Nat.add_mul_mod_self_left, Nat.add_mul_div_left _ _ hpos, Nat.mod_eq_of_lt (by omega),
        Nat.div_eq_of_lt (by omega), Nat.sub_add_cancel hge]
      congr 2
      push_cast
      ring
    · have hsplit : j * 2 ^ mb + 2 ^ mb * 2 = 0 + 2 ^ mb * (j + 2) := by ring
      rw [hsplit, Nat.add_mul_mod_self_left, Nat.add_mul_div_left _ _ hpos, Nat.zero_mod, Nat.zero_div, zero_add,
        Nat.zero_add, show emin + (j : ℤ) - mb = ((j + 2 : Nat) + emin - 1 - mb) - 1 by push_cast; ring,
        zpow_sub_one₀ two_ne_zero]
      push_cast
      ring

/-- Every code stands in a binade. -/
theorem exists_binade (mb c : Nat) : ∃ j k, c = j <<< mb + k ∧ k < 2 ^ (mb + 1) ∧ (j = 0 ∨ 2 ^ mb ≤ k) := by
  have hpos : 0 < 2 ^ mb := by positivity
  rcases lt_or_ge c (2 ^ mb) with hlt | hge
  · exact ⟨0, c, by simp, by rw [pow_succ]; omega, .inl rfl⟩
  · refine ⟨c / 2 ^ mb - 1, c % 2 ^ mb + 2 ^ mb, ?_, ?_, .inr (by omega)⟩
    · have hone : 1 ≤ c / 2 ^ mb := (Nat.one_le_div_iff hpos).mpr hge
      have hmul : (c / 2 ^ mb - 1) * 2 ^ mb + 2 ^ mb = c / 2 ^ mb * 2 ^ mb := by
        rw [← Nat.succ_mul, Nat.succ_eq_add_one, Nat.sub_add_cancel hone]
      have := Nat.div_add_mod' c (2 ^ mb)
      rw [Nat.shiftLeft_eq]
      omega
    · have := Nat.mod_lt c hpos
      rw [pow_succ]
      omega

theorem codeValue_strictMono (mb : Nat) (emin : Int) : StrictMono (codeValue mb emin) := by
  refine strictMono_nat_of_lt_succ fun c => ?_
  obtain ⟨j, k, rfl, hk, hj⟩ := exists_binade mb c
  rw [Nat.add_assoc, codeValue_binade mb emin j k hk.le hj, codeValue_binade mb emin j (k + 1) hk (hj.imp_right (by omega))]
  have : (0 : ℚ) < 2 ^ (emin + (j : ℤ) - mb) := by positivity
  push_cast
  linarith

@[simp] theorem codeValue_zero (mb : Nat) (emin : Int) : codeValue mb emin 0 = 0 := by simp [codeValue]

/-- The first code of binade j. -/
theorem codeValue_first (mb : Nat) (emin : Int) (j : Nat) : codeValue mb emin ((j + 1) * 2 ^ mb) = (2 : ℚ) ^ (emin + j) := by
  have h := codeValue_binade mb emin j (2 ^ mb) (Nat.pow_le_pow_right two_pos (Nat.le_succ mb)) (.inr le_rfl)
  rw [Nat.shiftLeft_eq, ← Nat.succ_mul] at h
  rw [← Nat.succ_eq_add_one, h]
  push_cast
  rw [← zpow_natCast, ← zpow_add₀ two_ne_zero]
  congr 1
  ring

/-! ### The code of a number -/

/-- A non-zero number lies in the binade of its leading bit. -/
theorem log2_binade {m : Nat} (hm : m ≠ 0) (e : Int) :
    (2 : ℝ) ^ ((Nat.log2 m : Int) + e) ≤ (m : ℝ) * 2 ^ e ∧ (m : ℝ) * 2 ^ e < 2 ^ ((Nat.log2 m : Int) + e + 1) := by
  have hpos : (0 : ℝ) < 2 ^ e := by positivity
  have hlow : (2 : ℝ) ^ Nat.log2 m ≤ m := by exact_mod_cast Nat.log2_self_le hm
  have hhigh : (m : ℝ) < 2 ^ (Nat.log2 m + 1) := by exact_mod_cast Nat.lt_log2_self
  have hnext : (Nat.log2 m : Int) + e + 1 = ((Nat.log2 m + 1 : Nat) : Int) + e := by
    push_cast
    ring
  rw [hnext, zpow_add₀ two_ne_zero, zpow_natCast, zpow_add₀ two_ne_zero, zpow_natCast]
  exact ⟨mul_le_mul_of_nonneg_right hlow hpos.le, mul_lt_mul_of_pos_right hhigh hpos⟩

/-- The code c of a magnitude v ≠ 0: v rounded in units of the last place of its binade, or of the subnormals (R61, R66). -/
def CodeOf (mb : Nat) (emin : Int) (rm : Rm) (neg : Bool) (v : ℝ) (c : Nat) : Prop :=
  ∃ (x : Int) (k : Nat), (2 : ℝ) ^ x ≤ v ∧ v < (2 : ℝ) ^ (x + 1) ∧
    RoundsTo rm (neg = true) (v / (2 : ℝ) ^ (max x emin - mb)) k ∧
    ((codeValue mb emin c : ℚ) : ℝ) = k * (2 : ℝ) ^ (max x emin - mb)

theorem codeOf_magCode (mb : Nat) (emin : Int) (rm : Rm) (neg : Bool) {m : Nat} (hm : m ≠ 0) (e : Int) :
    CodeOf mb emin rm neg ((m : ℝ) * 2 ^ e) (magCode mb emin rm neg m e) := by
  obtain ⟨hlow, hhigh⟩ := log2_binade hm e
  set x : Int := (Nat.log2 m : Int) + e with hx
  set k := roundAt rm neg m e (max x emin - mb) with hk
  have hround : RoundsTo rm (neg = true) ((m : ℝ) * 2 ^ e / 2 ^ (max x emin - mb)) k := roundsTo_roundAt rm neg m e _
  have hulp : (0 : ℝ) < 2 ^ (max x emin - (mb : ℤ)) := by positivity
  refine ⟨x, k, hlow, hhigh, hround, ?_⟩
  have htop : k ≤ 2 ^ (mb + 1) := by
    refine le_of_roundsTo hround ?_
    rw [div_le_iff₀ hulp]
    push_cast
    rw [← zpow_natCast, ← zpow_add₀ two_ne_zero]
    refine hhigh.le.trans (zpow_le_zpow_right₀ one_le_two ?_)
    push_cast
    omega
  have hbottom : (max x emin - emin).toNat = 0 ∨ 2 ^ mb ≤ k := by
    rcases le_or_gt x emin with hle | hgt
    · exact .inl (by omega)
    · refine .inr (ge_of_roundsTo hround ?_)
      rw [le_div_iff₀ hulp]
      push_cast
      rw [← zpow_natCast, ← zpow_add₀ two_ne_zero]
      refine le_trans (zpow_le_zpow_right₀ one_le_two ?_) hlow
      omega
  have hcode : magCode mb emin rm neg m e = (max x emin - emin).toNat <<< mb + k := rfl
  rw [hcode, codeValue_binade mb emin _ k htop hbottom]
  push_cast
  congr 2
  omega

/-! ### Sticky quotients (R107) -/

/-- d and y compare alike with every even integer, and d has leading bits to spare. -/
def Sticky (d : Nat) (y : ℝ) : Prop :=
  2 ^ 16 ≤ d ∧ ∀ N : ℤ, (y < 2 * N ↔ (d : ℝ) < 2 * N) ∧ (2 * N < y ↔ (2 * N : ℝ) < d)

/-- A quotient whose last bit records a remainder stands for the exact one. -/
theorem sticky_oddDiv (a b : Nat) (hb : b ≠ 0) (hbig : 2 ^ 15 ≤ a / b) : Sticky (oddDiv a b) (2 * ((a : ℝ) / b)) := by
  have hpos : (0 : ℝ) < b := by exact_mod_cast Nat.pos_of_ne_zero hb
  have hmod : a % b < b := Nat.mod_lt _ (Nat.pos_of_ne_zero hb)
  have hval : (a : ℝ) / b = (a / b : Nat) + ((a % b : Nat) : ℝ) / b := by
    rw [div_eq_iff hpos.ne', add_mul, div_mul_cancel₀ _ hpos.ne']
    exact_mod_cast (Nat.div_add_mod' a b).symm
  refine ⟨by unfold oddDiv; omega, fun N => ?_⟩
  rw [hval]
  by_cases hzero : a % b = 0
  · simp [oddDiv, hzero]
  · have h0 : (0 : ℝ) < ((a % b : Nat) : ℝ) / b := div_pos (by exact_mod_cast Nat.pos_of_ne_zero hzero) hpos
    have h1 : ((a % b : Nat) : ℝ) / b < 1 := by rw [div_lt_one hpos]; exact_mod_cast hmod
    set t := ((a % b : Nat) : ℝ) / b
    simp only [oddDiv, hzero, if_false]
    generalize a / b = n
    have below : (n : ℝ) + t < N ↔ (n : ℤ) < N := by
      constructor
      · intro h
        exact_mod_cast (by linarith : (n : ℝ) < N)
      · intro h
        have : ((n : ℤ) : ℝ) + 1 ≤ N := by exact_mod_cast h
        push_cast at this
        linarith
    have above : (N : ℝ) < n + t ↔ N ≤ (n : ℤ) := by
      constructor
      · intro h
        exact Int.lt_add_one_iff.mp (by exact_mod_cast (by push_cast; linarith : (N : ℝ) < ((n : ℤ) + 1 : ℤ)))
      · intro h
        have : (N : ℝ) ≤ ((n : ℤ) : ℝ) := by exact_mod_cast h
        push_cast at this
        linarith
    constructor
    · rw [mul_lt_mul_iff_right₀ two_pos, below]
      have : ((2 * n + 1 : Nat) : ℝ) < 2 * N ↔ (2 * n + 1 : ℤ) < 2 * N := by exact_mod_cast Iff.rfl
      rw [this]
      omega
    · rw [mul_lt_mul_iff_right₀ two_pos, above]
      have : (2 * N : ℝ) < ((2 * n + 1 : Nat) : ℝ) ↔ 2 * N < (2 * n + 1 : ℤ) := by exact_mod_cast Iff.rfl
      rw [this]
      omega

/-- A sticky number and the number that it stands for round alike at every place above its two last bits. -/
theorem roundsTo_of_sticky {d : Nat} {y : ℝ} (h : Sticky d y) {rm : Rm} {neg : Prop} {k : Nat} {e q : Int} (hq : e + 2 ≤ q)
    (hround : RoundsTo rm neg ((d : ℝ) * 2 ^ e / 2 ^ q) k) : RoundsTo rm neg (y * 2 ^ e / 2 ^ q) k := by
  obtain ⟨-, h⟩ := h
  obtain ⟨s, hs⟩ : ∃ s : Nat, q = e + 2 + s := ⟨(q - e - 2).toNat, by omega⟩
  have hscale (z : ℝ) : 2 * (z * 2 ^ e / 2 ^ q) = z / (2 * 2 ^ s) := by
    rw [hs, zpow_add₀ two_ne_zero, zpow_add₀ two_ne_zero, zpow_natCast]
    have : (2 : ℝ) ^ e ≠ 0 := by positivity
    field_simp
  have hpos : (0 : ℝ) < 2 * 2 ^ s := by positivity
  have heven (N : ℤ) : (N : ℝ) * (2 * 2 ^ s) = 2 * ((N * 2 ^ s : ℤ) : ℝ) := by
    push_cast
    ring
  refine roundsTo_congr (fun N => ?_) (fun N => ?_) hround
  · rw [hscale, hscale, div_lt_iff₀ hpos, div_lt_iff₀ hpos, heven]
    exact (h (N * 2 ^ s)).1.symm
  · rw [hscale, hscale, lt_div_iff₀ hpos, lt_div_iff₀ hpos, heven]
    exact (h (N * 2 ^ s)).2.symm

/-- A sticky number stands in the binade of the number that it stands for. -/
theorem binade_of_sticky {d : Nat} {y : ℝ} (h : Sticky d y) {L : Nat} (hL : 1 ≤ L) :
    ((2 : ℝ) ^ L ≤ d ↔ (2 : ℝ) ^ L ≤ y) := by
  obtain ⟨s, rfl⟩ : ∃ s, L = s + 1 := ⟨L - 1, by omega⟩
  have := (h.2 ((2 ^ s : ℕ) : ℤ)).1
  rw [← not_lt, ← not_lt, not_iff_not, pow_succ', show (2 : ℝ) * 2 ^ s = 2 * (((2 ^ s : ℕ) : ℤ) : ℝ) by push_cast; ring]
  exact this.symm

/-- What a finite number (m, e) of the model stands for: exactly, or as a sticky quotient. -/
def StandsFor (m : Nat) (e : Int) (v : ℝ) : Prop := (m : ℝ) * 2 ^ e = v ∨ ∃ y, Sticky m y ∧ v = y * 2 ^ e

theorem codeOf_of_sticky {mb : Nat} (hmb : mb ≤ 8) (emin : Int) {rm : Rm} {neg : Bool} {d : Nat} {y : ℝ} (h : Sticky d y)
    (e : Int) : CodeOf mb emin rm neg (y * 2 ^ e) (magCode mb emin rm neg d e) := by
  have hd : d ≠ 0 := by have := h.1; omega
  have hlog : 16 ≤ Nat.log2 d := (Nat.le_log2 hd).mpr h.1
  obtain ⟨hlow, hhigh⟩ := log2_binade hd e
  obtain ⟨x, k, hx, hx', hround, hvalue⟩ := codeOf_magCode mb emin rm neg hd e
  have hxL : x = (Nat.log2 d : Int) + e := by
    have h1 := (zpow_lt_zpow_iff_right₀ (one_lt_two : (1 : ℝ) < 2)).mp (hx.trans_lt hhigh)
    have h2 := (zpow_lt_zpow_iff_right₀ (one_lt_two : (1 : ℝ) < 2)).mp (hlow.trans_lt hx')
    omega
  subst hxL
  have hpos : (0 : ℝ) < 2 ^ e := by positivity
  have hbottom : (2 : ℝ) ^ Nat.log2 d ≤ y :=
    (binade_of_sticky h (by omega)).mp (by exact_mod_cast Nat.log2_self_le hd)
  have htop : y < (2 : ℝ) ^ (Nat.log2 d + 1) := by
    rw [← not_le, ← binade_of_sticky h (by omega), not_le]
    exact_mod_cast Nat.lt_log2_self
  refine ⟨_, k, ?_, ?_, roundsTo_of_sticky h (by omega) hround, hvalue⟩
  · rw [zpow_add₀ two_ne_zero, zpow_natCast]
    exact mul_le_mul_of_nonneg_right hbottom hpos.le
  · rw [show (Nat.log2 d : Int) + e + 1 = ((Nat.log2 d + 1 : Nat) : Int) + e by push_cast; ring,
      zpow_add₀ two_ne_zero, zpow_natCast]
    exact mul_lt_mul_of_pos_right htop hpos

/-- `magCode` rounds the number that its operand stands for. -/
theorem codeOf_magCode_of_standsFor {mb : Nat} (hmb : mb ≤ 8) (emin : Int) (rm : Rm) (neg : Bool) {m : Nat} (hm : m ≠ 0)
    {e : Int} {v : ℝ} (h : StandsFor m e v) : CodeOf mb emin rm neg v (magCode mb emin rm neg m e) := by
  rcases h with rfl | ⟨y, hy, rfl⟩
  · exact codeOf_magCode mb emin rm neg hm e
  · exact codeOf_of_sticky hmb emin hy e

end Sys2Proof.Machine
end
section
/-!
SUPPORT. Narrow formats (R64–R66): the number that a code stands for, the image's bounds on its fields, and the code that
a number is written as.
-/

namespace Sys2Proof.Machine

open Sys2Proof.Rules

/-! ### Reading (R65) -/

/-- A finite number of the model as a rational. -/
def finValue (neg : Bool) (m : Nat) (e : Int) : ℚ := (if neg then -1 else 1) * (m : ℚ) * (2 : ℚ) ^ e

@[simp] theorem ofNum_fin (neg : Bool) (m : Nat) (e : Int) : ofNum (.fin neg m e) = .real neg (finValue neg m e) := rfl

theorem abs_finValue (neg : Bool) (m : Nat) (e : Int) : |((finValue neg m e : ℚ) : ℝ)| = (m : ℝ) * 2 ^ e := by
  have : (0 : ℝ) ≤ (m : ℝ) * 2 ^ e := by positivity
  cases neg <;> simp [finValue, abs_mul]

theorem finValue_eq_zero (neg : Bool) (m : Nat) (e : Int) : finValue neg m e = 0 ↔ m = 0 := by
  have : (2 : ℚ) ^ e ≠ 0 := by positivity
  cases neg <;> simp [finValue, this]

theorem finValue_neg_iff (neg : Bool) {m : Nat} (hm : m ≠ 0) (e : Int) : finValue neg m e < 0 ↔ neg = true := by
  have : (0 : ℚ) < (m : ℚ) * 2 ^ e := by have := Nat.pos_of_ne_zero hm; positivity
  cases neg <;> simp [finValue] <;> linarith

/-- A code read by its format is the number of R65. -/
theorem ofNum_read (n : Narrow) (topx : Bool) (c : Nat) : ofNum (n.read topx c) = narrowSource n topx c := by
  have hm : c % 2 ^ n.mb ≤ 2 ^ n.mb := (Nat.mod_lt _ (by positivity)).le
  unfold Narrow.read narrowSource
  simp only [Nat.shiftRight_eq_div_pow, Nat.add_comm n.mb n.eb]
  generalize (n.sign && c / 2 ^ (n.eb + n.mb) % 2 == 1) = s
  generalize c / 2 ^ n.mb % 2 ^ n.eb = e
  generalize c % 2 ^ n.mb = m at hm
  simp only [Bool.and_eq_true, decide_eq_true_eq, Bool.not_eq_true', beq_iff_eq, and_assoc]
  split
  · cases s
    · simp [finValue]
    · simp [finValue, Nat.cast_sub hm]
  split
  · split <;> rfl
  split
  · rfl
  split
  · cases n.sub <;> simp [finValue]
  · rfl

/-! ### The fields of a format -/

/-- The bounds of a format's fields (R64). -/
def Shaped (n : Narrow) : Prop := n.width = n.sign.toNat + n.eb + n.mb ∧ 2 ≤ n.width ∧ n.width ≤ 8

theorem shaped_of_imageValid {i : BitVec 32} (h : imageValid i = true) : Shaped (narrowOf i) := by
  simp only [imageValid, Bool.and_eq_true, beq_iff_eq, decide_eq_true_eq] at h
  obtain ⟨⟨⟨hw, h2⟩, h8⟩, -⟩ := h
  exact ⟨hw, h2, h8⟩

theorem mb_le_of_shaped {n : Narrow} (h : Shaped n) : n.mb ≤ 8 := by
  obtain ⟨hw, -, h8⟩ := h
  omega

/-- The code of the largest finite value in the spelling of R65. -/
theorem maxCode_eq (n : Narrow) (topx : Bool) : n.maxCode topx =
    if n.eb < 4 then 2 ^ (n.eb + n.mb) - 1 else if topx then 2 ^ (n.eb + n.mb) - 2 else (2 ^ n.eb - 1) * 2 ^ n.mb - 1 := by
  unfold Narrow.maxCode
  rw [Nat.shiftLeft_eq]

theorem maxCode_lt (n : Narrow) (topx : Bool) : n.maxCode topx < 2 ^ (n.eb + n.mb) := by
  have hpos : 0 < 2 ^ (n.eb + n.mb) := by positivity
  have hmul : (2 ^ n.eb - 1) * 2 ^ n.mb ≤ 2 ^ (n.eb + n.mb) := by
    rw [pow_add]
    exact Nat.mul_le_mul_right _ (Nat.sub_le _ _)
  rw [maxCode_eq]
  split
  · omega
  split <;> omega

theorem le_maxCode {n : Narrow} (heb : n.eb ≠ 0) (topx : Bool) : 2 ^ n.mb ≤ n.maxCode topx := by
  have hpos : 0 < 2 ^ n.mb := by positivity
  have htwo : 2 ≤ 2 ^ n.eb := by simpa using Nat.pow_le_pow_right two_pos (Nat.one_le_iff_ne_zero.mpr heb)
  rw [maxCode_eq, pow_add]
  split
  · have := Nat.mul_le_mul_right (2 ^ n.mb) htwo
    omega
  · have h16 : 16 ≤ 2 ^ n.eb := by simpa using Nat.pow_le_pow_right (n := 2) two_pos (by omega : 4 ≤ n.eb)
    have hmul := Nat.mul_le_mul_right (2 ^ n.mb) h16
    have hmul' := Nat.mul_le_mul_right (2 ^ n.mb) (by omega : 15 ≤ 2 ^ n.eb - 1)
    split <;> omega

theorem narrowMagnitude_eq_codeValue {n : Narrow} {c : Nat} (h : 2 ^ n.mb ≤ c ∨ n.sub = true) :
    narrowMagnitude n c = codeValue n.mb (1 - n.bias) c := by
  unfold narrowMagnitude codeValue
  split
  · next hlt => rw [if_pos (h.resolve_left (by omega))]
  · congr 2
    ring

/-- Saturation to a range in the spelling of R65. -/
theorem clamp_eq {lo hi : Int} (h : lo ≤ hi) (v : Int) :
    (if v < lo then lo else if hi < v then hi else v) = max lo (min hi v) := by
  split
  · omega
  split <;> omega

/-! ### Writing (R66) -/

/-- Every number has a rounded integer. -/
theorem exists_roundsTo (rm : Rm) (neg : Bool) {y : ℝ} (hy : 0 ≤ y) : ∃ k, RoundsTo rm (neg = true) y k := by
  classical
  have h := roundsTo_add_fraction rm neg ⌊y⌋₊ (t := y - ⌊y⌋₊) (by linarith [Nat.floor_le hy])
    (by linarith [Nat.lt_floor_add_one y]) _ decide_eq_true_iff
  rw [add_sub_cancel] at h
  exact ⟨_, h⟩

/-- The code that a format without exponent bits gives an integer, in the spelling of R65. -/
theorem clampCode_eq (n : Narrow) (v : Int) : clampCode n.intLo n.intHi v n.width =
    (max (if n.sign then -2 ^ n.mb else 0) (min (2 ^ n.mb - 1) v) % 2 ^ n.width : Int).toNat := by
  have hpos : (0 : Int) < 2 ^ n.mb := by positivity
  unfold clampCode
  rw [clamp_eq (by unfold Narrow.intLo Narrow.intHi; push_cast; split <;> omega)]
  unfold Narrow.intLo Narrow.intHi
  push_cast
  rfl

/-- Integers beyond a format's range on one side have one code. -/
theorem clampCode_of_beyond (n : Narrow) (neg : Bool) {k l : Nat} (hk : 2 ^ n.mb ≤ k) (hl : 2 ^ n.mb ≤ l) :
    clampCode n.intLo n.intHi (if neg then -(k : Int) else k) n.width =
      clampCode n.intLo n.intHi (if neg then -(l : Int) else l) n.width := by
  have hpos : (0 : Int) < 2 ^ n.mb := by positivity
  have hk' : (2 : Int) ^ n.mb ≤ k := by exact_mod_cast hk
  have hl' : (2 : Int) ^ n.mb ≤ l := by exact_mod_cast hl
  rw [clampCode_eq, clampCode_eq]
  congr 2
  cases neg
  · simp only [Bool.false_eq_true, if_false]
    omega
  · simp only [if_true]
    split <;> omega

/-- A number rounded to a multiple of 2^q, or one so large that every format of at most 8 bits saturates alike. -/
theorem roundsTo_roundAt_of_standsFor (rm : Rm) (neg : Bool) {m : Nat} {e : Int} (q : Int) {v : ℝ} (h : StandsFor m e v) :
    ∃ k, RoundsTo rm (neg = true) (v / 2 ^ q) k ∧
      (k = roundAt rm neg m e q ∨ (2 ^ 8 ≤ k ∧ 2 ^ 8 ≤ roundAt rm neg m e q)) := by
  rcases h with rfl | ⟨y, hy, rfl⟩
  · exact ⟨_, roundsTo_roundAt rm neg m e q, .inl rfl⟩
  · rcases le_or_gt (e + 2) q with hq | hq
    · exact ⟨_, roundsTo_of_sticky hy hq (roundsTo_roundAt rm neg m e q), .inl rfl⟩
    · have hbig : (2 : ℝ) ^ 16 ≤ m := by exact_mod_cast hy.1
      have hbig' : (2 : ℝ) ^ 16 ≤ y := (binade_of_sticky hy (by omega)).mp hbig
      have hunit : (2 : ℝ)⁻¹ ≤ 2 ^ e / 2 ^ q := by
        rw [← zpow_sub₀ two_ne_zero, ← zpow_neg_one]
        exact zpow_le_zpow_right₀ one_le_two (by omega)
      have large (z : ℝ) (hz : 2 ^ 16 ≤ z) : ((2 ^ 8 : Nat) : ℝ) ≤ z * 2 ^ e / 2 ^ q := by
        rw [mul_div_assoc]
        have := mul_le_mul hz hunit (by norm_num) (by linarith [show (0 : ℝ) ≤ 2 ^ 16 by positivity])
        refine le_trans ?_ this
        norm_num
      obtain ⟨k, hk⟩ := exists_roundsTo rm neg (y := y * 2 ^ e / 2 ^ q) (le_trans (by positivity) (large y hbig'))
      exact ⟨k, hk, .inr ⟨ge_of_roundsTo hk (large y hbig'), ge_of_roundsTo (roundsTo_roundAt rm neg m e q) (large m hbig)⟩⟩

/-- A rounded magnitude is subnormal where its code has the exponent field 0. -/
theorem codeValue_lt_first_iff (mb : Nat) (emin : Int) (c : Nat) : codeValue mb emin c < (2 : ℚ) ^ emin ↔ c < 2 ^ mb := by
  have h := codeValue_first mb emin 0
  rw [Nat.zero_add, one_mul, Nat.cast_zero, add_zero] at h
  rw [← h, (codeValue_strictMono mb emin).lt_iff_lt]

/-- What the code for magnitudes beyond the largest is (R66). -/
theorem over_spec (n : Narrow) (topx neg : Bool) :
    (n.sat = true → n.over topx neg = n.withSign neg (n.maxCode topx)) ∧
    (n.sat = false → (4 ≤ n.eb ∧ topx = false → n.over topx neg = n.withSign neg ((2 ^ n.eb - 1) * 2 ^ n.mb)) ∧
      (4 ≤ n.eb ∧ topx = true → n.over topx neg = n.nanCode topx) ∧
      (n.eb < 4 → n.over topx neg = n.withSign neg (n.maxCode topx))) := by
  unfold Narrow.over Narrow.hasInf Narrow.hasNan
  refine ⟨fun h => by rw [if_pos h], fun h => ⟨?_, ?_, ?_⟩⟩
  · rintro ⟨h4, rfl⟩
    simp [h, h4, Nat.shiftLeft_eq]
  · rintro ⟨h4, rfl⟩
    simp [h, h4]
  · intro h4
    simp [h, Nat.not_le.mpr h4]

theorem nanCode_eq (n : Narrow) (topx : Bool) : n.nanCode topx =
    if topx then 2 ^ (n.eb + n.mb) - 1 else (2 ^ n.eb - 1) * 2 ^ n.mb + 2 ^ (n.mb - 1) := by
  rw [Narrow.nanCode, Nat.shiftLeft_eq]

theorem narrowOf_write_nan (n : Narrow) (topx : Bool) (rm : Rm) : NarrowOf n topx rm .nan (n.write topx rm .nan) := by
  have hhas : n.hasNan topx = true ↔ 4 ≤ n.eb ∧ (topx = true ∨ n.mb ≠ 0) := by simp [Narrow.hasNan]
  refine ⟨fun h => ?_, fun h => ?_⟩
  · rw [← nanCode_eq]
    exact if_pos (hhas.mpr h)
  · exact if_neg (mt hhas.mp h)

theorem narrowOf_write_inf (n : Narrow) (topx : Bool) (rm : Rm) (neg : Bool) :
    NarrowOf n topx rm (.inf neg) (n.write topx rm (.inf neg)) := by
  unfold Narrow.write NarrowOf
  simp only [Source.number, ← maxCode_eq, ← nanCode_eq]
  refine ⟨?_, fun hsign => ⟨fun heb => ?_, fun heb => ?_⟩⟩
  · rintro rfl hs
    simp [hs]
  all_goals
    have hpos : (neg && !n.sign) = false := by rcases hsign with h | h <;> simp [h]
    rw [hpos, if_neg Bool.false_ne_true]
  · rw [if_neg heb]
    exact over_spec n topx neg
  · rw [if_pos heb, clampCode_eq]
    congr 2
    have hmb : (0 : Int) < 2 ^ n.mb := by positivity
    unfold Narrow.intLo Narrow.intHi
    push_cast
    cases neg
    · rfl
    · rw [hsign.resolve_left (by simp)]
      simp

/-- A number written into a narrow format is the code of R66, where the model's operand stands for its magnitude. -/
theorem narrowOf_write_fin {n : Narrow} (hn : Shaped n) (topx : Bool) (rm : Rm) (neg : Bool) {m : Nat} {e : Int} {y : ℚ}
    (hzero : m = 0 ↔ y = 0) (h : StandsFor m e |(y : ℝ)|) :
    NarrowOf n topx rm (.real neg y) (n.write topx rm (.fin neg m e)) := by
  have hmb := mb_le_of_shaped hn
  unfold Narrow.write NarrowOf
  simp only [Source.number, ← maxCode_eq, ← nanCode_eq]
  refine ⟨?_, fun hsign => ?_⟩
  · rintro rfl hs
    simp [hs]
  have hpos : (neg && !n.sign) = false := by rcases hsign with h | h <;> simp [h]
  rw [hpos, if_neg Bool.false_ne_true]
  refine ⟨fun heb => ?_, fun heb hy => ?_, fun heb hy => ?_⟩
  · rw [if_pos heb]
    obtain ⟨k, hround, hk⟩ := roundsTo_roundAt_of_standsFor rm neg (-n.bias) h
    rw [zpow_neg, div_inv_eq_mul] at hround
    refine ⟨k, hround, ?_⟩
    rw [← clampCode_eq]
    rcases hk with rfl | ⟨hk, hk'⟩
    · rfl
    · have hle : 2 ^ n.mb ≤ 2 ^ 8 := Nat.pow_le_pow_right two_pos hmb
      exact clampCode_of_beyond n neg (hle.trans hk') (hle.trans hk)
  · rw [if_neg heb, if_pos (hzero.mpr hy)]
    rfl
  · have hm : m ≠ 0 := mt hzero.mp hy
    rw [if_neg heb, if_neg hm]
    obtain ⟨x, k, hx, hx', hround, hvalue⟩ := codeOf_magCode_of_standsFor hmb (1 - n.bias) rm neg hm h
    set c := magCode n.mb (1 - n.bias) rm neg m e
    refine ⟨x, k, hx, hx', hround, ?_⟩
    rw [← hvalue]
    have hfirst : ((codeValue n.mb (1 - n.bias) c : ℚ) : ℝ) < (2 : ℝ) ^ (1 - n.bias) ↔ c < 2 ^ n.mb := by
      rw [← codeValue_lt_first_iff n.mb (1 - n.bias) c, ← Rat.cast_lt (K := ℝ)]
      push_cast
      rfl
    have hlargest : narrowMagnitude n (n.maxCode topx) = codeValue n.mb (1 - n.bias) (n.maxCode topx) :=
      narrowMagnitude_eq_codeValue (.inl (le_maxCode heb topx))
    have hmono := codeValue_strictMono n.mb (1 - n.bias)
    rw [hfirst, hlargest]
    have hsmall : (decide (c < 2 ^ n.mb) && !n.sub) = true ↔ c < 2 ^ n.mb ∧ n.sub = false := by simp
    refine ⟨fun hs => ?_, fun hs hover => ?_, fun hs hle => ?_⟩
    · rw [if_pos (hsmall.mpr hs)]
      rfl
    · rw [if_neg (mt hsmall.mp hs), if_pos (hmono.lt_iff_lt.mp (Rat.cast_lt.mp hover))]
      exact over_spec n topx neg
    · have hle' : c ≤ n.maxCode topx := hmono.le_iff_le.mp (Rat.cast_le.mp hle)
      rw [if_neg (mt hsmall.mp hs), if_neg (by omega)]
      refine ⟨c, rfl, hle', ?_⟩
      rw [narrowMagnitude_eq_codeValue]
      by_contra hc
      push Not at hc
      exact hs ⟨hc.1, by simpa using hc.2⟩

/-- A number of the model written into a narrow format (R66). -/
theorem narrowOf_write {n : Narrow} (hn : Shaped n) (topx : Bool) (rm : Rm) (x : Num) :
    NarrowOf n topx rm (ofNum x) (n.write topx rm x) := by
  cases x with
  | nan => exact narrowOf_write_nan n topx rm
  | inf neg => exact narrowOf_write_inf n topx rm neg
  | fin neg m e =>
    exact narrowOf_write_fin hn topx rm neg (finValue_eq_zero neg m e).symm (.inl (abs_finValue neg m e).symm)

end Sys2Proof.Machine
end
section
/-!
SUPPORT. IEEE layouts and integers (R59–R62, R67): codes with their signs, a number rounded to a layout, and the
conversions into integer kinds.
-/

namespace Sys2Proof.Machine

open Sys2Proof.Rules

/-! ### Reading IEEE codes (R59, R60) -/

theorem ofNum_unpack (f : Fmt) (ftz : Bool) (a : Nat) : ofNum (unpack f ftz a) = ieeeSource f ftz a := by
  unfold unpack ieeeSource value magnitude negative
  simp only [Nat.shiftRight_eq_div_pow, Nat.add_comm f.mb f.eb]
  generalize (a / 2 ^ (f.eb + f.mb) % 2 == 1) = s
  split
  · split <;> rfl
  · split
    · cases s <;> cases ftz <;> simp [finValue]
    · cases s
      · simp [finValue]
      · simp only [ofNum_fin, finValue, if_true]
        ring_nf

/-! ### Codes with a sign -/

section
variable {f : Fmt} {c : Nat} (hc : c < 2 ^ (f.eb + f.mb)) (neg : Bool)
include hc

theorem negative_signed : negative f (signed f neg c) = neg := by
  unfold negative signed
  cases neg
  · simp [Nat.div_eq_of_lt hc]
  · simp [Nat.add_div_right _ (Nat.two_pow_pos (f.eb + f.mb)), Nat.div_eq_of_lt hc]

theorem signed_lt : signed f neg c < 2 ^ fmtWidth f := by
  unfold signed fmtWidth
  rw [pow_succ]
  split <;> omega

theorem signed_mod : signed f neg c % 2 ^ (f.eb + f.mb) = c := by
  unfold signed
  split
  · rw [Nat.add_mod_right, Nat.mod_eq_of_lt hc]
  · exact Nat.mod_eq_of_lt hc

theorem signed_mod_fraction : signed f neg c % 2 ^ f.mb = c % 2 ^ f.mb := by
  rw [← Nat.mod_mod_of_dvd (signed f neg c) (pow_dvd_pow 2 (Nat.le_add_left f.mb f.eb)), signed_mod hc]

theorem signed_exponent : signed f neg c / 2 ^ f.mb % 2 ^ f.eb = c / 2 ^ f.mb := by
  have h := Nat.mod_mul_right_div_self (signed f neg c) (2 ^ f.mb) (2 ^ f.eb)
  rw [← pow_add, Nat.add_comm, signed_mod hc] at h
  exact h.symm

theorem magnitude_signed : magnitude f false (signed f neg c) = codeValue f.mb (1 - f.bias) c := by
  unfold magnitude codeValue
  simp only [signed_exponent hc, signed_mod_fraction hc]
  split
  · next hzero =>
    have hlt : c < 2 ^ f.mb := by rwa [Nat.div_eq_zero_iff_lt (by positivity)] at hzero
    rw [if_pos hlt, Nat.mod_eq_of_lt hlt]
    simp
  · next hzero =>
    rw [if_neg (by rwa [Nat.div_eq_zero_iff_lt (by positivity)] at hzero)]
    congr 2
    ring

end

/-! ### Rounding to a layout (R61, R62) -/

theorem infCode_eq (f : Fmt) : infCode f = (2 ^ f.eb - 1) * 2 ^ f.mb := Nat.shiftLeft_eq _ _

theorem infCode_lt (f : Fmt) : infCode f < 2 ^ (f.eb + f.mb) := by
  rw [infCode_eq, pow_add]
  exact Nat.mul_lt_mul_of_pos_right (Nat.sub_lt (by positivity) one_pos) (by positivity)

theorem isInf_signed_infCode (f : Fmt) (neg : Bool) : isInf f (signed f neg (infCode f)) := by
  unfold isInf
  rw [signed_exponent (infCode_lt f), signed_mod_fraction (infCode_lt f), infCode_eq]
  exact ⟨Nat.mul_div_cancel _ (by positivity), Nat.mul_mod_left _ _⟩

theorem isFinite_signed {f : Fmt} {c : Nat} (hc : c < infCode f) (neg : Bool) : isFinite f (signed f neg c) := by
  unfold isFinite
  rw [signed_exponent (hc.trans (infCode_lt f))]
  rw [infCode_eq, ← Nat.div_lt_iff_lt_mul (by positivity)] at hc
  exact hc.ne

section
variable {f : Fmt} (hf : f.eb ≠ 0)
include hf

theorem two_le_exponents : 2 ≤ 2 ^ f.eb := by simpa using Nat.pow_le_pow_right two_pos (Nat.one_le_iff_ne_zero.mpr hf)

theorem infCode_pos : 0 < infCode f := by
  have := two_le_exponents hf
  rw [infCode_eq]
  exact Nat.mul_pos (by omega) (by positivity)

theorem codeValue_infCode : codeValue f.mb (1 - f.bias) (infCode f) = (2 : ℚ) ^ ((2 : Int) ^ f.eb - 1 - f.bias) := by
  have htwo := two_le_exponents hf
  rw [infCode_eq, show 2 ^ f.eb - 1 = (2 ^ f.eb - 2) + 1 by omega, codeValue_first, Nat.cast_sub htwo]
  congr 1
  push_cast
  ring

/-- A non-zero number packed is the number rounded once. -/
theorem isRounded_pack (rm : Rm) (ftz neg : Bool) {m : Nat} (hm : m ≠ 0) (e : Int) :
    IsRounded f rm ftz (finValue neg m e : ℚ) (pack f rm ftz (.fin neg m e)) := by
  obtain ⟨x, k, hx, hx', hround, hvalue⟩ := codeOf_magCode f.mb (1 - f.bias) rm neg hm e
  have hneg : ((finValue neg m e : ℚ) : ℝ) < 0 ↔ neg = true := by
    rw [← finValue_neg_iff neg hm e]
    exact Rat.cast_lt_zero
  have hpositive : 0 < ((finValue neg m e : ℚ) : ℝ) ↔ neg = false := by
    have hne : ((finValue neg m e : ℚ) : ℝ) ≠ 0 := Rat.cast_ne_zero.mpr (mt (finValue_eq_zero neg m e).mp hm)
    rw [← Bool.not_eq_true, ← hneg, not_lt]
    exact ⟨le_of_lt, fun h => lt_of_le_of_ne h hne.symm⟩
  rw [← abs_finValue neg m e] at hx hx' hround
  have hmono := codeValue_strictMono f.mb (1 - f.bias)
  have hinf : (2 : ℝ) ^ ((2 : Int) ^ f.eb - 1 - f.bias) = ((codeValue f.mb (1 - f.bias) (infCode f) : ℚ) : ℝ) := by
    rw [codeValue_infCode hf]
    push_cast
    rfl
  have hfirst : (2 : ℝ) ^ ((1 : Int) - f.bias) = (((2 : ℚ) ^ ((1 : Int) - f.bias) : ℚ) : ℝ) := by
    push_cast
    rfl
  refine ⟨x, k, hx, hx', by rwa [hneg], ?_⟩
  simp only [← hvalue, hinf, hfirst, Rat.cast_le, Rat.cast_lt, hmono.le_iff_le, hmono.lt_iff_lt, codeValue_lt_first_iff,
    hneg, hpositive]
  have hpack : pack f rm ftz (.fin neg m e) =
      let c := magCode f.mb (1 - f.bias) rm neg m e
      if infCode f ≤ c then signed f neg (if overflowsToInf rm neg then infCode f else infCode f - 1)
      else if ftz && c < 2 ^ f.mb then signed f neg 0 else signed f neg c := if_neg hm
  simp only [hpack]
  set c := magCode f.mb (1 - f.bias) rm neg m e
  have hlt := infCode_lt f
  have hpos := infCode_pos hf
  split
  · next hover =>
    have hcode : (if overflowsToInf rm neg then infCode f else infCode f - 1) < 2 ^ (f.eb + f.mb) := by split <;> omega
    refine ⟨signed_lt hcode neg, by rw [negative_signed hcode], fun _ => ⟨fun hmode => ?_, fun hmode => ?_⟩,
      fun h => by omega⟩
    · rw [show overflowsToInf rm neg = true by rcases hmode with rfl | ⟨rfl, hs⟩ | ⟨rfl, hs⟩ <;> simp_all [overflowsToInf]]
      exact isInf_signed_infCode f neg
    · rw [show overflowsToInf rm neg = false by rcases hmode with rfl | ⟨rfl, hs⟩ | ⟨rfl, hs⟩ <;> simp_all [overflowsToInf]]
      rw [if_neg Bool.false_ne_true, signed_mod (by omega), infCode_eq]
  · next hfinite =>
    have hc : c < infCode f := by omega
    have hflush : (ftz && decide (c < 2 ^ f.mb)) = true ↔ ftz = true ∧ c < 2 ^ f.mb := by simp
    simp only [hflush]
    split
    · refine ⟨signed_lt (by positivity) neg, by rw [negative_signed (by positivity)], fun h => by omega, fun _ =>
        ⟨isFinite_signed hpos neg, ?_⟩⟩
      rw [magnitude_signed (by positivity), codeValue_zero, Rat.cast_zero]
    · refine ⟨signed_lt (hc.trans hlt) neg, by rw [negative_signed (hc.trans hlt)], fun h => by omega, fun _ =>
        ⟨isFinite_signed hc neg, ?_⟩⟩
      rw [magnitude_signed (hc.trans hlt)]

theorem ieeeOf_pack (rm : Rm) (ftz : Bool) (x : Num) : IeeeOf f rm ftz (ofNum x) (pack f rm ftz x) := by
  cases x with
  | nan => exact congrArg (· + _) (infCode_eq f)
  | inf neg => rfl
  | fin neg m e =>
    refine ⟨fun hy => ?_, fun hy => ?_⟩
    · exact if_pos ((finValue_eq_zero neg m e).mp hy)
    · exact isRounded_pack hf rm ftz neg (mt (finValue_eq_zero neg m e).mpr hy) e

end

/-! ### Integers (R67) -/

theorem intLo_le_intHi (w : Nat) (sg : Bool) : intLo w sg ≤ intHi w sg := by
  unfold intLo intHi
  have h1 : (0 : Int) < (2 ^ (w - 1) : Nat) := by positivity
  have h2 : (0 : Int) < (2 ^ w : Nat) := by positivity
  split <;> omega

theorem intLo_eq (w : Nat) (sg : Bool) : intLo w sg = if sg then -2 ^ (w - 1) else 0 := by
  simp [intLo]

theorem intHi_eq (w : Nat) (sg : Bool) : intHi w sg = if sg then 2 ^ (w - 1) - 1 else 2 ^ w - 1 := by
  simp [intHi]

/-- The bounds of an integer kind of at most 64 bits. -/
theorem int_bounds {w : Nat} (hw : w ≤ 64) (sg : Bool) : -2 ^ 64 ≤ intLo w sg ∧ intLo w sg ≤ 0 ∧ intHi w sg ≤ 2 ^ 64 := by
  have h1 : (2 : Int) ^ (w - 1) ≤ 2 ^ 64 := pow_le_pow_right₀ one_le_two (by omega)
  have h2 : (2 : Int) ^ w ≤ 2 ^ 64 := pow_le_pow_right₀ one_le_two hw
  have h3 : (0 : Int) < 2 ^ (w - 1) := by positivity
  rw [intLo_eq, intHi_eq]
  cases sg <;> simp <;> omega

/-- A number of the model converted into an integer kind. -/
theorem integerOf_numToInt {w : Nat} (hw : w ≤ 64) (sg : Bool) (rm : Rm) (x : Num) :
    IntegerOf w sg rm (ofNum x) (numToInt w sg rm x) := by
  unfold IntegerOf
  rw [← intLo_eq, ← intHi_eq]
  cases x with
  | nan => rfl
  | inf neg => rfl
  | fin neg m e =>
    obtain ⟨hlow, hzero, hhigh⟩ := int_bounds hw sg
    set r : Nat := if 100 < (Nat.log2 m : Int) + e ∧ m ≠ 0 then 2 ^ 100 else roundAt rm neg m e 0 with hr
    have hmodel : numToInt w sg rm (.fin neg m e) =
        max (intLo w sg) (min (intHi w sg) (if neg then -(r : Int) else r)) := clamp_eq (intLo_le_intHi w sg) _
    rw [hmodel, ofNum_fin]
    have hround := roundsTo_roundAt rm neg m e 0
    rw [zpow_zero, div_one] at hround
    rcases eq_or_ne m 0 with rfl | hm
    · have hr0 : r = 0 := by
        rw [hr, if_neg (by simp)]
        exact Nat.le_zero.mp (le_of_roundsTo hround (by simp))
      have hy : finValue neg 0 e = 0 := (finValue_eq_zero neg 0 e).mpr rfl
      refine ⟨0, ?_, ?_⟩
      · rw [hy]
        simpa using roundsTo_natCast rm ((0 : ℚ) < 0) 0
      · rw [hr0, hy]
        simp
    · refine ⟨roundAt rm neg m e 0, ?_, ?_⟩
      · rw [abs_finValue, finValue_neg_iff neg hm]
        exact hround
      · simp only [finValue_neg_iff neg hm]
        by_cases hbig : 100 < (Nat.log2 m : Int) + e ∧ m ≠ 0
        · have hcap : r = 2 ^ 100 := if_pos hbig
          have hlarge : 2 ^ 100 ≤ roundAt rm neg m e 0 := by
            refine ge_of_roundsTo hround (le_trans ?_ (log2_binade hm e).1)
            rw [Nat.cast_pow, Nat.cast_ofNat, ← zpow_natCast]
            exact zpow_le_zpow_right₀ one_le_two (by push_cast; omega)
          have hlarge' : (2 : Int) ^ 100 ≤ (roundAt rm neg m e 0 : Int) := by exact_mod_cast hlarge
          rw [hcap]
          push_cast
          cases neg <;> simp only [Bool.false_eq_true, if_false, if_true] <;> omega
        · rw [show r = roundAt rm neg m e 0 from if_neg hbig]

/-- An integer read from the low bits of a code lies in its kind's range. -/
theorem intRead_mem (w : Nat) (sg : Bool) (hw : w ≠ 0) (a : Nat) :
    intLo w sg ≤ intRead w sg a ∧ intRead w sg a ≤ intHi w sg := by
  have hlt : a % 2 ^ w < 2 ^ w := Nat.mod_lt _ (by positivity)
  have hhalf : 2 ^ w = 2 * 2 ^ (w - 1) := by rw [← pow_succ', Nat.sub_add_cancel (Nat.one_le_iff_ne_zero.mpr hw)]
  unfold intLo intHi intRead
  cases sg
  · simp only [Bool.false_and, Bool.false_eq_true, if_false]
    omega
  · simp only [Bool.true_and, if_true, decide_eq_true_eq]
    split <;> omega

theorem intRead_eq_bmod (w : Nat) (hw : w ≠ 0) (a : Nat) : intRead w true a = Int.bmod (a % 2 ^ w : Nat) (2 ^ w) := by
  have hlt : a % 2 ^ w < 2 ^ w := Nat.mod_lt _ (by positivity)
  have hhalf : 2 ^ w = 2 * 2 ^ (w - 1) := by rw [← pow_succ', Nat.sub_add_cancel (Nat.one_le_iff_ne_zero.mpr hw)]
  unfold intRead Int.bmod
  simp only [Bool.true_and, decide_eq_true_eq]
  have hmod : ((a % 2 ^ w : Nat) : Int) % ((2 ^ w : Nat) : Int) = ((a % 2 ^ w : Nat) : Int) := by
    exact_mod_cast Nat.mod_mod a (2 ^ w)
  rw [hmod]
  generalize a % 2 ^ w = v at *
  generalize 2 ^ (w - 1) = h at *
  generalize 2 ^ w = p at *
  subst hhalf
  split <;> split <;> omega

end Sys2Proof.Machine
end
section
/-!
SUPPORT. Conversions (R66, R67, R109): what the model reads a source element as, and what it writes of it.
-/

namespace Sys2Proof.Machine

open Sys2Proof.Rules

/-! ### Kinds -/

theorem kindInt_width {k : Kind} {w : Nat} {sg : Bool} (h : kindInt k = some (w, sg)) : w ≠ 0 ∧ w ≤ 64 := by
  cases k <;> simp [kindInt] at h <;> obtain ⟨rfl, -⟩ := h <;> decide

theorem kindFmt_exponents {k : Kind} {f : Fmt} (h : kindFmt k = some f) : f.eb ≠ 0 := by
  cases k <;> simp [kindFmt] at h <;> subst h <;> decide

/-- A kind that is not narrow is an integer kind or an IEEE layout. -/
theorem kind_cases {k : Kind} (h : k ≠ .nf) :
    (∃ w sg, kindInt k = some (w, sg)) ∨ (kindInt k = none ∧ ∃ f, kindFmt k = some f) := by
  cases k <;> simp [kindInt, kindFmt] at h ⊢

/-! ### What is read -/

/-- The source element that the model has read, as R109 names it. -/
def sourceOf : ConvSrc → Source
  | .num x => ofNum x
  | .int w sg v => .int w sg v

/-- An integer that has been read lies in its kind's range. -/
def InKind : ConvSrc → Prop
  | .num _ => True
  | .int w sg v => w ≠ 0 ∧ intLo w sg ≤ v ∧ v ≤ intHi w sg

theorem convRead_int {k : Kind} {w : Nat} {sg : Bool} (h : kindInt k = some (w, sg)) (ftz : Bool) (x : Num) (a : Nat) :
    convRead k ftz x a = .int w sg (intRead w sg a) := by
  unfold convRead
  rw [h]

theorem convRead_fmt {k : Kind} {f : Fmt} (h : kindInt k = none) (h' : kindFmt k = some f) (ftz : Bool) (x : Num) (a : Nat) :
    convRead k ftz x a = .num (unpack f ftz a) := by
  unfold convRead
  rw [h, h']

theorem inKind_convRead (k : Kind) (ftz : Bool) (x : Num) (a : Nat) : InKind (convRead k ftz x a) := by
  rcases eq_or_ne k .nf with rfl | hk
  · trivial
  · rcases kind_cases hk with ⟨w, sg, h⟩ | ⟨h, f, h'⟩
    · rw [convRead_int h]
      exact ⟨(kindInt_width h).1, intRead_mem w sg (kindInt_width h).1 a⟩
    · rw [convRead_fmt h h']
      trivial

theorem intRead_eq {w : Nat} (hw : w ≠ 0) (sg : Bool) (a : Nat) :
    intRead w sg a = if sg then Int.bmod (a % 2 ^ w : Nat) (2 ^ w) else (a % 2 ^ w : Nat) := by
  cases sg
  · simp [intRead]
  · exact intRead_eq_bmod w hw a

theorem sourceOf_convRead {k : Kind} (hk : k ≠ .nf) (ftz : Bool) (x : Num) (a : Nat) :
    sourceOf (convRead k ftz x a) = kindSource k ftz a := by
  unfold kindSource
  rcases kind_cases hk with ⟨w, sg, h⟩ | ⟨h, f, h'⟩
  · rw [convRead_int h, h]
    exact congrArg (Source.int w sg) (intRead_eq (kindInt_width h).1 sg a)
  · rw [convRead_fmt h h', h, h']
    exact ofNum_unpack f ftz a

theorem ofNum_ofInt (v : Int) : ofNum (Num.ofInt v) = .real (v < 0) v := by
  have habs : finValue (v < 0) v.natAbs 0 = v := by
    have h : ((v.natAbs : ℤ) : ℚ) = |(v : ℚ)| := by rw [Int.natCast_natAbs, Int.cast_abs]
    rw [Int.cast_natCast] at h
    by_cases hv : v < 0
    · have hv' : (v : ℚ) < 0 := by exact_mod_cast hv
      simp [finValue, hv, h, abs_of_neg hv']
    · have hv' : (0 : ℚ) ≤ v := by exact_mod_cast not_lt.mp hv
      simp [finValue, hv, h, abs_of_nonneg hv']
  rw [Num.ofInt, ofNum_fin, habs]

@[simp] theorem number_ofNum (x : Num) : (ofNum x).number = ofNum x := by cases x <;> rfl

theorem number_sourceOf (x : ConvSrc) : (sourceOf x).number = ofNum x.toNum := by
  cases x with
  | num x => exact number_ofNum x
  | int w sg v => exact (ofNum_ofInt v).symm

theorem number_number (x : Source) : x.number.number = x.number := by cases x <;> rfl

theorem narrowOf_number (n : Narrow) (topx : Bool) (rm : Rm) (x : Source) (c : Nat) :
    NarrowOf n topx rm x.number c ↔ NarrowOf n topx rm x c := by
  unfold NarrowOf
  rw [number_number]

theorem ieeeOf_number (f : Fmt) (rm : Rm) (ftz : Bool) (x : Source) (c : Nat) :
    IeeeOf f rm ftz x.number c ↔ IeeeOf f rm ftz x c := by
  unfold IeeeOf
  rw [number_number]

/-! ### What is written -/

/-- An integer converted into an integer kind (R67). -/
theorem integerOf_intToInt {sw dw : Nat} {ss : Bool} (hdw : dw ≠ 0) (ds : Bool) (rm : Rm) {v : Int}
    (h : InKind (.int sw ss v)) : IntegerOf dw ds rm (.int sw ss v) (intToInt sw ss dw ds v) := by
  obtain ⟨hsw, hlo, hhi⟩ := h
  have hspec : IntegerOf dw ds rm (.int sw ss v) (intToInt sw ss dw ds v) ↔ intToInt sw ss dw ds v =
      if sw < dw then if ds then v else v % 2 ^ dw else max (intLo dw ds) (min (intHi dw ds) v) := by
    rw [intLo_eq, intHi_eq]
    rfl
  rw [hspec]
  unfold intToInt
  by_cases hsame : sw = dw ∧ ss = ds
  · obtain ⟨rfl, rfl⟩ := hsame
    rw [if_pos ⟨rfl, rfl⟩, if_neg (lt_irrefl _), min_eq_right hhi, max_eq_right hlo]
  rw [if_neg hsame]
  rcases le_or_gt dw sw with hle | hlt
  · rw [if_pos hle, if_neg (not_lt.mpr hle)]
    exact clamp_eq (intLo_le_intHi dw ds) v
  · rw [if_neg (not_le.mpr hlt), if_pos hlt, intRead_eq hdw]
    have hpos : (0 : Int) < (2 ^ dw : Nat) := by positivity
    have hmod : ((v % (2 ^ dw : Nat)).toNat % 2 ^ dw : Nat) = v % 2 ^ dw := by
      push_cast
      rw [Int.toNat_of_nonneg (Int.emod_nonneg _ (by positivity)), Int.emod_emod]
    rw [hmod]
    cases ds with
    | false => rfl
    | true =>
      have hhalf : (2 : Int) ^ dw = 2 * 2 ^ (dw - 1) := by
        rw [← pow_succ', Nat.sub_add_cancel (Nat.one_le_iff_ne_zero.mpr hdw)]
      have hsw' : (2 : Int) ^ sw ≤ 2 ^ (dw - 1) := pow_le_pow_right₀ one_le_two (by omega)
      have hsw'' : (2 : Int) ^ (sw - 1) ≤ 2 ^ (dw - 1) := pow_le_pow_right₀ one_le_two (by omega)
      rw [intLo_eq] at hlo
      rw [intHi_eq] at hhi
      have hcast : (2 : Int) ^ dw = ((2 ^ dw : Nat) : Int) := by push_cast; rfl
      rw [if_pos rfl, if_pos rfl, hcast, Int.emod_bmod]
      refine Int.bmod_eq_of_le ?_ ?_ <;> rw [← hcast] <;> cases ss <;> simp at hlo hhi <;> omega

/-- What the model writes into a kind that is not narrow is the conversion of what it has read. -/
theorem converts_convWrite {dk : Kind} (hk : dk ≠ .nf) (rm : Rm) (ftz : Bool) (n : Narrow) (topx : Bool) {x : ConvSrc}
    (hx : InKind x) : Converts dk rm ftz n topx (sourceOf x) (convWrite dk rm ftz x) := by
  unfold Converts convWrite
  rcases kind_cases hk with ⟨w, sg, h⟩ | ⟨h, f, h'⟩
  · rw [h]
    obtain ⟨hw, hw'⟩ := kindInt_width h
    cases x with
    | num y => exact ⟨_, integerOf_numToInt hw' sg rm y, by push_cast; rfl⟩
    | int sw ss v => exact ⟨_, integerOf_intToInt hw sg rm hx, by push_cast; rfl⟩
  · rw [h, h']
    exact (ieeeOf_number f rm ftz _ _).mp (number_sourceOf x ▸ ieeeOf_pack (kindFmt_exponents h') rm ftz x.toNum)

/-- What the model writes into a narrow kind is the conversion of what it has read. -/
theorem narrowOf_convWrite {n : Narrow} (hn : Shaped n) (topx : Bool) (rm : Rm) (x : ConvSrc) :
    NarrowOf n topx rm (sourceOf x) (n.write topx rm x.toNum) :=
  (narrowOf_number n topx rm _ _).mp (number_sourceOf x ▸ narrowOf_write hn topx rm x.toNum)

/-- FCVT's value (R109). -/
theorem converts_convScalar (x : ConvR) {img : BitVec 32} (topx : Bool) (a : Nat)
    (himg : imageValid img = true ∨ (x.dk ≠ .nf ∧ x.sk ≠ .nf)) :
    Converts x.dk x.rm x.ftz (narrowOf img) topx
      (if x.sk = .nf then narrowSource (narrowOf img) topx (a % 2 ^ (narrowOf img).width) else kindSource x.sk x.ftz a)
      (convScalar x (narrowOf img) topx a) := by
  set n := narrowOf img
  have hread : sourceOf (convRead x.sk x.ftz (n.read topx (a % 2 ^ n.width)) a) =
      if x.sk = .nf then narrowSource n topx (a % 2 ^ n.width) else kindSource x.sk x.ftz a := by
    split
    · next hsk => rw [hsk]; exact ofNum_read n topx _
    · next hsk => exact sourceOf_convRead hsk x.ftz _ a
  rw [← hread]
  unfold convScalar
  by_cases hdk : x.dk = .nf
  · have hn : Shaped n := shaped_of_imageValid (himg.resolve_right fun h => h.1 hdk)
    simp only [hdk, if_true]
    exact narrowOf_convWrite hn topx x.rm _
  · simp only [hdk, if_false]
    exact converts_convWrite hdk x.rm x.ftz n topx (inKind_convRead x.sk x.ftz _ a)

end Sys2Proof.Machine
end
section
/-!
SUPPORT. Block scales (R69, R70): the value of a scale byte, an element under its scale and over it, the scale chosen for
a block, and the largest magnitude of a block.
-/

namespace Sys2Proof.Machine

open Sys2Proof.Rules

/-! ### Scale bytes -/

/-- A scale byte is a NaN, or a number that is not negative. -/
theorem scaleRead_spec {kind : Nat} (hkind : kind = 1 ∨ kind = 2) (b : Nat) :
    (scaleRead kind b = .nan ∧ scaleValue kind b = none) ∨
    ∃ g k, scaleRead kind b = .fin false g k ∧ scaleValue kind b = some (finValue false g k) := by
  rcases hkind with rfl | rfl
  · by_cases hb : b = 255
    · exact .inl ⟨if_pos hb, if_pos hb⟩
    · exact .inr ⟨1, (b : Int) - 127, if_neg hb, by simp [scaleValue, hb, finValue]⟩
  · have hread : scaleRead 2 b = if b % 128 = 127 then .nan
        else if b % 128 < 8 then .fin false (b % 8) (-9) else .fin false (b % 8 + 8) ((b % 128 / 8 : Nat) - 10) := by
      have hfraction : b % 128 % 8 = b % 8 := by omega
      have hexponent : b % 128 / 8 % 16 = b % 128 / 8 := by omega
      have hnan : (b % 128 / 8 = 15 ∧ b % 8 = 7) ↔ b % 128 = 127 := by omega
      have hsub : b % 128 / 8 = 0 ↔ b % 128 < 8 := by omega
      simp only [scaleRead, Narrow.read, e4m3, Nat.shiftRight_eq_div_pow, Nat.reducePow, Nat.reduceAdd, Nat.reduceSub,
        hfraction, hexponent]
      simp [hnan, hsub, sub_sub]
    have hvalue : scaleValue 2 b = if b % 128 = 127 then none
        else if b % 128 < 8 then some ((b % 8 : Nat) * (2 : ℚ) ^ (-9 : Int))
        else some ((b % 8 + 8 : Nat) * (2 : ℚ) ^ ((b % 128 / 8 : Nat) - 10 : Int)) := rfl
    rw [hread, hvalue]
    split
    · exact .inl ⟨rfl, rfl⟩
    split
    · exact .inr ⟨_, _, rfl, by simp [finValue]⟩
    · exact .inr ⟨_, _, rfl, by simp [finValue]⟩

/-! ### Elements under and over their scale -/

theorem finValue_mul (s : Bool) (g m : Nat) (k e : Int) :
    finValue s (g * m) (k + e) = finValue false g k * finValue s m e := by
  unfold finValue
  rw [zpow_add₀ two_ne_zero]
  push_cast
  ring

/-- An element read under its scale is the scale times the element (R69). -/
theorem ofNum_scaledRead {n : Narrow} (hscale : n.scale = 1 ∨ n.scale = 2) (topx : Bool) (b c : Nat) :
    ofNum (scaledRead n topx b c) = scaledBy (scaleValue n.scale b) (narrowSource n topx c) := by
  rw [scaledRead, ← ofNum_read]
  rcases scaleRead_spec hscale b with ⟨hread, hvalue⟩ | ⟨g, k, hread, hvalue⟩
  · rw [hread, hvalue]
    rfl
  · rw [hread, hvalue]
    cases n.read topx c with
    | nan => rfl
    | inf s =>
      have hmul : Num.mul (.fin false g k) (.inf s) = if g = 0 then .nan else .inf s := by simp [Num.mul]
      rw [hmul, apply_ite ofNum]
      simp only [scaledBy, ofNum, finValue_eq_zero]
    | fin s m e =>
      simp only [Num.mul, scaledBy, ofNum_fin, Bool.false_bne, finValue_mul]

/-- The model's quotient of two magnitudes stands for the exact one. -/
theorem standsFor_quotient {m g : Nat} (hm : m ≠ 0) (hg : g ≠ 0) (e k : Int) :
    oddDiv (m <<< (128 + Nat.log2 g)) g ≠ 0 ∧
      StandsFor (oddDiv (m <<< (128 + Nat.log2 g)) g) (e - k - ((128 + Nat.log2 g : Nat) : Int) - 1)
        ((m : ℝ) * 2 ^ e / ((g : ℝ) * 2 ^ k)) := by
  have hbig : 2 ^ 15 ≤ m <<< (128 + Nat.log2 g) / g := by
    rw [Nat.le_div_iff_mul_le (Nat.pos_of_ne_zero hg), Nat.shiftLeft_eq]
    have hlt : g < 2 ^ (Nat.log2 g + 1) := Nat.lt_log2_self
    calc 2 ^ 15 * g ≤ 2 ^ 15 * 2 ^ (Nat.log2 g + 1) := Nat.mul_le_mul_left _ hlt.le
      _ = 2 ^ (16 + Nat.log2 g) := by rw [← pow_add]; congr 1; omega
      _ ≤ 2 ^ (128 + Nat.log2 g) := Nat.pow_le_pow_right two_pos (by omega)
      _ ≤ m * 2 ^ (128 + Nat.log2 g) := Nat.le_mul_of_pos_left _ (Nat.pos_of_ne_zero hm)
  have hsticky := sticky_oddDiv _ g hg hbig
  refine ⟨by have := hsticky.1; omega, .inr ⟨_, hsticky, ?_⟩⟩
  have hg' : (g : ℝ) ≠ 0 := Nat.cast_ne_zero.mpr hg
  rw [Nat.shiftLeft_eq, zpow_sub₀ two_ne_zero, zpow_sub₀ two_ne_zero, zpow_sub₀ two_ne_zero, zpow_natCast, zpow_one]
  push_cast
  field_simp

/-- A number over a positive one, written into a narrow format, is rounded once. -/
theorem narrowOf_write_div {n : Narrow} (hn : Shaped n) (topx : Bool) (rm : Rm) (s : Bool) (m : Nat) (e : Int) {g : Nat}
    (hg : g ≠ 0) (k : Int) : NarrowOf n topx rm (.real s (finValue s m e / finValue false g k))
      (n.write topx rm (Num.div (.fin s m e) (.fin false g k))) := by
  rcases eq_or_ne m 0 with rfl | hm
  · have hzero : finValue s 0 e / finValue false g k = 0 := by rw [(finValue_eq_zero s 0 e).mpr rfl, zero_div]
    have hdiv : Num.div (.fin s 0 e) (.fin false g k) = .fin s 0 0 := by simp [Num.div, hg]
    rw [hzero, hdiv]
    exact narrowOf_write_fin hn topx rm s (by simp) (.inl (by simp))
  · obtain ⟨hd, hstands⟩ := standsFor_quotient hm hg e k
    have hdiv : Num.div (.fin s m e) (.fin false g k) =
        .fin s (oddDiv (m <<< (128 + Nat.log2 g)) g) (e - k - ((128 + Nat.log2 g : Nat) : Int) - 1) := by
      simp [Num.div, hg, hm]
    have hne : finValue s m e / finValue false g k ≠ 0 :=
      div_ne_zero (mt (finValue_eq_zero s m e).mp hm) (mt (finValue_eq_zero false g k).mp hg)
    rw [hdiv]
    refine narrowOf_write_fin hn topx rm s (iff_of_false hd hne) ?_
    rwa [Rat.cast_div, abs_div, abs_finValue, abs_finValue]

/-- An element written over its scale (R70). -/
theorem narrowOf_scaledWrite {n : Narrow} (hn : Shaped n) (hscale : n.scale = 1 ∨ n.scale = 2) (topx : Bool) (rm : Rm)
    (b : Nat) (x : Num) (hb : scaleValue n.scale b ≠ some 0) :
    NarrowOf n topx rm (overScale (scaleValue n.scale b) (ofNum x)) (scaledWrite n topx rm b x) := by
  unfold scaledWrite
  rcases scaleRead_spec hscale b with ⟨hread, hvalue⟩ | ⟨g, k, hread, hvalue⟩
  · rw [hread, hvalue]
    exact narrowOf_write_nan n topx rm
  · have hg : g ≠ 0 := by
      rintro rfl
      exact hb (by rw [hvalue, (finValue_eq_zero false 0 k).mpr rfl])
    rw [hread, hvalue]
    cases x with
    | nan => exact narrowOf_write_nan n topx rm
    | inf s =>
      have hdiv : Num.div (.inf s) (.fin false g k) = .inf s := by simp [Num.div]
      simp only [hdiv]
      exact narrowOf_write_inf n topx rm s
    | fin s m e => exact narrowOf_write_div hn topx rm s m e hg k

/-! ### The scale of a block -/

/-- The largest finite value as the model has it, in a format with exponent bits. -/
theorem read_maxCode {n : Narrow} (heb : n.eb ≠ 0) (topx : Bool) : n.read topx (n.maxCode topx) =
    .fin false (n.maxCode topx % 2 ^ n.mb + 2 ^ n.mb) ((n.maxCode topx / 2 ^ n.mb : Nat) - n.bias - n.mb) := by
  have hlt := maxCode_lt n topx
  have hle := le_maxCode heb topx
  have hpos : 0 < 2 ^ n.mb := by positivity
  have hexponent : n.maxCode topx / 2 ^ n.mb % 2 ^ n.eb = n.maxCode topx / 2 ^ n.mb := by
    refine Nat.mod_eq_of_lt ?_
    rwa [Nat.div_lt_iff_lt_mul hpos, ← pow_add]
  have hsign : n.maxCode topx / 2 ^ (n.mb + n.eb) = 0 := Nat.div_eq_of_lt (by rwa [Nat.add_comm])
  have hnormal : n.maxCode topx / 2 ^ n.mb ≠ 0 := by
    rw [Ne, Nat.div_eq_zero_iff_lt hpos]
    omega
  have hinf : ¬ (4 ≤ n.eb ∧ topx = false ∧ n.maxCode topx / 2 ^ n.mb = 2 ^ n.eb - 1) := by
    rintro ⟨h4, rfl, he⟩
    have hmul := Nat.div_mul_le_self (n.maxCode false) (2 ^ n.mb)
    rw [he, maxCode_eq, if_neg (by omega), if_neg Bool.false_ne_true] at hmul
    have h16 : 2 ^ 4 ≤ 2 ^ n.eb := Nat.pow_le_pow_right two_pos h4
    have := Nat.mul_pos (show 0 < 2 ^ n.eb - 1 by omega) hpos
    omega
  have hnan : ¬ (4 ≤ n.eb ∧ topx = true ∧ n.maxCode topx / 2 ^ n.mb = 2 ^ n.eb - 1 ∧
      n.maxCode topx % 2 ^ n.mb = 2 ^ n.mb - 1) := by
    rintro ⟨h4, rfl, he, hm⟩
    have hsplit := Nat.div_add_mod' (n.maxCode true) (2 ^ n.mb)
    have h16 : 2 ^ 4 ≤ 2 ^ n.eb := Nat.pow_le_pow_right two_pos h4
    have hmul : (2 ^ n.eb - 1) * 2 ^ n.mb + 2 ^ n.mb = 2 ^ (n.eb + n.mb) := by
      rw [← Nat.succ_mul, Nat.succ_eq_add_one, Nat.sub_add_cancel (by omega), pow_add]
    rw [he, hm] at hsplit
    have hmax : n.maxCode true = 2 ^ (n.eb + n.mb) - 2 := by rw [maxCode_eq, if_neg (by omega), if_pos rfl]
    omega
  unfold Narrow.read
  simp only [Nat.shiftRight_eq_div_pow, hexponent, hsign, Bool.and_eq_true, decide_eq_true_eq, Bool.not_eq_true', beq_iff_eq,
    and_assoc, heb, hnormal, hinf, hnan, if_false]
  simp

/-- The largest finite value of a format is a positive number (R65, R70). -/
theorem maxValue_spec {n : Narrow} (hn : Shaped n) (topx : Bool) :
    ∃ g k, n.maxValue topx = .fin false g k ∧ g ≠ 0 ∧ largestOf n topx = finValue false g k := by
  unfold Narrow.maxValue largestOf
  by_cases heb : n.eb = 0
  · obtain ⟨hw, h2, -⟩ := hn
    have hmb : n.mb ≠ 0 := by
      have := Bool.toNat_le n.sign
      omega
    have htwo : 2 ≤ 2 ^ n.mb := by simpa using Nat.pow_le_pow_right two_pos (Nat.one_le_iff_ne_zero.mpr hmb)
    have hhi : n.intHi.toNat = 2 ^ n.mb - 1 := by unfold Narrow.intHi; omega
    refine ⟨2 ^ n.mb - 1, -n.bias, ?_, by omega, ?_⟩
    · rw [if_pos heb, hhi]
    · rw [if_pos heb]
      simp [finValue]
  · refine ⟨_, _, (if_neg heb).trans (read_maxCode heb topx), by positivity, ?_⟩
    rw [if_neg heb, ← maxCode_eq, narrowMagnitude, if_neg (not_lt.mpr (le_maxCode heb topx))]
    simp [finValue]

theorem abs_finValue_rat (neg : Bool) (m : Nat) (e : Int) : |finValue neg m e| = finValue false m e := by
  have : (0 : ℚ) ≤ (m : ℚ) * 2 ^ e := by positivity
  cases neg <;> simp [finValue, abs_mul]

/-- A non-zero number lies in the binade of the model's exponent. -/
theorem expo_binade (s : Bool) {m : Nat} (hm : m ≠ 0) (e : Int) :
    (2 : ℚ) ^ (Num.fin s m e).expo ≤ |finValue s m e| ∧ |finValue s m e| < (2 : ℚ) ^ ((Num.fin s m e).expo + 1) := by
  have h := log2_binade hm e
  rw [← abs_finValue s] at h
  change (2 : ℚ) ^ ((Nat.log2 m : Int) + e) ≤ _ ∧ _ < (2 : ℚ) ^ ((Nat.log2 m : Int) + e + 1)
  refine ⟨?_, ?_⟩
  · rw [← Rat.cast_le (K := ℝ)]
    push_cast
    exact h.1
  · rw [← Rat.cast_lt (K := ℝ)]
    push_cast
    exact h.2

theorem shaped_e4m3Scale : Shaped e4m3Scale := ⟨rfl, by decide, by decide⟩

/-- The sign bit that the two readings of an E4M3 scale byte differ in plays no part in a positive value. -/
theorem e4m3_write_eq (topx : Bool) (rm : Rm) (m : Nat) (e : Int) :
    e4m3.write topx rm (.fin false m e) = e4m3Scale.write topx rm (.fin false m e) := rfl

/-- The scale byte that the model chooses is the one of R70. -/
theorem scaleOf_scaleChoose {n : Narrow} (hn : Shaped n) (topx : Bool) (a : Num) :
    ScaleOf n topx (ofNum a) (scaleChoose n topx a) := by
  obtain ⟨g, k, hmax, hg, hlargest⟩ := maxValue_spec hn topx
  cases a with
  | nan => exact ⟨fun h => by simp [scaleChoose, h], fun h => by simp [scaleChoose, h]⟩
  | inf s => exact ⟨fun h => by simp [scaleChoose, h], fun h => by simp [scaleChoose, h]⟩
  | fin s m e =>
    rw [ofNum_fin]
    refine ⟨fun h => ⟨fun hy => ?_, fun hy => ?_⟩, fun h => ⟨fun hy => ?_, fun hy => ?_⟩⟩
    · simp [scaleChoose, h, (finValue_eq_zero s m e).mp hy]
    · have hm : m ≠ 0 := mt (finValue_eq_zero s m e).mpr hy
      obtain ⟨hlow, hhigh⟩ := expo_binade s hm e
      obtain ⟨hlow', hhigh'⟩ := expo_binade false hg k
      rw [abs_finValue_rat, ← hlargest, ← hmax] at hlow' hhigh'
      refine ⟨_, _, hlow, hhigh, hlow', hhigh', ?_⟩
      simp only [scaleChoose, h, hm, if_false]
      split
      · omega
      split <;> omega
    · simp [scaleChoose, h, (finValue_eq_zero s m e).mp hy]
    · have hm : m ≠ 0 := mt (finValue_eq_zero s m e).mpr hy
      have hdiv : Num.div (.fin false m e) (.fin false g k) =
          .fin false (oddDiv (m <<< (128 + Nat.log2 g)) g) (e - k - ((128 + Nat.log2 g : Nat) : Int) - 1) := by
        simp [Num.div, hg, hm]
      have hchoose : scaleChoose n topx (.fin s m e) =
        e4m3Scale.write true .rup (Num.div (.fin false m e) (.fin false g k)) := by
        simp only [scaleChoose, h, hm, if_false, Num.abs, hmax]
        rw [hdiv, e4m3_write_eq]
      rw [hchoose, abs_finValue_rat, hlargest]
      exact narrowOf_write_div shaped_e4m3Scale true .rup false m e hg k

/-! ### The largest magnitude of a block -/

/-- Magnitudes of the model compare as the numbers they are. -/
theorem fin_lt_iff (m n : Nat) (e g : Int) :
    (Num.fin false m e).lt (.fin false n g) = true ↔ finValue false m e < finValue false n g := by
  have hscaled (m : Nat) (e q : Int) (hq : q ≤ e) : ((scaled false m e q : Int) : ℚ) * 2 ^ q = finValue false m e := by
    unfold scaled finValue
    simp only [Bool.false_eq_true, if_false, one_mul, Nat.shiftLeft_eq]
    push_cast
    rw [mul_assoc, ← zpow_natCast, ← zpow_add₀ two_ne_zero, Int.toNat_of_nonneg (by omega), sub_add_cancel]
  have hpos : (0 : ℚ) < 2 ^ min e g := by positivity
  rw [← hscaled m e (min e g) (min_le_left e g), ← hscaled n g (min e g) (min_le_right e g), mul_lt_mul_iff_left₀ hpos,
    Int.cast_lt]
  simp [Num.lt]

/-- One more element: the larger of its magnitude and the largest so far. -/
theorem largestMagnitude_append {xs : List Source} {a : Num} (h : LargestMagnitude xs (ofNum a)) (x : Num) :
    LargestMagnitude (xs ++ [ofNum x]) (ofNum (a.maxMag x)) := by
  obtain ⟨hnan, hinf, hreal⟩ := h
  cases x with
  | nan =>
    have hmax : a.maxMag .nan = .nan := by cases a <;> rfl
    rw [hmax]
    exact ⟨fun _ => rfl, fun h => absurd (by simp [ofNum]) h, fun h => absurd (by simp [ofNum]) h⟩
  | inf t =>
    have hmem : Source.nan ∈ xs ++ [ofNum (.inf t)] ↔ Source.nan ∈ xs := by simp [ofNum]
    refine ⟨fun h => ?_, fun h _ => ?_, fun _ h => absurd (h t) (by simp [ofNum])⟩
    · have ha : a = .nan := by
        have := hnan (hmem.mp h)
        cases a <;> simp_all [ofNum]
      rw [ha]
      rfl
    · have ha : a ≠ .nan := by
        rintro rfl
        by_cases hex : ∃ s, Source.inf s ∈ xs
        · exact absurd (hinf (mt hmem.mpr h) hex) (by simp [ofNum])
        · obtain ⟨y, hy, -⟩ := hreal (mt hmem.mpr h) (by simpa using hex)
          exact absurd hy (by simp [ofNum])
      cases a with
      | nan => exact absurd rfl ha
      | inf s => rfl
      | fin s m e => rfl
  | fin t n g =>
    have hmem : Source.nan ∈ xs ++ [ofNum (.fin t n g)] ↔ Source.nan ∈ xs := by simp
    have hmem' (s : Bool) : Source.inf s ∈ xs ++ [ofNum (.fin t n g)] ↔ Source.inf s ∈ xs := by simp
    refine ⟨fun h => ?_, fun h hex => ?_, fun h hex => ?_⟩
    · have ha : a = .nan := by
        have := hnan (hmem.mp h)
        cases a <;> simp_all [ofNum]
      rw [ha]
      rfl
    · have ha := hinf (mt hmem.mpr h) (by simpa only [hmem'] using hex)
      cases a with
      | nan => exact absurd ha (by simp [ofNum])
      | inf s => rfl
      | fin s m e => exact absurd ha (by simp)
    · obtain ⟨y, hy, hle, hattained⟩ := hreal (mt hmem.mpr h) (by simpa only [hmem'] using hex)
      cases a with
      | nan => exact absurd hy (by simp [ofNum])
      | inf s => exact absurd hy (by simp [ofNum])
      | fin s m e =>
        rw [ofNum_fin] at hy
        injection hy with hs hvalue
        subst hs hvalue
        have hmax : (Num.fin false m e).maxMag (.fin t n g) =
            if finValue false m e < finValue false n g then .fin false n g else .fin false m e := by
          simp only [Num.maxMag, Num.abs, fin_lt_iff]
        rw [hmax]
        have hlast : Source.real t (finValue t n g) ∈ xs ++ [ofNum (.fin t n g)] := by simp
        split
        · next hlt =>
          refine ⟨_, rfl, fun s' z hz => ?_, .inr ⟨t, finValue t n g, hlast, abs_finValue_rat t n g⟩⟩
          rcases List.mem_append.mp hz with hz | hz
          · exact (hle s' z hz).trans hlt.le
          · obtain ⟨-, rfl⟩ : s' = t ∧ z = finValue t n g := by simpa using hz
            exact (abs_finValue_rat t n g).le
        · next hge =>
          refine ⟨_, rfl, fun s' z hz => ?_, hattained.imp_right ?_⟩
          · rcases List.mem_append.mp hz with hz | hz
            · exact hle s' z hz
            · obtain ⟨-, rfl⟩ : s' = t ∧ z = finValue t n g := by simpa using hz
              rw [abs_finValue_rat]
              exact not_lt.mp hge
          · rintro ⟨s', z, hz, hz'⟩
            exact ⟨s', z, List.mem_append_left _ hz, hz'⟩

/-- `blockMax` is the largest magnitude among the enabled elements of a block. -/
theorem largestMagnitude_blockMax (mask first count : Nat) (src : Nat → Num) : LargestMagnitude
    ((((List.range count).map (· + first)).filter mask.testBit).map (fun e => ofNum (src e)))
    (ofNum (blockMax mask src first count)) := by
  unfold blockMax
  induction (((List.range count).map (· + first)).filter mask.testBit) using List.reverseRecOn with
  | nil => exact ⟨fun h => by simp at h, fun _ h => by simp at h, fun _ _ => ⟨0, by simp [finValue], by simp, .inl rfl⟩⟩
  | append_singleton xs x ih =>
    rw [List.map_append, List.foldl_append]
    exact largestMagnitude_append ih (src x)

end Sys2Proof.Machine
end
section
/-!
SUPPORT. FCVT and VCVT as words (R109, R130): their checks, and the state that they leave.
-/

namespace Sys2Proof.Machine

open Sys2Proof.Rules

/-! ### The checks of a conversion -/

@[simp] theorem consumeAll_fmtReg (s : State) (f : Form) (i : Nat) : (consumeAll s f).me.fmtReg i = s.me.fmtReg i := by
  simp [Slot.fmtReg]

@[simp] theorem consumeAll_oldVec (s : State) (f : Form) (d : VReg) : oldVec (consumeAll s f) d =
    (s.me.vCell d.val).val := by
  simp [oldVec, Slot.vCell]

section
variable (s : State) (v : Avail) (dk sk : Kind) (i : Nat)

theorem convCheck_passes (h : (dk ≠ .nf ∧ sk ≠ .nf) ∨ (¬ (dk = .nf ∧ sk = .nf) ∧ imageValid (s.me.fmtReg i) = true)) :
    (convCheck dk sk i).pre s v = none := by
  rcases h with ⟨hd, hs⟩ | ⟨hboth, himg⟩
  · simp [convCheck, hd, hs]
  · simp [convCheck, hboth, formatTrap, himg]

theorem convCheck_illegal (h : dk = .nf ∧ sk = .nf) : (convCheck dk sk i).pre s v = some trapIllegal := if_pos h

theorem convCheck_format (h : (dk = .nf ∧ sk ≠ .nf) ∨ (dk ≠ .nf ∧ sk = .nf)) (himg : imageValid (s.me.fmtReg i) = false) :
    (convCheck dk sk i).pre s v = some (trapFormat i) := by
  have hboth : ¬ (dk = .nf ∧ sk = .nf) := by tauto
  have hone : dk = .nf ∨ sk = .nf := by tauto
  simp [convCheck, hboth, hone, formatTrap, himg]

end

/-! ### FCVT -/

theorem exec_fcvt (x : ConvR) (s : State) : exec (.fcvt x) s = execFcvt x s := rfl

theorem execFcvt_delivers {x : ConvR} {s : State} {v : Vals} (hp : Poised s (formA x.a x.d) v)
    (h : (x.dk ≠ .nf ∧ x.sk ≠ .nf) ∨ (¬ (x.dk = .nf ∧ x.sk = .nf) ∧ imageValid (s.me.fmtReg x.fmt.val) = true)) :
    execFcvt x s = .next (delivers s (formA x.a x.d) x.stall
      (.one (BitVec.ofNat 64 (convScalar x (narrowOf (s.me.fmtReg x.fmt.val)) (consumeAll s (formA x.a x.d)).me.topx
        v.a.toNat)) 0) .seq (convSnan x.sk v.a.toNat)) := by
  refine issue_delivers hp (convCheck_passes s _ _ _ _ h) rfl ?_
  rw [consumeAll_fmtReg]

theorem execFcvt_trap {x : ConvR} {s : State} {v : Vals} {t : Trap} (hp : Poised s (formA x.a x.d) v)
    (h : (convCheck x.dk x.sk x.fmt.val).pre s (avail s (formA x.a x.d)) = some t) :
    execFcvt x s = .next (trapHere s t) := issue_trap hp.thread hp.agrees (firstTrap_pre h)

/-! ### VCVT -/

theorem exec_vcvt (x : ConvV) (s : State) : exec (.vcvt x) s = execVcvt x s := rfl

theorem kindWidth_eq_64_iff (k : Kind) : kindWidth k = 64 ↔ k = .f64 ∨ k = .i64 ∨ k = .u64 := by
  cases k <;> decide

theorem kindWidth_le_slotBits (k : Kind) : kindWidth k ≤ slotBits (kindWidth k) := by
  cases k <;> decide

/-- A kind's element is the low bits of what its lanes hold. -/
theorem elem_eq_element (k : Kind) (v : VImage) (e : Nat) : elem (kindWidth k) v e = element (kindWidth k) v e := by
  unfold element held
  rw [Nat.mod_mod_of_dvd _ (pow_dvd_pow 2 (kindWidth_le_slotBits k))]
  rfl

/-- The mask of a word enables the elements of R117. -/
theorem testBit_maskOf (k : Src) (v : W64) (e : Nat) : (maskOf k v).testBit e = true ↔ enables k v e := by
  unfold maskOf enables
  split
  · next hz => rw [Nat.testBit_two_pow_sub_one]; simp [hz]
  · next hz => rw [Nat.testBit_mod_two_pow, ← BitVec.getLsbD]; simp [hz]

section
variable (s : State) (v : Avail) (x : ConvV)

theorem vcvtCheck_passes (h : (x.dk ≠ .nf ∧ x.sk ≠ .nf) ∨ (imageValid (s.me.fmtReg x.fmt.val) = true ∧
    ((x.dk = .nf ∧ x.sk ≠ .nf ∧ kindWidth x.sk ≠ 64) ∨ (x.sk = .nf ∧ x.dk ≠ .nf ∧ kindWidth x.dk ≠ 64)))) :
    (vcvtCheck x).pre s v = none := by
  have hwide : ¬ ((x.dk = .nf ∧ kindWidth x.sk = 64) ∨ (x.sk = .nf ∧ kindWidth x.dk = 64)) := by tauto
  exact (if_neg hwide).trans (convCheck_passes s v x.dk x.sk x.fmt.val (by tauto))

theorem vcvtCheck_illegal
    (h : (x.dk = .nf ∧ kindWidth x.sk = 64) ∨ (x.sk = .nf ∧ kindWidth x.dk = 64) ∨ (x.dk = .nf ∧ x.sk = .nf)) :
    (vcvtCheck x).pre s v = some trapIllegal := by
  by_cases hwide : (x.dk = .nf ∧ kindWidth x.sk = 64) ∨ (x.sk = .nf ∧ kindWidth x.dk = 64)
  · exact if_pos hwide
  · exact (if_neg hwide).trans (convCheck_illegal s v x.dk x.sk x.fmt.val (by tauto))

theorem vcvtCheck_format
    (h : (x.dk = .nf ∧ x.sk ≠ .nf ∧ kindWidth x.sk ≠ 64) ∨ (x.sk = .nf ∧ x.dk ≠ .nf ∧ kindWidth x.dk ≠ 64))
    (himg : imageValid (s.me.fmtReg x.fmt.val) = false) : (vcvtCheck x).pre s v = some (trapFormat x.fmt.val) := by
  have hwide : ¬ ((x.dk = .nf ∧ kindWidth x.sk = 64) ∨ (x.sk = .nf ∧ kindWidth x.dk = 64)) := by tauto
  exact (if_neg hwide).trans (convCheck_format s v x.dk x.sk x.fmt.val (by tauto) himg)

end

/-- The operand fields of VCVT: its mask stands in field B. -/
def formVcvt (x : ConvV) : Form := { noOperands with a := .v x.a, b := .s x.k, d := .v x.d }

/-- Whether an enabled element that VCVT reads is a signalling NaN. -/
def vcvtSnan (x : ConvV) (v : Vals) : Bool :=
  ((List.range (if kindWidth x.sk = 64 ∨ kindWidth x.dk = 64 then 16 else 32)).filter (maskOf x.k v.b).testBit).any
    (fun e => convSnan x.sk (elem (kindWidth x.sk) v.va e))

theorem vcvtSnan_iff (x : ConvV) (v : Vals) : vcvtSnan x v = true ↔
    ∃ e < 32, (kindWidth x.dk = 64 ∨ kindWidth x.sk = 64 → e < 16) ∧ enables x.k v.b e ∧
      convSnan x.sk (element (kindWidth x.sk) v.va e) = true := by
  have hcount (e : Nat) : e < (if kindWidth x.sk = 64 ∨ kindWidth x.dk = 64 then 16 else 32) ↔
      e < 32 ∧ (kindWidth x.dk = 64 ∨ kindWidth x.sk = 64 → e < 16) := by
    rw [or_comm (a := kindWidth x.dk = 64)]
    split <;> omega
  simp only [vcvtSnan, List.any_eq_true, List.mem_filter, List.mem_range, hcount, testBit_maskOf, elem_eq_element, and_assoc]

theorem execVcvt_delivers {x : ConvV} {s : State} {v : Vals} (hp : Poised s (formVcvt x) v)
    (h : (x.dk ≠ .nf ∧ x.sk ≠ .nf) ∨ (imageValid (s.me.fmtReg x.fmt.val) = true ∧
      ((x.dk = .nf ∧ x.sk ≠ .nf ∧ kindWidth x.sk ≠ 64) ∨ (x.sk = .nf ∧ x.dk ≠ .nf ∧ kindWidth x.dk ≠ 64)))) :
    execVcvt x s = .next (delivers s (formVcvt x) x.stall
      (.vec (vcvtResult x (narrowOf (s.me.fmtReg x.fmt.val)) (consumeAll s (formVcvt x)).me.topx (maskOf x.k v.b)
        (s.me.vCell x.d.val).val v.va) 0) .seq (vcvtSnan x v)) := by
  refine issue_delivers hp (vcvtCheck_passes s _ x h) rfl ?_
  rw [← consumeAll_oldVec s (formVcvt x), ← consumeAll_fmtReg s (formVcvt x)]
  rfl

theorem execVcvt_trap {x : ConvV} {s : State} {v : Vals} {t : Trap} (hp : Poised s (formVcvt x) v)
    (h : (vcvtCheck x).pre s (avail s (formVcvt x)) = some t) : execVcvt x s = .next (trapHere s t) :=
  issue_trap hp.thread hp.agrees (firstTrap_pre h)

end Sys2Proof.Machine
end
section
/-!
SUPPORT. The images that VCVT leaves (R68, R115, R117, R130): cells of a register, the elements and scale bytes of a narrow
destination.
-/

namespace Sys2Proof.Machine

open Sys2Proof.Rules

/-! ### Cells of a register -/

theorem joinCells_lt {b : Nat} {l : List Nat} (h : ∀ c ∈ l, c < 2 ^ b) : joinCells b l < 2 ^ (b * l.length) := by
  induction l with
  | nil => exact Nat.two_pow_pos _
  | cons c cs ih =>
    have hc := h c (List.mem_cons_self ..)
    have hcs := ih fun d hd => h d (List.mem_cons_of_mem c hd)
    rw [joinCells, List.length_cons, Nat.mul_succ, Nat.add_comm (b * _), pow_add]
    calc c + 2 ^ b * joinCells b cs < 2 ^ b + 2 ^ b * joinCells b cs := Nat.add_lt_add_right hc _
      _ = 2 ^ b * (joinCells b cs + 1) := by ring
      _ ≤ 2 ^ b * 2 ^ (b * cs.length) := Nat.mul_le_mul_left _ hcs

/-- Cell e of joined cells. -/
theorem joinCells_cell {b : Nat} {l : List Nat} (h : ∀ c ∈ l, c < 2 ^ b) (e : Nat) :
    joinCells b l / 2 ^ (b * e) % 2 ^ b = (l[e]?).getD 0 := by
  induction l generalizing e with
  | nil => simp [joinCells]
  | cons c cs ih =>
    have hc := h c (List.mem_cons_self ..)
    cases e with
    | zero => simp [joinCells, Nat.mod_eq_of_lt hc]
    | succ e =>
      rw [List.getElem?_cons_succ, ← ih (fun d hd => h d (List.mem_cons_of_mem c hd)), joinCells, Nat.mul_succ,
        Nat.add_comm (b * e), pow_add, ← Nat.div_div_eq_div_mul, Nat.add_mul_div_left _ _ (Nat.two_pow_pos b),
        Nat.div_eq_of_lt hc, Nat.zero_add]

section
variable {b n : Nat} {f : Nat → Nat} (h : ∀ e < n, f e < 2 ^ b)
include h

theorem mem_cells_lt : ∀ c ∈ (List.range n).map f, c < 2 ^ b := by
  simpa using h

theorem joinCells_range_lt : joinCells b ((List.range n).map f) < 2 ^ (b * n) := by
  simpa using joinCells_lt (mem_cells_lt h)

theorem joinCells_range_cell {e : Nat} (he : e < n) : joinCells b ((List.range n).map f) / 2 ^ (b * e) % 2 ^ b = f e := by
  rw [joinCells_cell (mem_cells_lt h)]
  simp [he]

end

/-! ### Destinations that are not narrow -/

theorem elemCount_eq (w : Nat) : elemCount w = 1024 / slotBits w := by
  unfold elemCount slotBits
  split <;> rfl

/-- The cells of a register fill it. -/
theorem slotBits_mul_elemCount (w : Nat) : slotBits w * elemCount w = 1024 := by
  unfold elemCount slotBits
  split <;> rfl

/-- Element e of a register made of cells. -/
theorem held_joinCells {w : Nat} {f : Nat → Nat} (h : ∀ e < elemCount w, f e < 2 ^ slotBits w) {e : Nat}
    (he : e < elemCount w) :
    held w (BitVec.ofNat 1024 (joinCells (slotBits w) ((List.range (elemCount w)).map f))) e = f e := by
  have hlt := joinCells_range_lt h
  rw [slotBits_mul_elemCount] at hlt
  rw [held, BitVec.toNat_ofNat, Nat.mod_eq_of_lt hlt, joinCells_range_cell h he]

/-- Number of elements that VCVT converts (R130). -/
def vcvtCount (x : ConvV) : Nat := if kindWidth x.dk = 64 ∨ (if x.sk = .nf then 32 else kindWidth x.sk) = 64 then 16 else 32

/-- The cell that VCVT gives element e of a destination that is not narrow. -/
def vcvtCell (x : ConvV) (n : Narrow) (topx : Bool) (mask : Nat) (old v : VImage) (e : Nat) : Nat :=
  if vcvtCount x ≤ e then 0
  else if mask.testBit e then
    convWrite x.dk x.rm x.ftz (vcvtRead x n topx v e) % 2 ^ slotBits (kindWidth x.dk)
  else held (kindWidth x.dk) old e

theorem vcvtCell_lt (x : ConvV) (n : Narrow) (topx : Bool) (mask : Nat) (old v : VImage) (e : Nat) :
    vcvtCell x n topx mask old v e < 2 ^ slotBits (kindWidth x.dk) := by
  unfold vcvtCell
  split
  · exact Nat.two_pow_pos _
  split
  · exact Nat.mod_lt _ (Nat.two_pow_pos _)
  · exact Nat.mod_lt _ (Nat.two_pow_pos _)

theorem held_vcvtResult {x : ConvV} (hdk : x.dk ≠ .nf) (n : Narrow) (topx : Bool) (mask : Nat) (old v : VImage) {e : Nat}
    (he : e < 1024 / slotBits (kindWidth x.dk)) :
    held (kindWidth x.dk) (vcvtResult x n topx mask old v) e = vcvtCell x n topx mask old v e := by
  rw [← elemCount_eq] at he
  rw [← held_joinCells (fun e _ => vcvtCell_lt x n topx mask old v e) he, vcvtResult, if_neg hdk]
  rfl

/-! ### The elements that VCVT reads -/

/-- The elements that share a scale byte, in the spelling of R68. -/
theorem packedScale_eq {n : Narrow} (hscale : n.scale = 0 ∨ n.scale = 1 ∨ n.scale = 2) (v : VImage) {e : Nat} (he : e < 32) :
    packedScale n v e = scaleIn n v e := by
  have hzero : e / 32 = 0 := by omega
  unfold packedScale scaleIn
  rcases hscale with h | h | h <;> simp [h, scaleBlock, hzero] <;> rfl

theorem scale_of_imageValid {i : BitVec 32} (h : imageValid i = true) :
    (narrowOf i).scale = 0 ∨ (narrowOf i).scale = 1 ∨ (narrowOf i).scale = 2 := by
  have hlt : (narrowOf i).scale < 2 ^ 2 := BitVec.isLt _
  simp only [imageValid, Bool.and_eq_true, bne_iff_ne] at h
  obtain ⟨-, h3⟩ := h
  omega

theorem inKind_vcvtRead (x : ConvV) (n : Narrow) (topx : Bool) (v : VImage) (e : Nat) : InKind (vcvtRead x n topx v e) := by
  unfold vcvtRead
  split
  · trivial
  · exact inKind_convRead _ _ _ _

/-- An element that is not narrow is read in its kind. -/
theorem sourceOf_vcvtRead {x : ConvV} (hsk : x.sk ≠ .nf) (n : Narrow) (topx : Bool) (v : VImage) (e : Nat) :
    sourceOf (vcvtRead x n topx v e) = kindSource x.sk x.ftz (element (kindWidth x.sk) v e) := by
  rw [vcvtRead, if_neg hsk, sourceOf_convRead hsk, elem_eq_element]

/-- A narrow element is read under its scale. -/
theorem sourceOf_vcvtRead_narrow {x : ConvV} (hsk : x.sk = .nf) {n : Narrow}
    (hscale : n.scale = 0 ∨ n.scale = 1 ∨ n.scale = 2) (topx : Bool) (v : VImage) {e : Nat} (he : e < 32) :
    sourceOf (vcvtRead x n topx v e) = ofNum (vcvtNum x n topx v e) := by
  rw [vcvtRead, if_pos hsk, packedScale_eq hscale v he, vcvtNum, hsk]
  rfl

/-- An element that is not narrow as a number. -/
theorem toNum_vcvtRead {x : ConvV} (hsk : x.sk ≠ .nf) (n : Narrow) (topx : Bool) (v : VImage) (e : Nat) :
    (vcvtRead x n topx v e).toNum = vcvtNum x n topx v e := by
  rw [vcvtRead, if_neg hsk, elem_eq_element, vcvtNum]
  rcases kind_cases hsk with ⟨w, sg, h⟩ | ⟨h, f, h'⟩
  · have hw : kindWidth x.sk = w := by rw [kindWidth, h]
    have hmod : element w v e % 2 ^ w = element w v e := Nat.mod_mod _ _
    rw [convRead_int h, h, hw, intRead_eq (kindInt_width h).1, hmod]
    rfl
  · rw [convRead_fmt h h', h, h']
    rfl

/-- What VCVT writes into an enabled element of a destination that is not narrow. -/
theorem converts_vcvtRead {x : ConvV} (hdk : x.dk ≠ .nf) {img : BitVec 32} (himg : imageValid img = true ∨ x.sk ≠ .nf)
    (topx : Bool) (v : VImage) {e : Nat} (he : e < 32) :
    Converts x.dk x.rm x.ftz (narrowOf img) topx
      (if x.sk = .nf then ofNum (vcvtNum x (narrowOf img) topx v e)
        else kindSource x.sk x.ftz (element (kindWidth x.sk) v e))
      (convWrite x.dk x.rm x.ftz (vcvtRead x (narrowOf img) topx v e)) := by
  have h := converts_convWrite hdk x.rm x.ftz (narrowOf img) topx (inKind_vcvtRead x (narrowOf img) topx v e)
  split
  · next hsk =>
    rwa [sourceOf_vcvtRead_narrow hsk (scale_of_imageValid (himg.resolve_right (not_not_intro hsk))) topx v he] at h
  · next hsk => rwa [sourceOf_vcvtRead hsk] at h

/-! ### Narrow destinations -/

/-- A code that is written fits in the format. -/
theorem write_lt {n : Narrow} (hn : Shaped n) (topx : Bool) (rm : Rm) (x : Num) : n.write topx rm x < 2 ^ n.width := by
  obtain ⟨hw, h2, -⟩ := hn
  have hle : 2 ^ (n.eb + n.mb) ≤ 2 ^ n.width := Nat.pow_le_pow_right two_pos (by omega)
  have hpos : 0 < 2 ^ n.width := by positivity
  have hsign (neg : Bool) {c : Nat} (hc : c < 2 ^ (n.eb + n.mb)) : n.withSign neg c < 2 ^ n.width := by
    unfold Narrow.withSign
    split
    · next h =>
      have hs : n.sign = true := by simp_all
      rw [hw, hs, Bool.toNat_true, Nat.add_assoc, pow_add 2 1]
      omega
    · omega
  have hmax := maxCode_lt n topx
  have hinf : (2 ^ n.eb - 1) * 2 ^ n.mb < 2 ^ (n.eb + n.mb) := by
    rw [pow_add]
    exact Nat.mul_lt_mul_of_pos_right (Nat.sub_lt (by positivity) one_pos) (by positivity)
  have hnan (h : n.hasNan topx = true) : n.nanCode topx < 2 ^ n.width := by
    rw [nanCode_eq]
    split
    · exact (Nat.sub_lt (by positivity) one_pos).trans_le hle
    · next htop =>
      have hmb : n.mb ≠ 0 := by simp_all [Narrow.hasNan]
      have hhalf : 2 ^ (n.mb - 1) < 2 ^ n.mb := Nat.pow_lt_pow_right one_lt_two (by omega)
      have hall : (2 ^ n.eb - 1) * 2 ^ n.mb + 2 ^ n.mb = 2 ^ (n.eb + n.mb) := by
        rw [← Nat.succ_mul, Nat.succ_eq_add_one, Nat.sub_add_cancel Nat.one_le_two_pow, pow_add]
      omega
  have hover (neg : Bool) : n.over topx neg < 2 ^ n.width := by
    unfold Narrow.over
    split
    · exact hsign neg hmax
    split
    · rw [Nat.shiftLeft_eq]
      exact hsign neg hinf
    split
    · next h => exact hnan h
    · exact hsign neg hmax
  have hclamp (v : Int) : clampCode n.intLo n.intHi v n.width < 2 ^ n.width := by
    unfold clampCode
    have hmod := Int.emod_lt_of_pos (if v < n.intLo then n.intLo else if n.intHi < v then n.intHi else v)
      (by positivity : (0 : Int) < 2 ^ n.width)
    zify
    omega
  unfold Narrow.write
  cases x with
  | nan =>
    dsimp only
    split
    · next h => exact hnan h
    · exact hpos
  | inf neg =>
    dsimp only
    split
    · exact hpos
    split
    · exact hclamp _
    · exact hover neg
  | fin neg m e =>
    dsimp only
    split
    · exact hpos
    split
    · exact hclamp _
    split
    · exact hsign neg (by positivity)
    split
    · exact hsign neg (by positivity)
    split
    · exact hover neg
    · exact hsign neg (by omega)

theorem shaped_e4m3 : Shaped e4m3 := ⟨rfl, by decide, by decide⟩

/-- A scale byte that is chosen fits in a byte. -/
theorem scaleChoose_lt (n : Narrow) (topx : Bool) (a : Num) : scaleChoose n topx a < 2 ^ 8 := by
  have hwrite (x : Num) : e4m3.write true .rup x < 2 ^ 8 :=
    (write_lt shaped_e4m3 true .rup x).trans (by decide)
  unfold scaleChoose
  split
  · cases a <;> dsimp only
    · decide
    · decide
    · split
      · decide
      split
      · decide
      split <;> omega
  · cases a <;> dsimp only
    · decide
    · decide
    · split
      · decide
      · exact hwrite _
  · decide

end Sys2Proof.Machine
end
section
/-!
SUPPORT. The register that VCVT leaves in a narrow destination (R68, R70, R130): its elements, its scale bytes, and zeros
elsewhere.
-/

namespace Sys2Proof.Machine

open Sys2Proof.Rules

/-! ### Two parts of a register -/

section
variable {A B N : Nat} (hA : A < 2 ^ N)
include hA

theorem div_upper : (A + B * 2 ^ N) / 2 ^ N = B := by
  rw [Nat.add_mul_div_right _ _ (Nat.two_pow_pos N), Nat.div_eq_of_lt hA, Nat.zero_add]

theorem testBit_upper (i : Nat) : (A + B * 2 ^ N).testBit i = if i < N then A.testBit i else B.testBit (i - N) := by
  rw [Nat.add_comm, Nat.mul_comm]
  exact Nat.testBit_two_pow_mul_add B hA i

end

/-- The lower part keeps its fields. -/
theorem div_mod_lower (A B : Nat) {N i j : Nat} (h : i + j ≤ N) : (A + B * 2 ^ N) / 2 ^ i % 2 ^ j = A / 2 ^ i % 2 ^ j := by
  obtain ⟨k, rfl⟩ := Nat.exists_eq_add_of_le h
  rw [show B * 2 ^ (i + j + k) = 2 ^ i * (2 ^ j * (B * 2 ^ k)) by rw [pow_add, pow_add]; ring,
    Nat.add_mul_div_left _ _ (Nat.two_pow_pos i), Nat.add_mul_mod_self_left]

/-! ### The parts of a narrow destination -/

section
variable (n : Narrow) (topx : Bool) (rm : Rm) (mask : Nat) (old : VImage) (src : Nat → Num)

/-- The scale byte of block g. -/
def newScale (g : Nat) : Nat :=
  if ((List.range (scaleBlock n.scale)).map (· + scaleBlock n.scale * g)).any mask.testBit then
    scaleChoose n topx (blockMax mask src (scaleBlock n.scale * g) (scaleBlock n.scale))
  else lane old 31 / 2 ^ (8 * g) % 256

/-- The code of element e. -/
def newCode (e : Nat) : Nat :=
  if mask.testBit e then
    if scaleBlock n.scale = 0 then n.write topx rm (src e)
    else scaledWrite n topx rm (newScale n topx mask old src (e / scaleBlock n.scale)) (src e)
  else packedElem n old e

/-- The elements of the register. -/
def newElems : Nat := joinCells n.width ((List.range 32).map (newCode n topx rm mask old src))

/-- The scale bytes of the register. -/
def newScales : Nat := joinCells 8 ((List.range (scaleCount n)).map (newScale n topx mask old src))

theorem packNarrow_eq : packNarrow n topx rm mask old src =
    BitVec.ofNat 1024 (newElems n topx rm mask old src + newScales n topx mask old src * 2 ^ (32 * 31)) := by
  have hscales : newScales n topx mask old src = if scaleBlock n.scale = 0 then 0
      else joinCells 8 ((List.range (32 / scaleBlock n.scale)).map (newScale n topx mask old src)) := by
    unfold newScales scaleCount
    split <;> rfl
  rw [hscales]
  rfl

theorem newScale_lt (g : Nat) : newScale n topx mask old src g < 2 ^ 8 := by
  unfold newScale
  split
  · exact scaleChoose_lt _ _ _
  · exact Nat.mod_lt _ (by decide)

theorem scaledWrite_lt {n : Narrow} (hn : Shaped n) (b : Nat) (x : Num) : scaledWrite n topx rm b x < 2 ^ n.width := by
  unfold scaledWrite
  split <;> exact write_lt hn _ _ _

theorem newCode_lt {n : Narrow} (hn : Shaped n) (e : Nat) : newCode n topx rm mask old src e < 2 ^ n.width := by
  unfold newCode
  split
  · split
    · exact write_lt hn _ _ _
    · exact scaledWrite_lt topx rm hn _ _
  · exact Nat.mod_lt _ (Nat.two_pow_pos _)

theorem newElems_lt {n : Narrow} (hn : Shaped n) : newElems n topx rm mask old src < 2 ^ (n.width * 32) :=
  joinCells_range_lt fun e _ => newCode_lt topx rm mask old src hn e

theorem newScales_lt : newScales n topx mask old src < 2 ^ (8 * scaleCount n) :=
  joinCells_range_lt fun g _ => newScale_lt n topx mask old src g

theorem scaleCount_le : scaleCount n ≤ 2 := by
  unfold scaleCount scaleBlock
  split <;> decide

/-- The register as a number. -/
theorem packNarrow_toNat {n : Narrow} (hn : Shaped n) : (packNarrow n topx rm mask old src).toNat =
    newElems n topx rm mask old src + newScales n topx mask old src * 2 ^ 992 := by
  have hw : n.width * 32 ≤ 992 := by have := hn.2.2; omega
  have helems := (newElems_lt topx rm mask old src hn).trans_le (Nat.pow_le_pow_right two_pos hw)
  have hscales := (newScales_lt n topx mask old src).trans_le
    (Nat.pow_le_pow_right two_pos (show 8 * scaleCount n ≤ 32 by have := scaleCount_le n; omega))
  rw [packNarrow_eq, BitVec.toNat_ofNat]
  refine Nat.mod_eq_of_lt ?_
  calc newElems n topx rm mask old src + newScales n topx mask old src * 2 ^ (32 * 31)
      < 2 ^ 992 + newScales n topx mask old src * 2 ^ 992 := Nat.add_lt_add_right helems _
    _ = (newScales n topx mask old src + 1) * 2 ^ 992 := by ring
    _ ≤ 2 ^ 32 * 2 ^ 992 := Nat.mul_le_mul_right _ hscales
    _ = 2 ^ 1024 := by rw [← pow_add]

theorem packedIn_packNarrow {n : Narrow} (hn : Shaped n) {e : Nat} (he : e < 32) :
    packedIn n (packNarrow n topx rm mask old src) e = newCode n topx rm mask old src e := by
  have hfit : n.width * e + n.width ≤ 992 := by
    have := hn.2.2
    calc n.width * e + n.width = n.width * (e + 1) := rfl
      _ ≤ 8 * 32 := Nat.mul_le_mul this he
      _ ≤ 992 := by decide
  rw [packedIn, packNarrow_toNat topx rm mask old src hn, div_mod_lower _ _ hfit]
  exact joinCells_range_cell (fun e _ => newCode_lt topx rm mask old src hn e) he

theorem lane_packNarrow {n : Narrow} (hn : Shaped n) :
    lane (packNarrow n topx rm mask old src) 31 = newScales n topx mask old src := by
  have hw : n.width * 32 ≤ 992 := by have := hn.2.2; omega
  have helems := (newElems_lt topx rm mask old src hn).trans_le (Nat.pow_le_pow_right two_pos hw)
  have hscales := (newScales_lt n topx mask old src).trans_le
    (Nat.pow_le_pow_right two_pos (show 8 * scaleCount n ≤ 32 by have := scaleCount_le n; omega))
  rw [lane, packNarrow_toNat topx rm mask old src hn]
  exact (congrArg (· % 2 ^ 32) (div_upper helems)).trans (Nat.mod_eq_of_lt hscales)

/-- A block's elements are among the 32. -/
theorem block_lt {bs : Nat} (hbs : bs = 32 ∨ bs = 16) {e e' : Nat} (he : e < 32) (h : e' / bs = e / bs) : e' < 32 := by
  rcases hbs with rfl | rfl <;> omega

theorem scaleBlock_cases (hbs : scaleBlock n.scale ≠ 0) : scaleBlock n.scale = 32 ∨ scaleBlock n.scale = 16 := by
  unfold scaleBlock at *
  split <;> simp_all

theorem scaleIn_packNarrow {n : Narrow} (hn : Shaped n) (hscale : n.scale = 0 ∨ n.scale = 1 ∨ n.scale = 2)
    (hbs : scaleBlock n.scale ≠ 0) {e : Nat} (he : e < 32) :
    scaleIn n (packNarrow n topx rm mask old src) e = newScale n topx mask old src (e / scaleBlock n.scale) := by
  have hblock : e / scaleBlock n.scale < scaleCount n := by
    rw [scaleCount, if_neg hbs]
    rcases scaleBlock_cases n hbs with h | h <;> rw [h] <;> omega
  rw [← packedScale_eq hscale _ he, packedScale, if_neg hbs, lane_packNarrow topx rm mask old src hn]
  exact joinCells_range_cell (fun g _ => newScale_lt n topx mask old src g) hblock

/-- Bits outside the elements and the scale bytes are zero. -/
theorem getLsbD_packNarrow {n : Narrow} (hn : Shaped n) {i : Nat} (hi : 32 * n.width ≤ i)
    (h : i < 992 ∨ 992 + 8 * scaleCount n ≤ i) : (packNarrow n topx rm mask old src).getLsbD i = false := by
  have hw : n.width * 32 ≤ 992 := by have := hn.2.2; omega
  have helems := newElems_lt topx rm mask old src hn
  rw [BitVec.getLsbD, packNarrow_toNat topx rm mask old src hn,
    testBit_upper (helems.trans_le (Nat.pow_le_pow_right two_pos hw))]
  split
  · exact Nat.testBit_lt_two_pow (helems.trans_le (Nat.pow_le_pow_right two_pos (by omega)))
  · exact Nat.testBit_lt_two_pow ((newScales_lt n topx mask old src).trans_le (Nat.pow_le_pow_right two_pos (by omega)))

/-- A block is scaled anew where one of its elements is enabled. -/
theorem any_block_iff {bs : Nat} (hbs : bs ≠ 0) (g : Nat) :
    ((List.range bs).map (· + bs * g)).any mask.testBit = true ↔ ∃ e', e' / bs = g ∧ mask.testBit e' = true := by
  simp only [List.any_map, List.any_eq_true, List.mem_range, Function.comp]
  constructor
  · rintro ⟨i, hi, hbit⟩
    exact ⟨i + bs * g, by rw [Nat.add_mul_div_left _ _ (Nat.pos_of_ne_zero hbs), Nat.div_eq_of_lt hi, Nat.zero_add], hbit⟩
  · rintro ⟨e', rfl, hbit⟩
    exact ⟨e' % bs, Nat.mod_lt _ (Nat.pos_of_ne_zero hbs), by rwa [Nat.mod_add_div]⟩

theorem newScale_of_enabled (hbs : scaleBlock n.scale ≠ 0) {e : Nat}
    (h : ∃ e', e' / scaleBlock n.scale = e / scaleBlock n.scale ∧ mask.testBit e' = true) :
    newScale n topx mask old src (e / scaleBlock n.scale) = scaleChoose n topx
      (blockMax mask src (e / scaleBlock n.scale * scaleBlock n.scale) (scaleBlock n.scale)) := by
  rw [newScale, if_pos ((any_block_iff mask hbs _).mpr h), Nat.mul_comm]

theorem newScale_of_disabled {n : Narrow} (hscale : n.scale = 0 ∨ n.scale = 1 ∨ n.scale = 2)
    (hbs : scaleBlock n.scale ≠ 0) {e : Nat} (he : e < 32)
    (h : ¬ ∃ e', e' / scaleBlock n.scale = e / scaleBlock n.scale ∧ mask.testBit e' = true) :
    newScale n topx mask old src (e / scaleBlock n.scale) = scaleIn n old e := by
  rw [newScale, if_neg (mt (any_block_iff mask hbs _).mp h), ← packedScale_eq hscale old he, packedScale, if_neg hbs]

end

end Sys2Proof.Machine
end
section
/-!
PROOFS. Conversions check their kinds and format register: the obligation on scales, FCVT and VCVT.
-/

namespace Sys2Proof.Machine

open Sys2Proof.Rules

/-- An element of VCVT's destination that is not narrow: zero beyond the elements that are converted, else the conversion
where it is enabled and its previous bits where it is not. -/
theorem vcvtResult_elements {x : ConvV} (hdk : x.dk ≠ .nf) {img : BitVec 32} (himg : imageValid img = true ∨ x.sk ≠ .nf)
    (topx : Bool) (k : Src) (m : W64) (old v : VImage) {e : Nat} (he : e < 1024 / slotBits (kindWidth x.dk)) :
    let r := vcvtResult x (narrowOf img) topx (maskOf k m) old v
    let half : Prop := kindWidth x.dk ≠ 64 ∧ x.sk ≠ .nf ∧ kindWidth x.sk = 64
    (half → 16 ≤ e → held (kindWidth x.dk) r e = 0) ∧
      (¬ (half ∧ 16 ≤ e) →
        (enables k m e → ∃ b, Converts x.dk x.rm x.ftz (narrowOf img) topx
            (if x.sk = .nf then ofNum (vcvtNum x (narrowOf img) topx v e)
              else kindSource x.sk x.ftz (element (kindWidth x.sk) v e)) b ∧
          held (kindWidth x.dk) r e = b % 2 ^ slotBits (kindWidth x.dk)) ∧
        (¬ enables k m e → held (kindWidth x.dk) r e = held (kindWidth x.dk) old e)) := by
  intro r half
  have hcell : held (kindWidth x.dk) r e = vcvtCell x (narrowOf img) topx (maskOf k m) old v e :=
    held_vcvtResult hdk _ topx _ old v he
  have hcount : kindWidth x.dk = 64 → e < 16 := fun h => by
    rw [h] at he
    exact he
  rw [hcell]
  refine ⟨fun hhalf h16 => ?_, fun hnot => ?_⟩
  · obtain ⟨-, hsk, hwide⟩ := hhalf
    exact if_pos (by simpa [vcvtCount, hsk, hwide] using h16)
  · have hin : ¬ vcvtCount x ≤ e := by
      have hlt : e < 32 := he.trans_le (by unfold slotBits; split <;> decide)
      unfold vcvtCount
      by_cases hd : kindWidth x.dk = 64
      · simpa [hd] using hcount hd
      · by_cases hs : x.sk = .nf
        · simpa [hd, hs] using hlt
        · by_cases hw : kindWidth x.sk = 64
          · have : ¬ 16 ≤ e := fun h => hnot ⟨⟨hd, hs, hw⟩, h⟩
            simpa [hs, hw] using this
          · simpa [hd, hs, hw] using hlt
    refine ⟨fun hen => ⟨_, converts_vcvtRead hdk himg topx v hen.1, ?_⟩, fun hdis => ?_⟩
    · rw [vcvtCell, if_neg hin, if_pos ((testBit_maskOf k m e).mpr hen)]
    · rw [vcvtCell, if_neg hin, if_neg (mt (testBit_maskOf k m e).mp hdis)]

/-- VCVT into a narrow destination packs its numbers. -/
theorem vcvtResult_narrow {x : ConvV} (hdk : x.dk = .nf) (hsk : x.sk ≠ .nf) (n : Narrow) (topx : Bool) (mask : Nat)
    (old v : VImage) : vcvtResult x n topx mask old v = packNarrow n topx x.rm mask old (vcvtNum x n topx v) := by
  rw [vcvtResult, if_pos hdk]
  exact congrArg _ (funext fun e => toNum_vcvtRead hsk n topx v e)

/-- The scale byte of element e of a narrow destination: chosen anew where its block has an enabled element, else as it
was. -/
theorem vcvtResult_scale {x : ConvV} (hdk : x.dk = .nf) (hsk : x.sk ≠ .nf) {img : BitVec 32} (himg : imageValid img = true)
    (topx : Bool) (k : Src) (m : W64) (old v : VImage) {e : Nat} (he : e < 32) (hbs : scaleBlock (narrowOf img).scale ≠ 0) :
    let n := narrowOf img
    let r := vcvtResult x n topx (maskOf k m) old v
    let bs := scaleBlock n.scale
    ((∃ e', e' < 32 ∧ e' / bs = e / bs ∧ enables k m e') →
      scaleIn n r e = scaleChoose n topx (blockMax (maskOf k m) (vcvtNum x n topx v) (e / bs * bs) bs)) ∧
    ((∀ e', ¬ (e' < 32 ∧ e' / bs = e / bs ∧ enables k m e')) → scaleIn n r e = scaleIn n old e) := by
  intro n r bs
  have hscale := scale_of_imageValid himg
  have hin : scaleIn n r e = newScale n topx (maskOf k m) old (vcvtNum x n topx v) (e / bs) := by
    rw [← scaleIn_packNarrow topx x.rm (maskOf k m) old _ (shaped_of_imageValid himg) hscale hbs he,
      ← vcvtResult_narrow hdk hsk]
  rw [hin]
  refine ⟨fun ⟨e', _, hblock, hen⟩ => ?_, fun hnone => ?_⟩
  · exact newScale_of_enabled n topx _ old _ hbs ⟨e', hblock, (testBit_maskOf k m e').mpr hen⟩
  · refine newScale_of_disabled topx _ old _ hscale hbs he ?_
    rintro ⟨e', hblock, hbit⟩
    exact hnone e' ⟨block_lt (scaleBlock_cases n hbs) he hblock, hblock, (testBit_maskOf k m e').mp hbit⟩

/-- Element e of a narrow destination: its previous code where it is disabled, else the number over its scale. -/
theorem vcvtResult_codes {x : ConvV} (hdk : x.dk = .nf) (hsk : x.sk ≠ .nf) {img : BitVec 32} (himg : imageValid img = true)
    (topx : Bool) (k : Src) (m : W64) (old v : VImage) {e : Nat} (he : e < 32) :
    let n := narrowOf img
    let r := vcvtResult x n topx (maskOf k m) old v
    let bs := scaleBlock n.scale
    (¬ enables k m e → packedIn n r e = packedIn n old e) ∧
      (enables k m e →
        (bs = 0 → NarrowOf n topx x.rm (kindSource x.sk x.ftz (element (kindWidth x.sk) v e)) (packedIn n r e)) ∧
        (bs ≠ 0 → packedIn n r e = scaledWrite n topx x.rm (scaleIn n r e) (vcvtNum x n topx v e))) := by
  intro n r bs
  have hn : Shaped n := shaped_of_imageValid himg
  have hscale := scale_of_imageValid himg
  have hr : r = packNarrow n topx x.rm (maskOf k m) old (vcvtNum x n topx v) := vcvtResult_narrow hdk hsk n topx _ old v
  have hcode : packedIn n r e = newCode n topx x.rm (maskOf k m) old (vcvtNum x n topx v) e := by
    rw [hr, packedIn_packNarrow topx x.rm _ old _ hn he]
  rw [hcode, newCode]
  refine ⟨fun hdis => ?_, fun hen => ?_⟩
  · rw [if_neg (mt (testBit_maskOf k m e).mp hdis)]
    rfl
  rw [if_pos ((testBit_maskOf k m e).mpr hen)]
  refine ⟨fun hbs => ?_, fun hbs => ?_⟩
  · rw [if_pos hbs, ← sourceOf_vcvtRead hsk n topx v e, ← toNum_vcvtRead hsk]
    exact narrowOf_convWrite hn topx x.rm _
  · rw [if_neg hbs, hr, scaleIn_packNarrow topx x.rm _ old _ hn hscale hbs he]

end Sys2Proof.Machine

open Sys2Proof Sys2Proof.Machine Sys2Proof.Rules

/-- Settles O15: a number is rounded once wherever it is written, also over a scale, where the quotient's sticky last bit
rounds as the exact quotient does; the words leave the images made of these elements. -/
theorem conversionsCheckTheirKindsAndFormat : Obligations.ConversionsCheckTheirKindsAndFormat := by
  refine ⟨?_, largestMagnitude_blockMax, fun x s v hp => ?_, ?_, ?_, ?_⟩
  · intro img topx n himg hscale
    have hn : Shaped n := shaped_of_imageValid himg
    exact ⟨scaleOf_scaleChoose hn topx, fun b _ c _ => ofNum_scaledRead hscale topx b c,
      fun b _ rm x hb => narrowOf_scaledWrite hn hscale topx rm b x hb⟩
  · rw [exec_fcvt]
    exact ⟨execFcvt_delivers hp, fun h => execFcvt_trap hp (convCheck_illegal s _ _ _ _ h),
      fun h himg => execFcvt_trap hp (convCheck_format s _ _ _ _ h himg)⟩
  · intro x s v g hp n wide
    have hwide (k : Kind) : wide k ↔ kindWidth k = 64 := (kindWidth_eq_64_iff k).symm
    simp only [hwide, exec_vcvt]
    exact ⟨fun h => ⟨vcvtSnan x v, vcvtSnan_iff x v, execVcvt_delivers hp h⟩,
      fun h => execVcvt_trap hp (vcvtCheck_illegal s _ x h),
      fun h himg => execVcvt_trap hp (vcvtCheck_format s _ x h himg)⟩
  · intro x img topx a n _ himg
    exact converts_convScalar x topx a himg
  · intro x img topx k m old v n mask r src
    refine ⟨fun hdk himg _ => ?_, fun hdk hsk _ himg => ?_⟩
    · intro w half e he
      exact vcvtResult_elements hdk himg topx k m old v he
    · intro bs within
      have hsrc (e : Nat) : src e = kindSource x.sk x.ftz (element (kindWidth x.sk) v e) := if_neg hsk
      have hr : r = packNarrow n topx x.rm (maskOf k m) old (vcvtNum x n topx v) := vcvtResult_narrow hdk hsk n topx _ old v
      refine ⟨fun e he h0 => vcvtResult_scale hdk hsk himg topx k m old v he h0, fun e he => ?_, fun i hi hout => ?_⟩
      · rw [hsrc]
        exact vcvtResult_codes hdk hsk himg topx k m old v he
      · rw [hr]
        exact getLsbD_packNarrow topx x.rm _ old _ (shaped_of_imageValid himg) hi hout
end

section
/-!
SUPPORT. The state after reset (R64, R76, R77, R86, R111, R151, R259).
-/

namespace Sys2Proof.Machine

/-- Every slot of the reset state is `Slot.reset`. -/
@[simp] theorem slot_reset (c k : Nat) : State.reset.slot c k = Slot.reset := by
  simp [State.slot, State.core, State.reset, Core.reset]

end Sys2Proof.Machine

open Sys2Proof Sys2Proof.Machine Sys2Proof.Rules

/-- Settles O29: each slot is read from an empty table, and so is each byte. -/
theorem resetLeavesTheGivenValues : Obligations.ResetLeavesTheGivenValues := by
  refine ⟨fun c k => ?_, rfl, rfl, rfl, fun a => rfl⟩
  rw [slot_reset]
  exact ⟨rfl, rfl, rfl, rfl, rfl, rfl, fun i => rfl⟩
end

section
/-!
SUPPORT. Integer words (R58, R92): the arithmetic of `intAlu` at any width as integer arithmetic modulo 2^w.
-/

namespace Sys2Proof.Machine

open Sys2Proof.Rules

/-! ### Operands and results of a width (R58) -/

theorem low_eq (w : Nat) (a : W64) : low w a = (a.setWidth w).toNat := (BitVec.toNat_setWidth w a).symm

theorem slow_eq (w : Nat) (a : W64) : slow w a = (a.setWidth w).toInt := by
  rw [BitVec.toInt_setWidth, slow]

theorem wrap_eq (w : Nat) (r : Int) : wrap w r = (BitVec.ofInt w r).signExtend 64 := by
  rw [wrap, BitVec.signExtend, BitVec.toInt_ofInt]

theorem intResult_eq (op : IntOp) (ty : WTy) (a b : W64) :
    intResult op ty a b = (intAlu op (a.setWidth (width ty)) (b.setWidth (width ty))).signExtend 64 := by
  cases ty with
  | d =>
    show intAlu op a b = (intAlu op (a.setWidth 64) (b.setWidth 64)).signExtend 64
    rw [BitVec.setWidth_eq, BitVec.setWidth_eq, BitVec.signExtend_eq]
  | w => rfl

/-- An integer operation computes a value modulo the width of its operands. -/
def AluGives (op : IntOp) (val : Nat → W64 → W64 → Int) : Prop :=
  ∀ w : Nat, 0 < w → ∀ a b : W64, intAlu op (a.setWidth w) (b.setWidth w) = BitVec.ofInt w (val w a b)

/-- Both forms of an integer word give the value that its operation computes. -/
theorem intGives_of_aluGives {op : IntOp} {val : Nat → W64 → W64 → Int} (h : AluGives op val) {reg : IntR → Instr}
    {imm : IntI → Instr} {lat : Nat} (hreg : ∀ x s, exec (reg x) s = intR op lat x s)
    (himm : ∀ x s, exec (imm x) s = intI op lat x s) : IntGives reg imm lat val := by
  have hval (ty : WTy) (a b : W64) : wrap (width ty) (val (width ty) a b) = intResult op ty a b := by
    rw [intResult_eq, wrap_eq, h _ (by cases ty <;> decide)]
  refine ⟨fun x s v hp => ?_, fun x s v hp => ?_⟩
  · rw [hreg, hval, intR, wordAB]
    exact issue_delivers hp rfl rfl rfl
  · rw [himm, hval, intI]
    exact issue_delivers hp rfl rfl rfl

/-! ### The operations (R92) -/

section
variable {w : Nat} {x : BitVec w}

/-- A word whose bits are those of a natural number is that number modulo 2^w. -/
theorem eq_ofInt_of_toNat {n : Nat} (h : x.toNat = n % 2 ^ w) : x = BitVec.ofInt w n := by
  rw [BitVec.ofInt_natCast]
  exact BitVec.eq_of_toNat_eq (h.trans (BitVec.toNat_ofNat n w).symm)

/-- The same where the number is below 2^w. -/
theorem eq_ofInt_toNat {n : Nat} (h : x.toNat = n) : x = BitVec.ofInt w n :=
  eq_ofInt_of_toNat (by rw [← h, Nat.mod_eq_of_lt x.isLt])

end

theorem alu_add : AluGives .add (fun w a b => low w a + low w b) := fun w _ a b => by
  simp only [low_eq, BitVec.ofInt_add, ← eq_ofInt_toNat rfl]
  rfl

theorem alu_sub : AluGives .sub (fun w a b => low w a - low w b) := fun w _ a b => by
  simp only [low_eq, sub_eq_add_neg, BitVec.ofInt_add, BitVec.ofInt_neg, ← eq_ofInt_toNat rfl]
  exact BitVec.sub_eq_add_neg _ _

theorem alu_mul : AluGives .mul (fun w a b => low w a * low w b) := fun w _ a b => by
  simp only [low_eq, BitVec.ofInt_mul, ← eq_ofInt_toNat rfl]
  rfl

theorem alu_mulh : AluGives .mulh (fun w a b => slow w a * slow w b / 2 ^ w) := fun w _ a b => by
  simp only [intAlu, slow_eq]
  push_cast
  rfl

theorem alu_mulhu : AluGives .mulhu (fun w a b => low w a * low w b / 2 ^ w) := fun w _ a b => by
  simp only [intAlu, low_eq]
  exact_mod_cast eq_ofInt_of_toNat (BitVec.toNat_ofNat _ w)

theorem alu_and : AluGives .and (fun w a b => (low w a &&& low w b : Nat)) := fun w _ a b => by
  simp only [low_eq]
  exact eq_ofInt_toNat (BitVec.toNat_and ..)

theorem alu_or : AluGives .or (fun w a b => (low w a ||| low w b : Nat)) := fun w _ a b => by
  simp only [low_eq]
  exact eq_ofInt_toNat (BitVec.toNat_or ..)

theorem alu_xor : AluGives .xor (fun w a b => (low w a ^^^ low w b : Nat)) := fun w _ a b => by
  simp only [low_eq]
  exact eq_ofInt_toNat (BitVec.toNat_xor ..)

theorem alu_andn : AluGives .andn (fun w a b => (low w a &&& (2 ^ w - 1 - low w b) : Nat)) := fun w _ a b => by
  simp only [low_eq, ← BitVec.toNat_not]
  exact eq_ofInt_toNat (BitVec.toNat_and ..)

theorem alu_shl : AluGives .shl (fun w a b => low w a * 2 ^ (low w b % w)) := fun w _ a b => by
  simp only [intAlu, low_eq]
  exact_mod_cast eq_ofInt_of_toNat (by rw [BitVec.toNat_shiftLeft, Nat.shiftLeft_eq])

theorem alu_shr : AluGives .shr (fun w a b => low w a / 2 ^ (low w b % w)) := fun w _ a b => by
  simp only [intAlu, low_eq]
  exact_mod_cast eq_ofInt_toNat (by rw [BitVec.toNat_ushiftRight, Nat.shiftRight_eq_div_pow])

theorem alu_sra : AluGives .sra (fun w a b => slow w a / 2 ^ (low w b % w)) := fun w _ a b => by
  simp only [intAlu, low_eq, slow_eq]
  rw [← BitVec.ofInt_toInt (x := BitVec.sshiftRight _ _), BitVec.toInt_sshiftRight, Int.shiftRight_eq_div_pow]
  push_cast
  rfl

/-- A word rotated is the sum of its two parts, which share no bit. -/
theorem rotateLeft_eq_add {w : Nat} (x : BitVec w) {k : Nat} (hk : k < w) : x.rotateLeft k = x <<< k + x >>> (w - k) := by
  rw [BitVec.add_eq_or_of_and_eq_zero, BitVec.rotateLeft_def, Nat.mod_eq_of_lt hk]
  ext i hi
  simp only [BitVec.getElem_and, BitVec.getElem_shiftLeft, BitVec.getElem_ushiftRight, BitVec.getElem_zero]
  rcases Nat.lt_or_ge i k with hlt | hge
  · simp [hlt]
  · rw [BitVec.getLsbD_of_ge x (w - k + i) (by omega), Bool.and_false]

theorem alu_rot : AluGives .rot (fun w a b => low w a * 2 ^ (low w b % w) + low w a / 2 ^ (w - low w b % w)) :=
    fun w hw a b => by
  simp only [intAlu, low_eq]
  rw [rotateLeft_eq_add _ (Nat.mod_lt _ hw), BitVec.ofInt_add]
  congr 1
  · exact_mod_cast eq_ofInt_of_toNat (by rw [BitVec.toNat_shiftLeft, Nat.shiftLeft_eq])
  · exact_mod_cast eq_ofInt_toNat (by rw [BitVec.toNat_ushiftRight, Nat.shiftRight_eq_div_pow])

theorem alu_min : AluGives .min (fun w a b => min (slow w a) (slow w b)) := fun w _ a b => by
  simp only [intAlu, slow_eq, BitVec.slt_iff_toInt_lt]
  split
  · next h => rw [min_eq_left h.le, BitVec.ofInt_toInt]
  · next h => rw [min_eq_right (not_lt.mp h), BitVec.ofInt_toInt]

theorem alu_max : AluGives .max (fun w a b => max (slow w a) (slow w b)) := fun w _ a b => by
  simp only [intAlu, slow_eq, BitVec.slt_iff_toInt_lt]
  split
  · next h => rw [max_eq_right h.le, BitVec.ofInt_toInt]
  · next h => rw [max_eq_left (not_lt.mp h), BitVec.ofInt_toInt]

theorem alu_minu : AluGives .minu (fun w a b => min (low w a) (low w b)) := fun w _ a b => by
  simp only [intAlu, low_eq, BitVec.ult_iff_toNat_lt]
  split
  · next h => rw [min_eq_left (by exact_mod_cast h.le), ← eq_ofInt_toNat rfl]
  · next h => rw [min_eq_right (by exact_mod_cast not_lt.mp h), ← eq_ofInt_toNat rfl]

theorem alu_maxu : AluGives .maxu (fun w a b => max (low w a) (low w b)) := fun w _ a b => by
  simp only [intAlu, low_eq, BitVec.ult_iff_toNat_lt]
  split
  · next h => rw [max_eq_right (by exact_mod_cast h.le), ← eq_ofInt_toNat rfl]
  · next h => rw [max_eq_left (by exact_mod_cast not_lt.mp h), ← eq_ofInt_toNat rfl]

end Sys2Proof.Machine

open Sys2Proof Sys2Proof.Machine Sys2Proof.Rules

/-- Settles O2: each word issues without checks, and its operation is integer arithmetic modulo 2^w. -/
theorem integerWordsComputeModuloTheirWidth : Obligations.IntegerWordsComputeModuloTheirWidth := by
  have h {op : IntOp} {val : Nat → W64 → W64 → Int} (g : AluGives op val) := @intGives_of_aluGives op val g
  exact
    ⟨⟨h alu_add (fun _ _ => rfl) (fun _ _ => rfl), h alu_sub (fun _ _ => rfl) (fun _ _ => rfl),
      h alu_mul (fun _ _ => rfl) (fun _ _ => rfl), h alu_mulh (fun _ _ => rfl) (fun _ _ => rfl),
      h alu_mulhu (fun _ _ => rfl) (fun _ _ => rfl)⟩,
    ⟨h alu_and (fun _ _ => rfl) (fun _ _ => rfl), h alu_or (fun _ _ => rfl) (fun _ _ => rfl),
      h alu_xor (fun _ _ => rfl) (fun _ _ => rfl), h alu_andn (fun _ _ => rfl) (fun _ _ => rfl),
      h alu_shl (fun _ _ => rfl) (fun _ _ => rfl), h alu_shr (fun _ _ => rfl) (fun _ _ => rfl),
      h alu_sra (fun _ _ => rfl) (fun _ _ => rfl), h alu_rot (fun _ _ => rfl) (fun _ _ => rfl)⟩,
    h alu_min (fun _ _ => rfl) (fun _ _ => rfl), h alu_max (fun _ _ => rfl) (fun _ _ => rfl),
    h alu_minu (fun _ _ => rfl) (fun _ _ => rfl), h alu_maxu (fun _ _ => rfl) (fun _ _ => rfl)⟩
end

section
/-!
SUPPORT. Exact numbers (R59–R63, R107): what a code reads as, the values of sums, products, quotients and roots, and the
order of values.
-/

namespace Sys2Proof.Machine

open Sys2Proof.Rules

/-! ### What a code reads as (R59, R60, R62) -/

section
variable {f : Fmt} {a : Nat} (ftz : Bool)

theorem unpack_of_isNan (h : isNan f a) : unpack f ftz a = .nan := by
  have hread := ofNum_unpack f ftz a
  rw [ieeeSource, if_pos h.1, if_neg h.2] at hread
  cases hu : unpack f ftz a <;> rw [hu] at hread <;> trivial

theorem unpack_of_isInf (h : isInf f a) : unpack f ftz a = .inf (negative f a) := by
  have hread := ofNum_unpack f ftz a
  rw [ieeeSource, if_pos h.1, if_pos h.2] at hread
  cases hu : unpack f ftz a with
  | inf s =>
    rw [hu] at hread
    injection hread with hs
    rw [hs]
  | nan => rw [hu] at hread; cases hread
  | fin s m e => rw [hu] at hread; cases hread

/-- A finite code reads as a number with its sign and its value, of at most a fraction's bits and one more. -/
theorem exists_unpack (h : isFinite f a) : ∃ m e, unpack f ftz a = .fin (negative f a) m e ∧
    value f ftz a = finValue (negative f a) m e ∧ m < 2 ^ (f.mb + 1) := by
  have hread := ofNum_unpack f ftz a
  rw [ieeeSource, if_neg h] at hread
  have hfraction : a % 2 ^ f.mb < 2 ^ f.mb := Nat.mod_lt _ (by positivity)
  have hbound : ∀ s m e, unpack f ftz a = .fin s m e → m < 2 ^ (f.mb + 1) := by
    intro s m e hu
    simp only [unpack] at hu
    split at hu
    · split at hu <;> cases hu
    · split at hu
      · injection hu with _ hm
        subst hm
        split <;> omega
      · injection hu with _ hm
        omega
  cases hu : unpack f ftz a with
  | nan => rw [hu] at hread; cases hread
  | inf s => rw [hu] at hread; cases hread
  | fin s m e =>
    rw [hu, ofNum_fin] at hread
    injection hread with hs hv
    exact ⟨m, e, by rw [hs], by rw [← hs, hv], hbound s m e hu⟩

theorem unpack_eq_nan_iff : unpack f ftz a = .nan ↔ isNan f a := by
  refine ⟨fun h => ?_, unpack_of_isNan ftz⟩
  by_cases hexp : a / 2 ^ f.mb % 2 ^ f.eb = 2 ^ f.eb - 1
  · by_cases hfrac : a % 2 ^ f.mb = 0
    · rw [unpack_of_isInf ftz ⟨hexp, hfrac⟩] at h
      cases h
    · exact ⟨hexp, hfrac⟩
  · obtain ⟨m, e, hu, -⟩ := exists_unpack ftz hexp
    rw [hu] at h
    cases h

end

/-! ### Values -/

theorem finValue_neg (s : Bool) (m : Nat) (e : Int) : finValue (!s) m e = -finValue s m e := by
  cases s <;> simp [finValue]

theorem finValue_mul_signed (s t : Bool) (m n : Nat) (e g : Int) :
    finValue (s != t) (m * n) (e + g) = finValue s m e * finValue t n g := by
  unfold finValue
  rw [zpow_add₀ two_ne_zero]
  cases s <;> cases t <;> push_cast <;> simp <;> ring

/-- An integer in units of a power of two. -/
theorem finValue_int (v q : Int) : finValue (decide (v < 0)) v.natAbs q = v * (2 : ℚ) ^ q := by
  unfold finValue
  rcases lt_or_ge v 0 with h | h
  · rw [decide_eq_true h, if_pos rfl, ← Int.cast_natCast, Int.ofNat_natAbs_of_nonpos h.le]
    push_cast
    ring
  · rw [decide_eq_false (not_lt.mpr h), if_neg Bool.false_ne_true, ← Int.cast_natCast, Int.natAbs_of_nonneg h, one_mul]

theorem scaled_value (s : Bool) (m : Nat) {e q : Int} (hq : q ≤ e) : (scaled s m e q : ℚ) * 2 ^ q = finValue s m e := by
  have hshift : ((m <<< (e - q).toNat : Nat) : ℚ) * 2 ^ q = m * 2 ^ e := by
    rw [Nat.shiftLeft_eq]
    push_cast
    rw [mul_assoc, ← zpow_natCast, ← zpow_add₀ two_ne_zero, Int.toNat_of_nonneg (by omega), sub_add_cancel]
  rw [finValue, mul_assoc, ← hshift, scaled]
  generalize m <<< (e - q).toNat = v
  cases s <;> simp

/-- Two numbers of one sign whose sum is zero are both zero. -/
theorem finValue_add_eq_zero {s : Bool} {m n : Nat} {e g : Int} (h : finValue s m e + finValue s n g = 0) : m = 0 := by
  rw [← finValue_eq_zero s m e]
  have hm : (0 : ℚ) ≤ m * 2 ^ e := by positivity
  have hn : (0 : ℚ) ≤ n * 2 ^ g := by positivity
  unfold finValue at h ⊢
  cases s
  · simp only [Bool.false_eq_true, if_false, one_mul] at h ⊢
    linarith
  · simp only [if_true] at h ⊢
    linarith

/-! ### Sums and products (R61, R107) -/

/-- The sum has the exact value, and where that is zero the sign that R61 gives it. -/
theorem ofNum_add (rm : Rm) (s t : Bool) (m n : Nat) (e g : Int) :
    ∃ σ, ofNum (Num.add rm (.fin s m e) (.fin t n g)) = .real σ (finValue s m e + finValue t n g) ∧
      (finValue s m e + finValue t n g = 0 → σ = zeroSign rm s t) := by
  rcases eq_or_ne m 0 with rfl | hm
  · rw [(finValue_eq_zero s 0 e).mpr rfl, zero_add]
    rcases eq_or_ne n 0 with rfl | hn
    · refine ⟨zeroSign rm s t, ?_, fun _ => rfl⟩
      rw [(finValue_eq_zero t 0 g).mpr rfl]
      simp [Num.add, finValue, zeroSign]
    · exact ⟨t, by simp [Num.add, hn], fun h => absurd ((finValue_eq_zero t n g).mp h) hn⟩
  rcases eq_or_ne n 0 with rfl | hn
  · rw [(finValue_eq_zero t 0 g).mpr rfl, add_zero]
    exact ⟨s, by simp [Num.add, hm], fun h => absurd ((finValue_eq_zero s m e).mp h) hm⟩
  set v := scaled s m e (min e g) + scaled t n g (min e g) with hv
  have hsum : finValue s m e + finValue t n g = v * 2 ^ min e g := by
    rw [← scaled_value s m (min_le_left e g), ← scaled_value t n (min_le_right e g), hv]
    push_cast
    ring
  have hadd : Num.add rm (.fin s m e) (.fin t n g) =
      if v = 0 then .fin (rm = .rdn) 0 0 else .fin (v < 0) v.natAbs (min e g) := by
    simp [Num.add, hm, hn, hv]
  rw [hadd]
  by_cases h0 : v = 0
  · have hzero : finValue s m e + finValue t n g = 0 := by rw [hsum, h0]; simp
    have hst : s ≠ t := by
      rintro rfl
      exact hm (finValue_add_eq_zero hzero)
    refine ⟨rm = .rdn, ?_, fun _ => by rw [zeroSign, if_neg hst]⟩
    rw [hzero, if_pos h0]
    simp [finValue]
  · refine ⟨decide (v < 0), by rw [if_neg h0, ofNum_fin, finValue_int, hsum], fun h => ?_⟩
    rw [hsum, mul_eq_zero, Int.cast_eq_zero] at h
    exact absurd h (not_or.mpr ⟨h0, by positivity⟩)

theorem ofNum_mul (s t : Bool) (m n : Nat) (e g : Int) :
    ofNum (Num.mul (.fin s m e) (.fin t n g)) = .real (s != t) (finValue s m e * finValue t n g) := by
  rw [← finValue_mul_signed]
  rfl

/-! ### Order (R63, R108) -/

theorem lt_fin_iff (s t : Bool) (m n : Nat) (e g : Int) :
    (Num.fin s m e).lt (.fin t n g) = true ↔ finValue s m e < finValue t n g := by
  have hpos : (0 : ℚ) < 2 ^ min e g := by positivity
  rw [← scaled_value s m (min_le_left e g), ← scaled_value t n (min_le_right e g), mul_lt_mul_iff_left₀ hpos, Int.cast_lt]
  simp [Num.lt]

theorem eq_of_ne_nan {a b : Num} (ha : a ≠ .nan) (hb : b ≠ .nan) : a.eq b = (!a.lt b && !b.lt a) := by
  rw [Num.eq, bne_iff_ne.mpr ha, bne_iff_ne.mpr hb, Bool.true_and, Bool.true_and]

theorem eq_fin_iff (s t : Bool) (m n : Nat) (e g : Int) :
    (Num.fin s m e).eq (.fin t n g) = true ↔ finValue s m e = finValue t n g := by
  have hlt := lt_fin_iff s t m n e g
  have hgt := lt_fin_iff t s n m g e
  rw [eq_of_ne_nan (by simp) (by simp), Bool.and_eq_true, Bool.not_eq_true', Bool.not_eq_true', ← Bool.not_eq_true, ← Bool.not_eq_true, hlt, hgt, not_lt,
    not_lt, le_antisymm_iff, and_comm]

end Sys2Proof.Machine
end

section
/-!
SUPPORT. Numbers rounded once (R61, R62, R107): what a rounded result depends on, quotients and roots that keep a sticky last
bit, and powers of two beyond a layout's range.
-/

namespace Sys2Proof.Machine

open Sys2Proof.Rules

/-! ### What a rounded result depends on -/

/-- A number whose binade has the same last place, and which rounds there alike, has the same rounded results. -/
theorem isRounded_congr {f : Fmt} {rm : Rm} {ftz : Bool} {x z : ℝ} {c : Nat} (hneg : x < 0 ↔ z < 0) (hpos : 0 < x ↔ 0 < z)
    (h : ∀ e : Int, (2 : ℝ) ^ e ≤ |x| → |x| < (2 : ℝ) ^ (e + 1) → ∃ g : Int, (2 : ℝ) ^ g ≤ |z| ∧ |z| < (2 : ℝ) ^ (g + 1) ∧
      max g (1 - f.bias) = max e (1 - f.bias) ∧ ∀ k, RoundsTo rm (x < 0) (|x| / (2 : ℝ) ^ (max e (1 - f.bias) - f.mb)) k →
        RoundsTo rm (x < 0) (|z| / (2 : ℝ) ^ (max e (1 - f.bias) - f.mb)) k)
    (hx : IsRounded f rm ftz x c) : IsRounded f rm ftz z c := by
  obtain ⟨e, k, hlow, hhigh, hround, hrest⟩ := hx
  obtain ⟨g, hlow', hhigh', hmax, hround'⟩ := h e hlow hhigh
  refine ⟨g, k, hlow', hhigh', ?_⟩
  rw [hneg, hpos] at *
  rw [hmax]
  exact ⟨hround' k hround, hrest⟩

/-- A number is in one binade. -/
theorem binade_unique {x : ℝ} {e g : Int} (he : (2 : ℝ) ^ e ≤ x) (he' : x < (2 : ℝ) ^ (e + 1)) (hg : (2 : ℝ) ^ g ≤ x)
    (hg' : x < (2 : ℝ) ^ (g + 1)) : e = g := by
  have h1 := (zpow_lt_zpow_iff_right₀ (one_lt_two : (1 : ℝ) < 2)).mp (he.trans_lt hg')
  have h2 := (zpow_lt_zpow_iff_right₀ (one_lt_two : (1 : ℝ) < 2)).mp (hg.trans_lt he')
  omega

/-! ### Sticky numbers -/

/-- A number between two integers, its last bit telling whether it is the lower one. -/
theorem sticky_of_floor {r d : Nat} {t : ℝ} (hbig : 2 ^ 15 ≤ r) (h0 : (r : ℝ) ≤ t) (h1 : t < r + 1)
    (hd : d = 2 * r + if (r : ℝ) = t then 0 else 1) : Sticky d (2 * t) := by
  refine ⟨by omega, fun N => ?_⟩
  rw [mul_lt_mul_iff_right₀ two_pos, mul_lt_mul_iff_right₀ two_pos]
  split at hd
  · next heq =>
    rw [hd, ← heq]
    push_cast
    simp
  · next hne =>
    have hlt : (r : ℝ) < t := lt_of_le_of_ne h0 hne
    have below : t < N ↔ (r : ℤ) + 1 ≤ N := by
      refine ⟨fun h => ?_, fun h => h1.trans_le (by exact_mod_cast h)⟩
      exact_mod_cast (hlt.trans h : (r : ℝ) < N)
    have above : N < t ↔ N ≤ (r : ℤ) := by
      refine ⟨fun h => ?_, fun h => lt_of_le_of_lt (by exact_mod_cast h) hlt⟩
      exact Int.lt_add_one_iff.mp (by exact_mod_cast (h.trans h1 : (N : ℝ) < r + 1))
    rw [below, above, hd]
    constructor
    · have : ((2 * r + 1 : Nat) : ℝ) < 2 * N ↔ (2 * r + 1 : ℤ) < 2 * N := by exact_mod_cast Iff.rfl
      rw [this]
      omega
    · have : (2 * N : ℝ) < ((2 * r + 1 : Nat) : ℝ) ↔ 2 * N < (2 * r + 1 : ℤ) := by exact_mod_cast Iff.rfl
      rw [this]
      omega

/-- A sticky number with bits to spare, packed, is the number that it stands for rounded once. -/
theorem isRounded_pack_of_sticky {f : Fmt} (hf : f.eb ≠ 0) (hmb : f.mb ≤ 52) (rm : Rm) (ftz neg : Bool) {d : Nat} {y z : ℝ}
    (h : Sticky d y) (hd : 2 ^ 64 ≤ d) (e : Int) (habs : |z| = y * 2 ^ e) (hneg : z < 0 ↔ neg = true) :
    IsRounded f rm ftz z (pack f rm ftz (.fin neg d e)) := by
  have hd0 : d ≠ 0 := by omega
  have hlog : 64 ≤ Nat.log2 d := (Nat.le_log2 hd0).mpr hd
  obtain ⟨hlow, hhigh⟩ := log2_binade hd0 e
  have hpos : (0 : ℝ) < 2 ^ e := by positivity
  have hbottom : (2 : ℝ) ^ Nat.log2 d ≤ y := (binade_of_sticky h (by omega)).mp (by exact_mod_cast Nat.log2_self_le hd0)
  have htop : y < (2 : ℝ) ^ (Nat.log2 d + 1) := by
    rw [← not_le, ← binade_of_sticky h (by omega), not_le]
    exact_mod_cast Nat.lt_log2_self
  have hy : 0 < |z| := by
    rw [habs]
    exact mul_pos (lt_of_lt_of_le (by positivity) hbottom) hpos
  have hx := abs_finValue neg d e
  have hxneg : ((finValue neg d e : ℚ) : ℝ) < 0 ↔ neg = true := by
    rw [← finValue_neg_iff neg hd0 e]
    exact Rat.cast_lt_zero
  have hxpos : 0 < |((finValue neg d e : ℚ) : ℝ)| := by
    rw [hx]
    positivity
  have pos_iff {u : ℝ} (hu : 0 < |u|) : 0 < u ↔ ¬ u < 0 :=
    ⟨fun h => not_lt.mpr h.le, fun h => lt_of_le_of_ne (not_lt.mp h) (Ne.symm (abs_pos.mp hu))⟩
  have hsigns := hxneg.trans hneg.symm
  refine isRounded_congr hsigns (by rw [pos_iff hxpos, pos_iff hy, hsigns]) (fun g hg hg' => ?_)
    (isRounded_pack hf rm ftz neg hd0 e)
  rw [hx] at hg hg' ⊢
  obtain rfl := binade_unique hg hg' hlow hhigh
  refine ⟨_, ?_, ?_, rfl, fun k hround => ?_⟩
  · rw [habs, zpow_add₀ two_ne_zero, zpow_natCast]
    exact mul_le_mul_of_nonneg_right hbottom hpos.le
  · rw [habs, show (Nat.log2 d : Int) + e + 1 = ((Nat.log2 d + 1 : Nat) : Int) + e by push_cast; ring,
      zpow_add₀ two_ne_zero, zpow_natCast]
    exact mul_lt_mul_of_pos_right htop hpos
  · rw [habs]
    exact roundsTo_of_sticky h (by omega) hround

/-! ### Quotients (R107) -/

/-- A quotient of two numbers that are not zero. -/
theorem isRounded_pack_div {f : Fmt} (hf : f.eb ≠ 0) (hmb : f.mb ≤ 52) (rm : Rm) (ftz s t : Bool) {m n : Nat} (hm : m ≠ 0)
    (hn : n ≠ 0) (e g : Int) : IsRounded f rm ftz ((finValue s m e / finValue t n g : ℚ) : ℝ)
      (pack f rm ftz (Num.div (.fin s m e) (.fin t n g))) := by
  have hdiv : Num.div (.fin s m e) (.fin t n g) =
      .fin (s != t) (oddDiv (m <<< (128 + Nat.log2 n)) n) (e - g - ((128 + Nat.log2 n : Nat) : Int) - 1) := by
    simp [Num.div, hm, hn]
  have hbig : 2 ^ 64 ≤ m <<< (128 + Nat.log2 n) / n := by
    rw [Nat.le_div_iff_mul_le (Nat.pos_of_ne_zero hn), Nat.shiftLeft_eq]
    have hlt : n < 2 ^ (Nat.log2 n + 1) := Nat.lt_log2_self
    calc 2 ^ 64 * n ≤ 2 ^ 64 * 2 ^ (Nat.log2 n + 1) := Nat.mul_le_mul_left _ hlt.le
      _ = 2 ^ (65 + Nat.log2 n) := by rw [← pow_add]; congr 1; omega
      _ ≤ 2 ^ (128 + Nat.log2 n) := Nat.pow_le_pow_right two_pos (by omega)
      _ ≤ m * 2 ^ (128 + Nat.log2 n) := Nat.le_mul_of_pos_left _ (Nat.pos_of_ne_zero hm)
  have hsticky := sticky_oddDiv (m <<< (128 + Nat.log2 n)) n hn (by omega)
  rw [hdiv]
  refine isRounded_pack_of_sticky hf hmb rm ftz _ hsticky (by unfold oddDiv; omega) _ ?_ ?_
  · have hn' : (n : ℝ) ≠ 0 := Nat.cast_ne_zero.mpr hn
    rw [Rat.cast_div, abs_div, abs_finValue, abs_finValue, Nat.shiftLeft_eq, zpow_sub₀ two_ne_zero, zpow_sub₀ two_ne_zero,
      zpow_sub₀ two_ne_zero, zpow_natCast, zpow_one]
    push_cast
    field_simp
  · rw [Rat.cast_lt_zero, div_neg_iff, ← mul_neg_iff, ← finValue_mul_signed, finValue_neg_iff _ (Nat.mul_ne_zero hm hn)]

/-! ### Square roots (R107) -/

/-- The bits found so far are a root from below, and the missing ones are below the next. -/
theorem isqrtBits_spec (n : Nat) (i r : Nat) (hlow : r * r ≤ n) (hhigh : n < (r + 2 ^ i) * (r + 2 ^ i)) :
    isqrtBits n i r * isqrtBits n i r ≤ n ∧ n < (isqrtBits n i r + 1) * (isqrtBits n i r + 1) := by
  induction i generalizing r with
  | zero => exact ⟨hlow, hhigh⟩
  | succ i ih =>
    rw [isqrtBits]
    split
    · next h => exact ih _ h (by rwa [Nat.add_assoc, ← Nat.two_mul, ← Nat.pow_succ'])
    · next h => exact ih _ hlow (not_le.mp h)

theorem isqrt_spec (n : Nat) : isqrt n * isqrt n ≤ n ∧ n < (isqrt n + 1) * (isqrt n + 1) := by
  refine isqrtBits_spec n _ 0 (Nat.zero_le n) ?_
  rw [Nat.zero_add, ← pow_add]
  exact Nat.lt_log2_self.trans_le (Nat.pow_le_pow_right two_pos (by omega))

theorem le_isqrt {k n : Nat} (h : k * k ≤ n) : k ≤ isqrt n :=
  Nat.lt_succ_iff.mp (Nat.mul_self_lt_mul_self_iff.mp (h.trans_lt (isqrt_spec n).2))

/-- The root of a number whose integer part is n. -/
theorem isqrt_floor {n : Nat} {y : ℝ} (h0 : (n : ℝ) ≤ y) (h1 : y < n + 1) :
    (isqrt n : ℝ) ≤ Real.sqrt y ∧ Real.sqrt y < isqrt n + 1 := by
  obtain ⟨hlow, hhigh⟩ := isqrt_spec n
  constructor
  · refine Real.le_sqrt_of_sq_le (le_trans ?_ h0)
    rw [sq]
    exact_mod_cast hlow
  · rw [Real.sqrt_lt' (by positivity), sq]
    refine h1.trans_le ?_
    exact_mod_cast hhigh

/-- The root of a number, with a last bit that tells whether it is exact. -/
theorem sticky_isqrt {n d : Nat} {y : ℝ} (h0 : (n : ℝ) ≤ y) (h1 : y < n + 1) (hbig : 2 ^ 64 * 2 ^ 64 ≤ n) {p : Prop} [Decidable p]
    (hp : p ↔ (isqrt n : ℝ) * isqrt n = y) (hd : d = 2 * isqrt n + if p then 0 else 1) :
    Sticky d (2 * Real.sqrt y) ∧ 2 ^ 64 ≤ d := by
  obtain ⟨hlow, hhigh⟩ := isqrt_floor h0 h1
  have hroot : 2 ^ 64 ≤ isqrt n := le_isqrt hbig
  have hexact : p ↔ (isqrt n : ℝ) = Real.sqrt y := by
    rw [hp, eq_comm (b := Real.sqrt y), Real.sqrt_eq_iff_mul_self_eq ((Nat.cast_nonneg n).trans h0) (Nat.cast_nonneg _), eq_comm]
  exact ⟨sticky_of_floor (by omega) hlow hhigh (by rw [hd]; simp only [hexact]), by omega⟩

/-- The same number with an even exponent. -/
theorem evenExp_spec (m : Nat) (e : Int) : ∃ h : Int, (evenExp m e).2 = 2 * h ∧
    ((evenExp m e).1 : ℝ) * (2 : ℝ) ^ (2 * h) = m * 2 ^ e ∧ m ≤ (evenExp m e).1 ∧ (evenExp m e).1 ≤ 2 * m := by
  unfold evenExp
  split
  · next h => exact ⟨e / 2, by omega, by rw [show 2 * (e / 2) = e by omega], le_rfl, by omega⟩
  · next h =>
    refine ⟨(e - 1) / 2, by simp only; omega, ?_, by simp only; omega, le_rfl⟩
    rw [show 2 * ((e - 1) / 2) = e - 1 by omega, zpow_sub_one₀ two_ne_zero]
    push_cast
    ring

/-- The root of a number with an even exponent. -/
theorem sqrt_even (y : ℝ) (h : Int) : Real.sqrt (y * (2 : ℝ) ^ (2 * h)) = Real.sqrt y * 2 ^ h := by
  rw [Real.sqrt_mul' _ (by positivity), two_mul h, zpow_add₀ two_ne_zero, Real.sqrt_mul_self (by positivity)]

section
variable {f : Fmt} (hf : f.eb ≠ 0) (hmb : f.mb ≤ 52) (rm : Rm) (ftz : Bool) {m : Nat} (hm : m ≠ 0) (e : Int)
include hf hmb hm

theorem isRounded_pack_sqrt : IsRounded f rm ftz (Real.sqrt ((finValue false m e : ℚ) : ℝ))
    (pack f rm ftz (Num.sqrt (.fin false m e))) := by
  obtain ⟨h, hexp, hvalue, hge, -⟩ := evenExp_spec m e
  set p := (evenExp m e).1
  have hx : ((finValue false m e : ℚ) : ℝ) = p * (2 : ℝ) ^ (2 * h) := by
    rw [hvalue]
    simp [finValue]
  obtain ⟨n, hn⟩ : ∃ n, n = p * 2 ^ 160 := ⟨_, rfl⟩
  have hsqrt : Num.sqrt (.fin false m e) =
      .fin false (2 * isqrt n + if isqrt n * isqrt n = n then 0 else 1) ((evenExp m e).2 / 2 - 81) := by
    simp only [Num.sqrt, hm, if_false, Bool.false_eq_true, hn, Nat.shiftLeft_eq]
    rfl
  have hroot : Real.sqrt n = Real.sqrt p * 2 ^ (80 : Int) := by
    rw [← sqrt_even, hn]
    push_cast
    norm_num
  obtain ⟨hsticky, hbig⟩ := sticky_isqrt (n := n) le_rfl (lt_add_one _) (by omega) (by exact_mod_cast Iff.rfl) rfl
  rw [hsqrt]
  refine isRounded_pack_of_sticky hf hmb rm ftz false hsticky hbig _ ?_ (by simp [Real.sqrt_nonneg])
  rw [abs_of_nonneg (Real.sqrt_nonneg _), hx, sqrt_even, hroot, hexp, show 2 * h / 2 - 81 = h - 81 by omega,
    zpow_sub₀ two_ne_zero]
  norm_num
  ring

theorem isRounded_pack_rsq (hsmall : m < 2 ^ 64) : IsRounded f rm ftz (1 / Real.sqrt ((finValue false m e : ℚ) : ℝ))
    (pack f rm ftz (Num.rsq (.fin false m e))) := by
  obtain ⟨h, hexp, hvalue, hge, hle⟩ := evenExp_spec m e
  set p := (evenExp m e).1
  have hp : (0 : ℝ) < p := by exact_mod_cast (by omega : 0 < p)
  have hx : ((finValue false m e : ℚ) : ℝ) = p * (2 : ℝ) ^ (2 * h) := by
    rw [hvalue]
    simp [finValue]
  have hrsq : Num.rsq (.fin false m e) = .fin false
      (2 * isqrt (2 ^ 256 / p) + if isqrt (2 ^ 256 / p) * isqrt (2 ^ 256 / p) * p = 2 ^ 256 then 0 else 1)
      (-((evenExp m e).2 / 2) - 129) := by
    simp only [Num.rsq, hm, if_false, Bool.false_eq_true]
    rfl
  have hroot : Real.sqrt (2 ^ 256 / p) = 2 ^ 128 / Real.sqrt p := by
    rw [Real.sqrt_div (by positivity), show (2 : ℝ) ^ 256 = (2 ^ 128) ^ 2 by norm_num, Real.sqrt_sq (by positivity)]
  have hlow : ((2 ^ 256 / p : Nat) : ℝ) ≤ 2 ^ 256 / p := by
    rw [le_div_iff₀ hp]
    exact_mod_cast Nat.div_mul_le_self (2 ^ 256) p
  have hhigh : (2 : ℝ) ^ 256 / p < (2 ^ 256 / p : Nat) + 1 := by
    rw [div_lt_iff₀' hp]
    exact_mod_cast Nat.lt_mul_div_succ (2 ^ 256) (by omega)
  have hexact (r : Nat) : r * r * p = 2 ^ 256 ↔ (r : ℝ) * r = 2 ^ 256 / p := by
    rw [eq_div_iff hp.ne']
    exact_mod_cast Iff.rfl
  obtain ⟨hsticky, hbig⟩ := sticky_isqrt hlow hhigh ((Nat.le_div_iff_mul_le (by omega)).mpr (by omega)) (hexact _) rfl
  rw [hrsq]
  refine isRounded_pack_of_sticky hf hmb rm ftz false hsticky hbig _ ?_ (by simp [Real.sqrt_nonneg])
  rw [abs_of_nonneg (by positivity), hx, sqrt_even, hroot, hexp, show -(2 * h / 2) - 129 = -h - 129 by omega,
    zpow_sub₀ two_ne_zero, zpow_neg]
  field_simp

end

end Sys2Proof.Machine
end

section
/-!
SUPPORT. Logarithms and exponentials of exact arguments (R107), codes read and written again (R59, R63), and one rounding in
integers (R61).
-/

namespace Sys2Proof.Machine

open Sys2Proof.Rules

/-! ### Powers of two (R107) -/

theorem packBetween_both (f : Fmt) (rm : Rm) (ftz : Bool) (k a : Nat) (x : Num) :
    packBetween f rm ftz k a (Num.both x) = pack f rm ftz x := if_pos rfl

/-- A number that is a power of two has one bit. -/
theorem eq_log2_of_power {m : Nat} {e k : Int} (h : finValue false m e = (2 : ℚ) ^ k) :
    m ≠ 0 ∧ m = 2 ^ Nat.log2 m ∧ (Nat.log2 m : Int) + e = k := by
  have hm : m ≠ 0 := by
    rintro rfl
    rw [(finValue_eq_zero false 0 e).mpr rfl] at h
    exact (zpow_ne_zero k two_ne_zero) h.symm
  have hreal : (m : ℝ) * 2 ^ e = 2 ^ k := by
    have := congrArg (fun x : ℚ => (x : ℝ)) h
    simpa [finValue] using this
  obtain ⟨hlow, hhigh⟩ := log2_binade hm e
  rw [hreal] at hlow hhigh
  have hk := binade_unique hlow hhigh (le_refl ((2 : ℝ) ^ k)) (zpow_lt_zpow_right₀ one_lt_two (lt_add_one k))
  refine ⟨hm, ?_, hk⟩
  rw [← hk, zpow_add₀ two_ne_zero, mul_left_inj' (by positivity), zpow_natCast] at hreal
  exact_mod_cast hreal

/-- The logarithm of a power of two is its exponent. -/
theorem log2_of_power {m : Nat} {e k : Int} (h : finValue false m e = (2 : ℚ) ^ k) :
    Num.log2 (.fin false m e) = Num.both (.fin (k < 0) k.natAbs 0) := by
  obtain ⟨hm, hpow, hk⟩ := eq_log2_of_power h
  simp only [Num.log2, if_neg hm, Bool.false_eq_true, if_false, if_pos hpow, hk]

section
variable {f : Fmt} (rm : Rm) (ftz : Bool)

/-- A power of two above a layout's range rounds as every other. -/
theorem isRounded_power_of_large {c : Nat} {j k : Int} (hj : (2 : Int) ^ f.eb - 1 - f.bias ≤ j)
    (hk : (2 : Int) ^ f.eb - 1 - f.bias ≤ k) (hmin : 1 - (f.bias : Int) ≤ (2 : Int) ^ f.eb - 1 - f.bias)
    (h : IsRounded f rm ftz ((2 : ℝ) ^ j) c) : IsRounded f rm ftz ((2 : ℝ) ^ k) c := by
  obtain ⟨e, r, hlow, hhigh, hround, hc, hneg, hover, -⟩ := h
  have habs (i : Int) : |(2 : ℝ) ^ i| = 2 ^ i := abs_of_pos (by positivity)
  have hpos (i : Int) : (0 : ℝ) < 2 ^ i := by positivity
  have hbinade (i : Int) : (2 : ℝ) ^ i < 2 ^ (i + 1) := zpow_lt_zpow_right₀ one_lt_two (lt_add_one i)
  rw [habs] at hlow hhigh hround
  obtain rfl := binade_unique hlow hhigh le_rfl (hbinade j)
  have hunits (i : Int) : (2 : ℝ) ^ i / 2 ^ (i - f.mb) = (2 ^ f.mb : Nat) := by
    rw [← zpow_sub₀ two_ne_zero, sub_sub_cancel, zpow_natCast]
    push_cast
    rfl
  have hwhole (i : Int) : ((2 ^ f.mb : Nat) : ℝ) * 2 ^ (i - f.mb) = 2 ^ i := by
    rw [← hunits i, div_mul_cancel₀ _ (hpos _).ne']
  have htop (i : Int) (hi : (2 : Int) ^ f.eb - 1 - f.bias ≤ i) :
      (2 : ℝ) ^ ((2 : Int) ^ f.eb - 1 - f.bias) ≤ (2 ^ f.mb : Nat) * 2 ^ (i - f.mb) := by
    rw [hwhole]
    exact zpow_le_zpow_right₀ one_le_two hi
  rw [max_eq_left (by omega)] at hround hover
  rw [hunits] at hround
  have hr : 2 ^ f.mb ≤ r := ge_of_roundsTo hround le_rfl
  have hinf := hover ((htop e hj).trans (mul_le_mul_of_nonneg_right (by exact_mod_cast hr) (hpos _).le))
  refine ⟨k, 2 ^ f.mb, (habs k).ge, (habs k).trans_lt (hbinade k), ?_⟩
  rw [max_eq_left (by omega), habs]
  simp only [hunits]
  refine ⟨roundsTo_natCast rm _ _, hc, by simpa [(hpos k).le.not_gt, (hpos e).le.not_gt] using hneg, fun _ => ?_,
    fun hlt => absurd hlt (not_lt.mpr (htop k hk))⟩
  simpa [(hpos k), (hpos e), (hpos k).le.not_gt, (hpos e).le.not_gt] using hinf

/-- A power of two far below a layout's range rounds as every other. -/
theorem isRounded_power_of_small {c : Nat} {j k : Int} (hj : j + 2 ≤ 1 - f.bias - f.mb) (hk : k + 2 ≤ 1 - f.bias - f.mb)
    (h : IsRounded f rm ftz ((2 : ℝ) ^ j) c) : IsRounded f rm ftz ((2 : ℝ) ^ k) c := by
  have habs (i : Int) : |(2 : ℝ) ^ i| = 2 ^ i := abs_of_pos (by positivity)
  have hpos (i : Int) : (0 : ℝ) < 2 ^ i := by positivity
  have hbinade (i : Int) : (2 : ℝ) ^ i < 2 ^ (i + 1) := zpow_lt_zpow_right₀ one_lt_two (lt_add_one i)
  have htiny (i : Int) (hi : i + 2 ≤ 1 - f.bias - f.mb) :
      0 < 2 * ((2 : ℝ) ^ i / 2 ^ ((1 : Int) - f.bias - f.mb)) ∧ 2 * ((2 : ℝ) ^ i / 2 ^ ((1 : Int) - f.bias - f.mb)) < 1 := by
    refine ⟨by positivity, ?_⟩
    rw [mul_div_assoc', div_lt_one (hpos _), ← zpow_one_add₀ two_ne_zero]
    exact zpow_lt_zpow_right₀ one_lt_two (by omega)
  refine isRounded_congr (iff_of_false (hpos j).le.not_gt (hpos k).le.not_gt) (iff_of_true (hpos j) (hpos k))
    (fun e hlow hhigh => ?_) h
  rw [habs] at hlow hhigh
  obtain rfl := binade_unique hlow hhigh le_rfl (hbinade j)
  refine ⟨k, (habs k).ge, (habs k).trans_lt (hbinade k), by omega, fun r hround => ?_⟩
  rw [max_eq_right (by omega), habs] at hround ⊢
  obtain ⟨h0, h1⟩ := htiny e hj
  obtain ⟨h0', h1'⟩ := htiny k hk
  have below {y : ℝ} (h0 : 0 < y) (h1 : y < 1) (N : Int) : y < N ↔ 1 ≤ N :=
    ⟨fun h => by exact_mod_cast (h0.trans h), fun h => h1.trans_le (by exact_mod_cast h)⟩
  have above {y : ℝ} (h0 : 0 < y) (h1 : y < 1) (N : Int) : (N : ℝ) < y ↔ N ≤ 0 :=
    ⟨fun h => Int.lt_add_one_iff.mp (by exact_mod_cast (h.trans h1)), fun h => lt_of_le_of_lt (by exact_mod_cast h) h0⟩
  exact roundsTo_congr (fun N => by rw [below h0 h1, below h0' h1']) (fun N => by rw [above h0 h1, above h0' h1']) hround

end

/-- The layouts of R59, by what the rounding of their results uses. -/
structure Ieee (f : Fmt) : Prop where
  exponents : f.eb ≠ 0
  fraction : f.mb ≠ 0
  narrow : f.mb ≤ 52
  top : (2 : Int) ^ f.eb - 1 - f.bias ≤ 1024
  bottom : -1074 ≤ 1 - (f.bias : Int) - f.mb

theorem ieee_fpFmt (ty : FpTy) : Ieee (fpFmt ty) := by
  cases ty <;> exact ⟨by decide, by decide, by decide, by decide, by decide⟩

/-- The exponential of an integer is a power of two, or beyond every layout where its argument is. -/
theorem exp2_of_int {f : Fmt} (hf : Ieee f) (rm : Rm) (ftz s : Bool) {m : Nat} {e k : Int} (h : finValue s m e = k)
    (hsmall : m < 2 ^ 53) :
    ∃ x, Num.exp2 (.fin s m e) = Num.both x ∧ IsRounded f rm ftz ((2 : ℝ) ^ k) (pack f rm ftz x) := by
  have hpower (j : Int) : IsRounded f rm ftz ((2 : ℝ) ^ j) (pack f rm ftz (.fin false 1 j)) := by
    have := isRounded_pack hf.exponents rm ftz false one_ne_zero j
    simpa [finValue] using this
  rcases eq_or_ne m 0 with rfl | hm
  · rw [(finValue_eq_zero s 0 e).mpr rfl] at h
    obtain rfl : k = 0 := by exact_mod_cast h.symm
    exact ⟨_, by simp [Num.exp2], hpower 0⟩
  have hk : k ≠ 0 := by
    rintro rfl
    exact hm ((finValue_eq_zero s m e).mp (by simpa using h))
  have habs : (m : ℝ) * 2 ^ e = |(k : ℝ)| := by
    rw [← abs_finValue s m e, h]
    push_cast
    rfl
  obtain ⟨hlow, hhigh⟩ := log2_binade hm e
  rw [habs] at hlow hhigh
  have hneg : k < 0 ↔ s = true := by
    rw [← finValue_neg_iff s hm e, h]
    exact Int.cast_lt_zero.symm
  have hlog : Nat.log2 m < 53 := (Nat.log2_lt hm).mpr hsmall
  have hbottom : 0 ≤ (Nat.log2 m : Int) + e := by
    have h1 : (1 : ℝ) ≤ |(k : ℝ)| := by exact_mod_cast Int.one_le_abs hk
    have := (zpow_lt_zpow_iff_right₀ (one_lt_two : (1 : ℝ) < 2)).mp ((zpow_zero (2 : ℝ)).le.trans_lt (h1.trans_lt hhigh))
    omega
  have htop := two_le_exponents hf.exponents
  by_cases hbeyond : 20 ≤ (Nat.log2 m : Int) + e
  · have hlarge : 2 ^ 20 ≤ |k| := by
      have h20 : ((2 : ℝ) ^ (20 : Int)) ≤ |(k : ℝ)| := (zpow_le_zpow_right₀ one_le_two hbeyond).trans hlow
      exact_mod_cast h20
    refine ⟨.fin false 1 (if s then -100000 else 100000), by simp only [Num.exp2, if_neg hm, if_pos hbeyond], ?_⟩
    have hftop := hf.top
    have hfbottom := hf.bottom
    have htwo : (2 : Int) ≤ 2 ^ f.eb := by exact_mod_cast htop
    cases s with
    | false =>
      have : ¬ k < 0 := by simp [hneg]
      rw [abs_of_nonneg (not_lt.mp this)] at hlarge
      exact isRounded_power_of_large rm ftz (by omega) (by omega) (by omega) (hpower 100000)
    | true =>
      rw [abs_of_neg (hneg.mpr rfl)] at hlarge
      exact isRounded_power_of_small rm ftz (by omega) (by omega) (hpower (-100000))
  · have hscaled : scaled s m e (-256) = k * 2 ^ 256 := by
      have hvalue := scaled_value s m (e := e) (q := -256) (by omega)
      rw [h, zpow_neg, mul_inv_eq_iff_eq_mul₀ (by positivity)] at hvalue
      exact_mod_cast hvalue
    refine ⟨_, ?_, hpower k⟩
    simp only [Num.exp2, if_neg hm, if_neg hbeyond, if_neg (show ¬ (Nat.log2 m : Int) + e < -140 by omega), hscaled]
    rw [Int.mul_emod_left, Int.mul_ediv_cancel _ (by positivity), if_pos (by rfl)]

/-! ### Codes read and written again -/

/-- The number that a code stands for has that code. -/
theorem magCode_of_codeValue {mb : Nat} {emin : Int} (rm : Rm) (neg : Bool) {m c : Nat} (hm : m ≠ 0) {e : Int}
    (h : (m : ℚ) * 2 ^ e = codeValue mb emin c) : magCode mb emin rm neg m e = c := by
  obtain ⟨x, k, hlow, hhigh, hround, hvalue⟩ := codeOf_magCode mb emin rm neg hm e
  obtain ⟨j, r, rfl, hr, hj⟩ := exists_binade mb c
  rw [codeValue_binade mb emin j r hr.le hj] at h
  have hreal : (m : ℝ) * 2 ^ e = r * 2 ^ (emin + j - mb) := by
    have := congrArg (fun x : ℚ => (x : ℝ)) h
    push_cast at this
    exact this
  have hpos (i : Int) : (0 : ℝ) < 2 ^ i := by positivity
  rw [hreal] at hlow hhigh hround
  have htop : (r : ℝ) * 2 ^ (emin + j - mb) < 2 ^ (emin + j + 1) := by
    rw [show emin + (j : Int) + 1 = ((mb + 1 : Nat) : Int) + (emin + j - mb) by push_cast; ring, zpow_add₀ two_ne_zero,
      zpow_natCast]
    exact mul_lt_mul_of_pos_right (by exact_mod_cast hr) (hpos _)
  have hmax : max x emin = emin + j := by
    have hle := (zpow_lt_zpow_iff_right₀ (one_lt_two : (1 : ℝ) < 2)).mp (hlow.trans_lt htop)
    rcases hj with rfl | hj
    · exact (max_eq_right (by omega)).trans (by simp)
    · have hbottom : (2 : ℝ) ^ (emin + j) ≤ r * 2 ^ (emin + j - mb) := by
        rw [show emin + (j : Int) = (mb : Int) + (emin + j - mb) by ring, zpow_add₀ two_ne_zero, zpow_natCast,
          show (mb : Int) + (emin + j - mb) - mb = emin + j - mb by ring]
        exact mul_le_mul_of_nonneg_right (by exact_mod_cast hj) (hpos _).le
      have := (zpow_lt_zpow_iff_right₀ (one_lt_two : (1 : ℝ) < 2)).mp (hbottom.trans_lt hhigh)
      omega
  rw [hmax] at hround hvalue
  rw [mul_div_cancel_right₀ _ (hpos _).ne'] at hround
  obtain rfl : k = r := le_antisymm (le_of_roundsTo hround le_rfl) (ge_of_roundsTo hround le_rfl)
  refine (codeValue_strictMono mb emin).injective ?_
  rw [codeValue_binade mb emin j k hr.le hj]
  refine Rat.cast_injective (α := ℝ) ?_
  rw [hvalue]
  push_cast
  rfl

/-- A code without its sign bit. -/
def magBits (f : Fmt) (a : Nat) : Nat := a % 2 ^ (f.eb + f.mb)

section
variable {f : Fmt} {a : Nat}

theorem magBits_lt : magBits f a < 2 ^ (f.eb + f.mb) := Nat.mod_lt _ (by positivity)

/-- A code is its sign and the rest. -/
theorem signed_magBits (h : a < 2 ^ fmtWidth f) : signed f (negative f a) (magBits f a) = a := by
  have hdiv := Nat.div_add_mod a (2 ^ (f.eb + f.mb))
  have hlt : a / 2 ^ (f.eb + f.mb) < 2 := by
    rw [Nat.div_lt_iff_lt_mul (by positivity), ← Nat.pow_succ']
    exact h
  unfold signed negative magBits
  rcases Nat.le_one_iff_eq_zero_or_eq_one.mp (Nat.lt_succ_iff.mp hlt) with h0 | h1
  · rw [h0] at hdiv ⊢
    simpa using hdiv
  · rw [h1] at hdiv ⊢
    simp only [Nat.one_mod, BEq.rfl, if_true]
    omega

theorem magBits_fraction : magBits f a % 2 ^ f.mb = a % 2 ^ f.mb :=
  Nat.mod_mod_of_dvd a (pow_dvd_pow 2 (Nat.le_add_left f.mb f.eb))

theorem magBits_exponent : magBits f a / 2 ^ f.mb = a / 2 ^ f.mb % 2 ^ f.eb := by
  rw [magBits, Nat.add_comm, pow_add, Nat.mod_mul_right_div_self]

theorem magnitude_eq_codeValue : magnitude f false a = codeValue f.mb (1 - f.bias) (magBits f a) := by
  rw [← magnitude_signed magBits_lt false]
  simp only [magnitude, signed, magBits_exponent, magBits_fraction, Bool.false_eq_true, if_false, Nat.mod_mod]

theorem magBits_lt_infCode (h : isFinite f a) : magBits f a < infCode f := by
  rw [infCode_eq, ← Nat.div_lt_iff_lt_mul (by positivity), magBits_exponent]
  have := Nat.mod_lt (a / 2 ^ f.mb) (show 0 < 2 ^ f.eb by positivity)
  unfold isFinite at h
  omega

/-- The magnitude under .FTZ. -/
theorem magnitude_flushed (f : Fmt) (ftz : Bool) (a : Nat) : magnitude f ftz a =
    codeValue f.mb (1 - f.bias) (if ftz = true ∧ magBits f a < 2 ^ f.mb then 0 else magBits f a) := by
  have hexp : a / 2 ^ f.mb % 2 ^ f.eb = 0 ↔ magBits f a < 2 ^ f.mb := by
    rw [← magBits_exponent, Nat.div_eq_zero_iff_lt (by positivity)]
  split
  · next h =>
    obtain ⟨rfl, hlt⟩ := h
    simp [magnitude, hexp.mpr hlt]
  · next h =>
    rw [← magnitude_eq_codeValue]
    cases ftz with
    | false => rfl
    | true =>
      have hne := mt hexp.mp (fun hlt => h ⟨rfl, hlt⟩)
      simp only [magnitude, if_neg hne]

theorem magnitude_of_value {ftz : Bool} {m : Nat} {e : Int} (h : value f ftz a = finValue (negative f a) m e) :
    magnitude f ftz a = m * 2 ^ e := by
  unfold value finValue at h
  cases hs : negative f a <;> simpa [hs] using h

/-- A finite code read and written: a subnormal becomes a zero under .FTZ. -/
theorem pack_unpack_of_isFinite (rm : Rm) (ftz : Bool) (h : isFinite f a) : pack f rm ftz (unpack f ftz a) =
    signed f (negative f a) (if ftz = true ∧ magBits f a < 2 ^ f.mb then 0 else magBits f a) := by
  obtain ⟨m, e, hu, hvalue, -⟩ := exists_unpack ftz h
  have hmag := (magnitude_of_value hvalue).symm.trans (magnitude_flushed f ftz a)
  rw [hu]
  rcases eq_or_ne m 0 with rfl | hm
  · have hzero : codeValue f.mb (1 - f.bias) 0 =
        codeValue f.mb (1 - f.bias) (if ftz = true ∧ magBits f a < 2 ^ f.mb then 0 else magBits f a) := by
      rw [codeValue_zero, ← hmag, Nat.cast_zero, zero_mul]
    rw [← (codeValue_strictMono _ _).injective hzero]
    simp [pack]
  · have hcode := magCode_of_codeValue rm (negative f a) hm hmag
    have hflush : ¬ (ftz = true ∧ magBits f a < 2 ^ f.mb) := fun hf => by
      rw [if_pos hf, codeValue_zero] at hmag
      exact absurd hmag (by positivity)
    rw [if_neg hflush] at hcode ⊢
    simp only [pack, if_neg hm, hcode, if_neg (not_le.mpr (magBits_lt_infCode h)), Bool.and_eq_true, decide_eq_true_eq, hflush,
      if_false]

/-- A code that is no NaN, read and written. -/
theorem pack_unpack (rm : Rm) (hn : ¬ isNan f a) (ha : a < 2 ^ fmtWidth f) : pack f rm false (unpack f false a) = a := by
  by_cases hexp : isFinite f a
  · rw [pack_unpack_of_isFinite rm false hexp, if_neg (by simp), signed_magBits ha]
  · have hinf : isInf f a := ⟨not_not.mp hexp, not_not.mp fun h => hn ⟨not_not.mp hexp, h⟩⟩
    have hbits : magBits f a = infCode f := by
      rw [infCode_eq, ← Nat.div_add_mod' (magBits f a) (2 ^ f.mb), magBits_exponent, magBits_fraction, hinf.1, hinf.2,
        Nat.add_zero]
    rw [unpack_of_isInf false hinf]
    show signed f (negative f a) (infCode f) = a
    rw [← hbits, signed_magBits ha]

/-- A finite code read and written stands for its value. -/
theorem value_pack_unpack (rm : Rm) (ftz : Bool) (h : isFinite f a) :
    value f false (pack f rm ftz (unpack f ftz a)) = value f ftz a := by
  have hlt : (if ftz = true ∧ magBits f a < 2 ^ f.mb then 0 else magBits f a) < 2 ^ (f.eb + f.mb) := by
    split
    · positivity
    · exact magBits_lt
  rw [pack_unpack_of_isFinite rm ftz h, value, negative_signed hlt, magnitude_signed hlt, ← magnitude_flushed, value]

end

/-! ### One rounding in integers (R61) -/

/-- The number m / 2^k, rounded to an integer as `roundAt` does. -/
theorem roundsTo_roundAt_nat (rm : Rm) (neg : Bool) (m k : Nat) {e q : Int} (hq : q = e + k) :
    RoundsTo rm (neg = true) ((m : ℝ) / 2 ^ k) (roundAt rm neg m e q) := by
  have h := roundsTo_roundAt rm neg m e q
  rwa [hq, zpow_add₀ two_ne_zero, zpow_natCast, mul_comm ((2 : ℝ) ^ e), mul_div_mul_right _ _ (by positivity), ← hq] at h

section
variable {m k r : Nat}

theorem down_iff : ((r : ℝ) ≤ m / 2 ^ k ∧ (m : ℝ) / 2 ^ k < r + 1) ↔ r * 2 ^ k ≤ m ∧ m < (r + 1) * 2 ^ k := by
  rw [le_div_iff₀ (by positivity), div_lt_iff₀ (by positivity)]
  exact_mod_cast Iff.rfl

theorem up_iff : ((m : ℝ) / 2 ^ k ≤ r ∧ (r : ℝ) < m / 2 ^ k + 1) ↔ m ≤ r * 2 ^ k ∧ r * 2 ^ k < m + 2 ^ k := by
  rw [div_le_iff₀ (by positivity), ← sub_lt_iff_lt_add, lt_div_iff₀ (by positivity), sub_mul, one_mul, sub_lt_iff_lt_add]
  exact_mod_cast Iff.rfl

theorem nearest_of_roundsTo {neg : Prop} (h : RoundsTo .rne neg ((m : ℝ) / 2 ^ k) r) :
    2 * r * 2 ^ k ≤ 2 * m + 2 ^ k ∧ 2 * m ≤ 2 * r * 2 ^ k + 2 ^ k ∧
      (2 * r * 2 ^ k = 2 * m + 2 ^ k ∨ 2 * m = 2 * r * 2 ^ k + 2 ^ k → r % 2 = 0) := by
  obtain ⟨hnear, htie⟩ := h
  have hp : (0 : ℝ) < 2 ^ k := by positivity
  have hm : (m : ℝ) / 2 ^ k * 2 ^ k = m := div_mul_cancel₀ _ hp.ne'
  set y := (m : ℝ) / 2 ^ k
  have habs : -(1 / 2 : ℝ) ≤ y - r ∧ y - r ≤ 1 / 2 := abs_le.mp (by linarith)
  refine ⟨?_, ?_, fun h => htie ?_⟩
  · have : 2 * (r : ℝ) * 2 ^ k ≤ 2 * m + 2 ^ k := by rw [← hm]; nlinarith
    exact_mod_cast this
  · have : 2 * (m : ℝ) ≤ 2 * r * 2 ^ k + 2 ^ k := by rw [← hm]; nlinarith
    exact_mod_cast this
  · rcases h with h | h
    · have h' : 2 * (r : ℝ) * 2 ^ k = 2 * (y * 2 ^ k) + 2 ^ k := by rw [hm]; exact_mod_cast h
      have : y - r = -(1 / 2) := mul_right_cancel₀ hp.ne' (by linarith)
      rw [this]
      norm_num
    · have h' : 2 * (y * 2 ^ k) = 2 * (r : ℝ) * 2 ^ k + 2 ^ k := by rw [hm]; exact_mod_cast h
      have : y - r = 1 / 2 := mul_right_cancel₀ hp.ne' (by linarith)
      rw [this]
      norm_num

end

end Sys2Proof.Machine
end

section
/-!
SUPPORT. FP operations on codes (R61–R63, R107, R108): finite operands, infinities and NaNs.
-/

namespace Sys2Proof.Machine

open Sys2Proof.Rules

/-! ### Finite operands -/

section
variable {f : Fmt} (hf : Ieee f) (rm : Rm) (ftz : Bool) {a b c : Nat}

include hf

/-- A number packed, where the sign of an exact zero is given. -/
theorem ieeeOf_pack_real {x : Num} {σ τ : Bool} {v : ℚ} (hx : ofNum x = .real σ v) (hz : v = 0 → σ = τ) :
    IeeeOf f rm ftz (.real τ v) (pack f rm ftz x) := by
  obtain ⟨hzero, hrest⟩ : IeeeOf f rm ftz (.real σ v) (pack f rm ftz x) := hx ▸ ieeeOf_pack hf.exponents rm ftz x
  exact ⟨fun h => by rw [hzero h, hz h], hrest⟩

theorem ieeeOf_pack_add (s t : Bool) (m n : Nat) (e g : Int) :
    IeeeOf f rm ftz (.real (zeroSign rm s t) (finValue s m e + finValue t n g))
      (pack f rm ftz (Num.add rm (.fin s m e) (.fin t n g))) := by
  obtain ⟨σ, hsum, hzero⟩ := ofNum_add rm s t m n e g
  exact ieeeOf_pack_real hf rm ftz hsum hzero

theorem fp2_add_finite (ha : isFinite f a) (hb : isFinite f b) :
    IeeeOf f rm ftz (.real (zeroSign rm (negative f a) (negative f b)) (value f ftz a + value f ftz b))
      (fp2 .add f rm ftz a b) := by
  obtain ⟨m, e, hu, hv, -⟩ := exists_unpack ftz ha
  obtain ⟨n, g, hw, hx, -⟩ := exists_unpack ftz hb
  simp only [fp2, hu, hw, hv, hx]
  exact ieeeOf_pack_add hf rm ftz _ _ m n e g

theorem fp2_sub_finite (ha : isFinite f a) (hb : isFinite f b) :
    IeeeOf f rm ftz (.real (zeroSign rm (negative f a) !negative f b) (value f ftz a - value f ftz b))
      (fp2 .sub f rm ftz a b) := by
  obtain ⟨m, e, hu, hv, -⟩ := exists_unpack ftz ha
  obtain ⟨n, g, hw, hx, -⟩ := exists_unpack ftz hb
  simp only [fp2, hu, hw, hv, hx, Num.neg, sub_eq_add_neg, ← finValue_neg]
  exact ieeeOf_pack_add hf rm ftz _ _ m n e g

theorem fp2_mul_finite (ha : isFinite f a) (hb : isFinite f b) :
    IeeeOf f rm ftz (.real (negative f a != negative f b) (value f ftz a * value f ftz b)) (fp2 .mul f rm ftz a b) := by
  obtain ⟨m, e, hu, hv, -⟩ := exists_unpack ftz ha
  obtain ⟨n, g, hw, hx, -⟩ := exists_unpack ftz hb
  simp only [fp2, hu, hw, hv, hx]
  exact ieeeOf_pack_real hf rm ftz (ofNum_mul _ _ m n e g) (fun _ => rfl)

/-- A quotient of finite numbers: a zero over a number, a number over zero, or the quotient rounded once. -/
theorem fp2_div_finite (ha : isFinite f a) (hb : isFinite f b) :
    (value f ftz a ≠ 0 → value f ftz b ≠ 0 →
      IsRounded f rm ftz (value f ftz a / value f ftz b : ℚ) (fp2 .div f rm ftz a b)) ∧
    (value f ftz a ≠ 0 → value f ftz b = 0 →
      fp2 .div f rm ftz a b = signed f (negative f a != negative f b) (infCode f)) ∧
    (value f ftz a = 0 → value f ftz b ≠ 0 → fp2 .div f rm ftz a b = signed f (negative f a != negative f b) 0) := by
  obtain ⟨m, e, hu, hv, -⟩ := exists_unpack ftz ha
  obtain ⟨n, g, hw, hx, -⟩ := exists_unpack ftz hb
  simp only [fp2, hu, hw, hv, hx, Ne, finValue_eq_zero]
  refine ⟨fun hm hn => isRounded_pack_div hf.exponents hf.narrow rm ftz _ _ hm hn e g, fun hm hn => ?_, fun hm hn => ?_⟩
  · simp [Num.div, hm, hn, pack]
  · simp [Num.div, hm, hn, pack]

/-- The product of two finite codes as the operand of a fused sum. -/
theorem ieeeOf_fused (ha : isFinite f a) (hb : isFinite f b) (hc : isFinite f c) :
    IeeeOf f rm ftz (.real (zeroSign rm (negative f a != negative f b) (negative f c))
        (value f ftz a * value f ftz b + value f ftz c)) (fp3 .fma f rm ftz a b c) ∧
    IeeeOf f rm ftz (.real (zeroSign rm (negative f a != negative f b) !negative f c)
        (value f ftz a * value f ftz b - value f ftz c)) (fp3 .fms f rm ftz a b c) ∧
    IeeeOf f rm ftz (.real (zeroSign rm (negative f a == negative f b) (negative f c))
        (-(value f ftz a * value f ftz b) + value f ftz c)) (fp3 .fnma f rm ftz a b c) := by
  obtain ⟨m, e, hu, hv, -⟩ := exists_unpack ftz ha
  obtain ⟨n, g, hw, hx, -⟩ := exists_unpack ftz hb
  obtain ⟨p, i, hy, hz, -⟩ := exists_unpack ftz hc
  have hbeq : (negative f a == negative f b) = !(negative f a != negative f b) := by simp [bne]
  simp only [fp3, hu, hw, hv, hx, hy, hz, hbeq, Num.mul, Num.neg, sub_eq_add_neg, ← finValue_mul_signed, ← finValue_neg]
  exact ⟨ieeeOf_pack_add hf rm ftz .., ieeeOf_pack_add hf rm ftz .., ieeeOf_pack_add hf rm ftz ..⟩

/-- Roots, reciprocals, logarithms and exponentials of finite codes. -/
theorem fp1_finite (ha : isFinite f a) :
    (0 < value f ftz a → IsRounded f rm ftz (Real.sqrt (value f ftz a)) (fp1 .sqrt f rm ftz a) ∧
      IsRounded f rm ftz (1 / Real.sqrt (value f ftz a)) (fp1 .rsq f rm ftz a)) ∧
    (value f ftz a ≠ 0 → IsRounded f rm ftz (1 / value f ftz a : ℚ) (fp1 .rcp f rm ftz a)) ∧
    (value f ftz a = 0 → fp1 .sqrt f rm ftz a = signed f (negative f a) 0 ∧
      fp1 .rsq f rm ftz a = signed f (negative f a) (infCode f) ∧
      fp1 .rcp f rm ftz a = signed f (negative f a) (infCode f) ∧ fp1 .log2 f rm ftz a = signed f true (infCode f)) ∧
    (value f ftz a < 0 → ∀ op ∈ [FpOp1.sqrt, .rsq, .log2], fp1 op f rm ftz a = nanCode f) := by
  obtain ⟨m, e, hu, hv, hm64⟩ := exists_unpack ftz ha
  have hsmall : m < 2 ^ 64 := hm64.trans_le (Nat.pow_le_pow_right two_pos (by have := hf.narrow; omega))
  simp only [fp1, hu, hv]
  refine ⟨fun hpos => ?_, fun hne => ?_, fun hzero => ?_, fun hneg => ?_⟩
  · have hm : m ≠ 0 := fun h => hpos.ne' ((finValue_eq_zero _ m e).mpr h)
    have hs : negative f a = false := by
      rw [← Bool.not_eq_true, ← finValue_neg_iff _ hm e]
      exact hpos.not_gt
    rw [hs]
    exact ⟨isRounded_pack_sqrt hf.exponents hf.narrow rm ftz hm e,
      isRounded_pack_rsq hf.exponents hf.narrow rm ftz hm e hsmall⟩
  · have hm := mt (finValue_eq_zero _ m e).mpr hne
    have hone : finValue false 1 0 = 1 := by simp [finValue]
    rw [← hone]
    exact isRounded_pack_div hf.exponents hf.narrow rm ftz false _ one_ne_zero hm 0 e
  · obtain rfl := (finValue_eq_zero _ m e).mp hzero
    simp [Num.sqrt, Num.rsq, Num.rcp, Num.div, Num.log2, packBetween_both, pack]
  · have hm : m ≠ 0 := fun h => hneg.ne ((finValue_eq_zero _ m e).mpr h)
    have hs := (finValue_neg_iff _ hm e).mp hneg
    simp [Num.sqrt, Num.rsq, Num.log2, packBetween_both, pack, hm, hs]

/-- The logarithm of a power of two and the exponential of an integer. -/
theorem fp1_powers (ha : isFinite f a) (k : Int) :
    (value f ftz a = (2 : ℚ) ^ k → k ≠ 0 → IsRounded f rm ftz k (fp1 .log2 f rm ftz a)) ∧
    (value f ftz a = (2 : ℚ) ^ k → k = 0 → fp1 .log2 f rm ftz a = 0) ∧
    (value f ftz a = k → IsRounded f rm ftz ((2 : ℝ) ^ k) (fp1 .exp2 f rm ftz a)) := by
  obtain ⟨m, e, hu, hv, hm⟩ := exists_unpack ftz ha
  have hsmall : m < 2 ^ 53 := hm.trans_le (Nat.pow_le_pow_right two_pos (by have := hf.narrow; omega))
  have hlog (h : value f ftz a = (2 : ℚ) ^ k) : fp1 .log2 f rm ftz a = pack f rm ftz (.fin (k < 0) k.natAbs 0) := by
    have hm0 : m ≠ 0 := fun hm0 => zpow_ne_zero k (two_ne_zero (α := ℚ)) (by rw [← h, hv, finValue_eq_zero, hm0])
    have hs : negative f a = false := by
      rw [← Bool.not_eq_true, ← finValue_neg_iff _ hm0 e, ← hv, h]
      exact not_lt.mpr (by positivity)
    rw [hv, hs] at h
    simp only [fp1, hu, hs, log2_of_power h, packBetween_both]
  refine ⟨fun h hk => ?_, fun h hk => ?_, fun h => ?_⟩
  · have hround := isRounded_pack hf.exponents rm ftz (decide (k < 0)) (Int.natAbs_ne_zero.mpr hk) 0
    rw [finValue_int, zpow_zero, mul_one] at hround
    rw [hlog h]
    exact_mod_cast hround
  · rw [hlog h, hk]
    simp [pack, signed]
  · rw [hv] at h
    obtain ⟨x, hexp, hround⟩ := exp2_of_int hf rm ftz _ h hsmall
    simp only [fp1, hu, hexp, packBetween_both]
    exact hround

end

section
variable {f : Fmt} (ftz : Bool) {a b : Nat}

/-- Relations of finite codes are those of their values. -/
theorem fpRel_finite (ha : isFinite f a) (hb : isFinite f b) :
    (fpRel .eq f ftz a b = true ↔ value f ftz a = value f ftz b) ∧
    (fpRel .lt f ftz a b = true ↔ value f ftz a < value f ftz b) ∧
    (fpRel .le f ftz a b = true ↔ value f ftz a ≤ value f ftz b) := by
  obtain ⟨m, e, hu, hv, -⟩ := exists_unpack ftz ha
  obtain ⟨n, g, hw, hx, -⟩ := exists_unpack ftz hb
  simp only [fpRel, hu, hw, hv, hx, Bool.or_eq_true, lt_fin_iff, eq_fin_iff, le_iff_lt_or_eq]
  exact ⟨trivial, trivial, trivial⟩

/-- FMIN and FMAX of finite codes choose the operand with the lesser and the greater value. -/
theorem value_minMax (ha : isFinite f a) (hb : isFinite f b) :
    value f false (fp2 .min f .rne ftz a b) = min (value f ftz a) (value f ftz b) ∧
    value f false (fp2 .max f .rne ftz a b) = max (value f ftz a) (value f ftz b) := by
  have hpa := value_pack_unpack .rne ftz ha
  have hpb := value_pack_unpack .rne ftz hb
  obtain ⟨m, e, hu, hv, -⟩ := exists_unpack ftz ha
  obtain ⟨n, g, hw, hx, -⟩ := exists_unpack ftz hb
  have hle (s t : Bool) (m n : Nat) (e g : Int) (h : (Num.fin s m e).ltz (.fin t n g) = true) : finValue s m e ≤ finValue t n g := by
    simp only [Num.ltz, Bool.or_eq_true, Bool.and_eq_true, lt_fin_iff, eq_fin_iff] at h
    exact h.elim le_of_lt fun h => h.1.1.le
  have hge (s t : Bool) (m n : Nat) (e g : Int) (h : ¬ (Num.fin s m e).ltz (.fin t n g) = true) :
      finValue t n g ≤ finValue s m e := by
    simp only [Num.ltz, Bool.or_eq_true, lt_fin_iff, not_or, not_lt] at h
    exact h.1
  simp only [fp2, Num.min, Num.max, hu, hw, reduceCtorEq, if_false] at hpa hpb ⊢
  constructor
  · split
    · next h => rw [hpb, hv, hx, min_eq_right (hle _ _ _ _ _ _ h)]
    · next h => rw [hpa, hv, hx, min_eq_left (hge _ _ _ _ _ _ h)]
  · split
    · next h => rw [hpb, hv, hx, max_eq_right (hle _ _ _ _ _ _ h)]
    · next h => rw [hpa, hv, hx, max_eq_left (hge _ _ _ _ _ _ h)]

end

/-! ### Classes (R108) -/

section
variable {f : Fmt} {a : Nat}

theorem isSnan_eq (f : Fmt) (a : Nat) : isSnan f a = true ↔ isNan f a ∧ a % 2 ^ f.mb < 2 ^ (f.mb - 1) := by
  simp [isSnan, isNan, Nat.shiftRight_eq_div_pow, and_assoc]

/-- The leading fraction bit tells quiet from signalling NaNs. -/
theorem fpClass_nan (hmb : f.mb ≠ 0) (h : isNan f a) : fpClass f a = if a / 2 ^ (f.mb - 1) % 2 = 0 then 2 ^ 8 else 2 ^ 9 := by
  have hlead : a / 2 ^ (f.mb - 1) % 2 = 0 ↔ a % 2 ^ f.mb < 2 ^ (f.mb - 1) := by
    obtain ⟨n, hn⟩ := Nat.exists_eq_succ_of_ne_zero hmb
    have hsplit : a % 2 ^ f.mb / 2 ^ (f.mb - 1) = a / 2 ^ (f.mb - 1) % 2 := by
      rw [hn, Nat.succ_sub_one, Nat.pow_succ, Nat.mod_mul_right_div_self]
    rw [← hsplit, Nat.div_eq_zero_iff_lt (by positivity)]
  simp only [fpClass, isSnan_eq, h, true_and, hlead, unpack_of_isNan false h]
  split <;> rfl

theorem not_isSnan (h : ¬ isNan f a) : ¬ isSnan f a = true := fun hs => h ((isSnan_eq f a).mp hs).1

theorem fpClass_inf (h : isInf f a) : fpClass f a = if negative f a then 2 ^ 0 else 2 ^ 7 := by
  simp only [fpClass, not_isSnan (fun hn => hn.2 h.2), unpack_of_isInf false h]
  rfl

theorem fpClass_finite (h : isFinite f a) : fpClass f a =
    if a / 2 ^ f.mb % 2 ^ f.eb ≠ 0 then if negative f a then 2 ^ 1 else 2 ^ 6
    else if a % 2 ^ f.mb ≠ 0 then if negative f a then 2 ^ 2 else 2 ^ 5
    else if negative f a then 2 ^ 3 else 2 ^ 4 := by
  have hlt : a % 2 ^ f.mb < 2 ^ f.mb := Nat.mod_lt _ (by positivity)
  have hu : unpack f false a = if a / 2 ^ f.mb % 2 ^ f.eb = 0 then .fin (negative f a) (a % 2 ^ f.mb) (1 - f.bias - f.mb)
      else .fin (negative f a) (a % 2 ^ f.mb + 2 ^ f.mb) ((a / 2 ^ f.mb % 2 ^ f.eb : Nat) - f.bias - f.mb) := by
    simp only [unpack, Nat.shiftRight_eq_div_pow, Nat.add_comm f.mb f.eb, if_neg h, Bool.false_eq_true, if_false]
    rfl
  simp only [fpClass, not_isSnan (fun hn => h hn.1), hu]
  by_cases hexp : a / 2 ^ f.mb % 2 ^ f.eb = 0
  · by_cases hfrac : a % 2 ^ f.mb = 0 <;> simp [hexp, hfrac, hlt]
  · simp [hexp]

end

end Sys2Proof.Machine
end

section
/-!
SUPPORT. FP operations with infinities and NaNs (R63, R107, R108), and the statement about FP results.
-/

namespace Sys2Proof.Machine

open Sys2Proof.Rules

theorem canonicalNan_eq (ty : FpTy) : canonicalNan ty = nanCode (fpFmt ty) := by cases ty <;> rfl

/-! ### Infinities (R63, R107) -/

section
variable {f : Fmt} (rm : Rm) (ftz : Bool) {a b c : Nat}

theorem fpRel_inf (ha : isInf f a) :
    (isFinite f b → fpRel .eq f ftz a b = false ∧ fpRel .eq f ftz b a = false ∧ fpRel .lt f ftz a b = negative f a ∧
      fpRel .le f ftz a b = negative f a ∧ fpRel .lt f ftz b a = !negative f a ∧ fpRel .le f ftz b a = !negative f a) ∧
    (isInf f b → fpRel .eq f ftz a b = (negative f a == negative f b) ∧
      fpRel .lt f ftz a b = (negative f a && !negative f b) ∧ fpRel .le f ftz a b = (negative f a || !negative f b)) := by
  refine ⟨fun hb => ?_, fun hb => ?_⟩
  · obtain ⟨m, e, hu, -⟩ := exists_unpack ftz hb
    simp only [fpRel, unpack_of_isInf ftz ha, hu, eq_of_ne_nan, Num.lt, ne_eq, reduceCtorEq, not_false_eq_true]
    cases negative f a <;> simp
  · simp only [fpRel, unpack_of_isInf ftz ha, unpack_of_isInf ftz hb, eq_of_ne_nan, Num.lt, ne_eq, reduceCtorEq, not_false_eq_true]
    cases negative f a <;> cases negative f b <;> simp

/-- An infinity and a finite number. -/
theorem fp2_inf_finite (ha : isInf f a) (hb : isFinite f b) :
    fp2 .add f rm ftz a b = signed f (negative f a) (infCode f) ∧ fp2 .add f rm ftz b a = signed f (negative f a) (infCode f) ∧
    fp2 .sub f rm ftz a b = signed f (negative f a) (infCode f) ∧ fp2 .sub f rm ftz b a = signed f (!negative f a) (infCode f) ∧
    fp2 .div f rm ftz a b = signed f (negative f a != negative f b) (infCode f) ∧
    fp2 .div f rm ftz b a = signed f (negative f a != negative f b) 0 ∧
    (value f ftz b ≠ 0 → fp2 .mul f rm ftz a b = signed f (negative f a != negative f b) (infCode f) ∧
      fp2 .mul f rm ftz b a = signed f (negative f a != negative f b) (infCode f)) ∧
    (value f ftz b = 0 → fp2 .mul f rm ftz a b = nanCode f ∧ fp2 .mul f rm ftz b a = nanCode f ∧
      ∀ op, fp3 op f rm ftz a b c = nanCode f ∧ fp3 op f rm ftz b a c = nanCode f) := by
  obtain ⟨m, e, hu, hv, -⟩ := exists_unpack ftz hb
  have hzero : value f ftz b = 0 ↔ m = 0 := by rw [hv, finValue_eq_zero]
  have hcomm : (negative f b != negative f a) = (negative f a != negative f b) := by
    cases negative f a <;> cases negative f b <;> rfl
  refine ⟨?_, ?_, ?_, ?_, ?_, ?_, fun hne => ?_, fun h0 => ⟨?_, ?_, fun op => ?_⟩⟩
  all_goals simp only [fp2, fp3, unpack_of_isInf ftz ha, hu, Num.add, Num.neg, Num.div, Num.mul]
  · rfl
  · rfl
  · rfl
  · rfl
  · rfl
  · rw [hcomm]; rfl
  · rw [if_neg (mt hzero.mpr hne), if_neg (mt hzero.mpr hne), hcomm]
    exact ⟨rfl, rfl⟩
  · rw [if_pos (hzero.mp h0)]; rfl
  · rw [if_pos (hzero.mp h0)]; rfl
  · rw [if_pos (hzero.mp h0), if_pos (hzero.mp h0)]
    cases op <;> exact ⟨rfl, rfl⟩

/-- Two infinities. -/
theorem fp2_inf_inf (ha : isInf f a) (hb : isInf f b) :
    fp2 .mul f rm ftz a b = signed f (negative f a != negative f b) (infCode f) ∧ fp2 .div f rm ftz a b = nanCode f ∧
    (negative f a = negative f b → fp2 .add f rm ftz a b = signed f (negative f a) (infCode f) ∧
      fp2 .sub f rm ftz a b = nanCode f) ∧
    (negative f a ≠ negative f b → fp2 .add f rm ftz a b = nanCode f ∧
      fp2 .sub f rm ftz a b = signed f (negative f a) (infCode f)) := by
  simp only [fp2, unpack_of_isInf ftz ha, unpack_of_isInf ftz hb, Num.add, Num.neg, Num.div, Num.mul]
  refine ⟨rfl, rfl, fun h => ?_, fun h => ?_⟩
  · rw [if_pos h, if_neg (by rw [h]; simp)]
    exact ⟨rfl, rfl⟩
  · rw [if_neg h, if_pos (by simpa [eq_comm] using Bool.eq_not.mpr h)]
    exact ⟨rfl, rfl⟩

/-- The product of an infinity and a number that is not zero. -/
theorem mul_inf (ha : isInf f a) (hb : isInf f b ∨ (isFinite f b ∧ value f ftz b ≠ 0)) :
    (unpack f ftz a).mul (unpack f ftz b) = .inf (negative f a != negative f b) := by
  rcases hb with hb | ⟨hb, hne⟩
  · rw [unpack_of_isInf ftz ha, unpack_of_isInf ftz hb]
    rfl
  · obtain ⟨m, e, hu, hv, -⟩ := exists_unpack ftz hb
    rw [hv, Ne, finValue_eq_zero] at hne
    simp only [unpack_of_isInf ftz ha, hu, Num.mul, if_neg hne]

/-- A fused sum whose product is an infinity. -/
theorem fp3_inf (ha : isInf f a) (hb : isInf f b ∨ (isFinite f b ∧ value f ftz b ≠ 0)) :
    (isInf f c → let P := (negative f a != negative f b)
      fp3 .fma f rm ftz a b c = (if P = negative f c then signed f P (infCode f) else nanCode f) ∧
      fp3 .fms f rm ftz a b c = (if P = negative f c then nanCode f else signed f P (infCode f)) ∧
      fp3 .fnma f rm ftz a b c = (if P = negative f c then nanCode f else signed f (negative f c) (infCode f))) ∧
    (isFinite f c → fp3 .fma f rm ftz a b c = signed f (negative f a != negative f b) (infCode f) ∧
      fp3 .fms f rm ftz a b c = signed f (negative f a != negative f b) (infCode f) ∧
      fp3 .fnma f rm ftz a b c = signed f (negative f a == negative f b) (infCode f)) := by
  refine ⟨fun hc => ?_, fun hc => ?_⟩
  · simp only [fp3, mul_inf ftz ha hb, unpack_of_isInf ftz hc, Num.add, Num.neg]
    cases (negative f a != negative f b) <;> cases negative f c <;> exact ⟨rfl, rfl, rfl⟩
  · obtain ⟨m, e, hu, -⟩ := exists_unpack ftz hc
    simp only [fp3, mul_inf ftz ha hb, hu, Num.add, Num.neg]
    exact ⟨rfl, rfl, by rw [bne, Bool.not_not]; rfl⟩

/-- A fused sum of a finite product and an infinity. -/
theorem fp3_finite_inf (ha : isFinite f a) (hb : isFinite f b) (hc : isInf f c) :
    fp3 .fma f rm ftz a b c = signed f (negative f c) (infCode f) ∧
    fp3 .fms f rm ftz a b c = signed f (!negative f c) (infCode f) ∧
    fp3 .fnma f rm ftz a b c = signed f (negative f c) (infCode f) := by
  obtain ⟨m, e, hu, -⟩ := exists_unpack ftz ha
  obtain ⟨n, g, hw, -⟩ := exists_unpack ftz hb
  simp only [fp3, hu, hw, unpack_of_isInf ftz hc, Num.mul, Num.neg, Num.add]
  exact ⟨rfl, rfl, rfl⟩

/-- Roots, reciprocals, logarithms and exponentials of an infinity. -/
theorem fp1_inf (ha : isInf f a) :
    fp1 .rcp f rm ftz a = signed f (negative f a) 0 ∧
    (negative f a = true → (∀ op ∈ [FpOp1.sqrt, .rsq, .log2], fp1 op f rm ftz a = nanCode f) ∧ fp1 .exp2 f rm ftz a = 0) ∧
    (negative f a = false → (∀ op ∈ [FpOp1.sqrt, .log2, .exp2], fp1 op f rm ftz a = infCode f) ∧ fp1 .rsq f rm ftz a = 0) := by
  simp only [fp1, unpack_of_isInf ftz ha]
  refine ⟨?_, fun h => ?_, fun h => ?_⟩
  · simp [Num.rcp, Num.div, pack]
  · simp [h, Num.sqrt, Num.rsq, Num.log2, Num.exp2, packBetween_both, pack, signed]
  · simp [h, Num.sqrt, Num.rsq, Num.log2, Num.exp2, packBetween_both, pack, signed]

end

/-! ### Zeros (R63, R107) -/

section
variable {f : Fmt} (hf : Ieee f) (rm : Rm) (ftz : Bool)
include hf

theorem unpack_zero (s : Bool) : unpack f ftz (signed f s 0) = .fin s 0 (1 - f.bias - f.mb) := by
  have hlt : 0 < 2 ^ (f.eb + f.mb) := by positivity
  have htwo := two_le_exponents hf.exponents
  have hsign := negative_signed hlt s
  unfold negative at hsign
  simp only [unpack, Nat.shiftRight_eq_div_pow, Nat.add_comm f.mb f.eb, hsign, signed_mod_fraction hlt, signed_exponent hlt,
    Nat.zero_div, Nat.zero_mod, if_neg (show ¬ 0 = 2 ^ f.eb - 1 by omega), if_true, ite_self]

/-- −0 equals +0, is the lesser in FMIN and FMAX, and 0 ÷ 0 is a NaN. -/
theorem fp_signed_zeros :
    fpRel .eq f ftz (2 ^ (f.eb + f.mb)) 0 = true ∧
    fp2 .min f .rne ftz (2 ^ (f.eb + f.mb)) 0 = 2 ^ (f.eb + f.mb) ∧ fp2 .max f .rne ftz (2 ^ (f.eb + f.mb)) 0 = 0 ∧
    fp2 .div f rm ftz 0 0 = nanCode f := by
  have hminus := unpack_zero hf ftz true
  have hplus := unpack_zero hf ftz false
  have hlt (s t : Bool) (q : Int) : (Num.fin s 0 q).lt (.fin t 0 q) = false := by
    rw [← Bool.not_eq_true, lt_fin_iff, (finValue_eq_zero s 0 q).mpr rfl, (finValue_eq_zero t 0 q).mpr rfl]
    exact lt_irrefl 0
  have heq (s t : Bool) (q : Int) : (Num.fin s 0 q).eq (.fin t 0 q) = true := by
    rw [eq_of_ne_nan (by simp) (by simp), hlt, hlt]
    rfl
  simp only [signed, if_true, Bool.false_eq_true, if_false, zero_add] at hminus hplus
  simp only [fpRel, fp2, hminus, hplus, heq, Num.min, Num.max, Num.ltz, hlt, Num.isNeg, reduceCtorEq, if_false]
  simp [pack, signed, Num.div]

end

/-! ### NaNs (R63, R107, R108) -/

theorem add_nan (rm : Rm) (x : Num) : Num.add rm x .nan = .nan := by cases x <;> rfl

theorem mul_nan (x : Num) : Num.mul x .nan = .nan := by cases x <;> rfl

theorem div_nan (x : Num) : Num.div x .nan = .nan := by cases x <;> rfl

theorem lt_nan (x : Num) : Num.lt x .nan = false := by cases x <;> rfl

theorem nan_lt (x : Num) : Num.lt .nan x = false := rfl

theorem eq_nan (x : Num) : Num.eq x .nan = false := by cases x <;> rfl

theorem nan_eq (x : Num) : Num.eq .nan x = false := rfl

section
variable {f : Fmt} (rm : Rm) (ftz : Bool) {a b : Nat}

theorem fp_nan_operand (c : Nat) (h : isNan f a ∨ isNan f b) :
    (∀ op ∈ [FpOp2.add, .sub, .mul, .div], fp2 op f rm ftz a b = nanCode f) ∧
    (∀ op, fp3 op f rm ftz a b c = nanCode f) ∧
    fpRel .eq f ftz a b = false ∧ fpRel .lt f ftz a b = false ∧ fpRel .le f ftz a b = false := by
  have hmul : (unpack f ftz a).mul (unpack f ftz b) = .nan := by
    rcases h with h | h <;> rw [unpack_of_isNan ftz h]
    · rfl
    · exact mul_nan _
  refine ⟨fun op hop => ?_, fun op => ?_, ?_⟩
  · simp only [List.mem_cons, List.not_mem_nil, or_false] at hop
    rcases h with h | h <;> rcases hop with rfl | rfl | rfl | rfl <;>
      simp only [fp2, unpack_of_isNan ftz h, Num.neg, add_nan, mul_nan, div_nan] <;> rfl
  · cases op <;> simp only [fp3, hmul] <;> rfl
  · rcases h with h | h <;> simp only [fpRel, unpack_of_isNan ftz h, lt_nan, nan_lt, eq_nan, nan_eq, Bool.or_false, and_self]

theorem fp3_nan_addend (b : Nat) {c : Nat} (h : isNan f c) (op : FpOp3) : fp3 op f rm ftz a b c = nanCode f := by
  cases op <;> simp only [fp3, unpack_of_isNan ftz h, Num.neg, add_nan] <;> rfl

theorem fp1_nan (h : isNan f a) (op : FpOp1) : fp1 op f rm ftz a = nanCode f := by
  cases op <;> simp only [fp1, unpack_of_isNan ftz h, Num.log2, Num.exp2, packBetween_both] <;> rfl

/-- FMIN and FMAX of a NaN and a number give the number. -/
theorem fp2_min_max_nan (h : isNan f a) {op : FpOp2} (hop : op ∈ [FpOp2.min, .max]) :
    (isNan f b → fp2 op f .rne ftz a b = nanCode f) ∧
    (¬ isNan f b → b < 2 ^ fmtWidth f → ftz = false → fp2 op f .rne ftz a b = b ∧ fp2 op f .rne ftz b a = b) := by
  simp only [List.mem_cons, List.not_mem_nil, or_false] at hop
  refine ⟨fun hb => ?_, fun hb hlt hftz => ?_⟩
  · rcases hop with rfl | rfl <;> simp only [fp2, unpack_of_isNan ftz h, unpack_of_isNan ftz hb] <;> rfl
  · subst hftz
    have hne := mt (unpack_eq_nan_iff false).mp hb
    have hsame := pack_unpack .rne hb hlt
    rcases hop with rfl | rfl <;>
      simp only [fp2, unpack_of_isNan false h, Num.min, Num.max, if_pos, if_neg hne, hsame, and_self]

theorem fpRel_un_iff : fpRel .un f ftz a b = true ↔ isNan f a ∨ isNan f b := by
  simp [fpRel, unpack_eq_nan_iff]

end

end Sys2Proof.Machine

open Sys2Proof Sys2Proof.Machine Sys2Proof.Rules

/-- Settles O10: an operation's number is exact, or keeps a sticky last bit, and is packed once; the other clauses follow what
codes read as. -/
theorem fpResultsAreRoundedOnceAndNansCanonical : Obligations.FpResultsAreRoundedOnceAndNansCanonical := by
  refine ⟨fun ty rm ftz a b c f hty => ?_, fun neg m k e q hq => ?_⟩
  · have hf : Ieee f := hty ▸ ieee_fpFmt ty
    intro x y z A B C
    rw [canonicalNan_eq, ← hty]
    refine ⟨fun ha hb => ?_, fun ha => ?_, fun ha => ?_, fpClass_nan hf.fraction, fpClass_inf, fpClass_finite,
      fp3_finite_inf rm ftz, fp_nan_operand rm ftz c, fun hc => fp3_nan_addend rm ftz b hc, fun ha => ?_,
      fpRel_un_iff ftz, fp_signed_zeros hf rm ftz⟩
    · obtain ⟨hadd0, hadd⟩ := fp2_add_finite hf rm ftz ha hb
      obtain ⟨hsub0, hsub⟩ := fp2_sub_finite hf rm ftz ha hb
      obtain ⟨hmul0, hmul⟩ := fp2_mul_finite hf rm ftz ha hb
      obtain ⟨hdiv, hdivInf, hdiv0⟩ := fp2_div_finite hf rm ftz ha hb
      obtain ⟨hmin, hmax⟩ := value_minMax ftz ha hb
      obtain ⟨heq, hlt, hle⟩ := fpRel_finite ftz ha hb
      refine ⟨hadd, hadd0, hsub, hsub0, hmul, hmul0, hdiv, hdivInf, hdiv0, hmin, hmax, heq, hlt, hle, fun hc => ?_⟩
      obtain ⟨⟨hfma0, hfma⟩, ⟨hfms0, hfms⟩, hfnma0, hfnma⟩ := ieeeOf_fused hf rm ftz ha hb hc
      exact ⟨hfma, hfma0, hfms, hfms0, hfnma, hfnma0⟩
    · obtain ⟨hroots, hrcp, hzero, hnegative⟩ := fp1_finite hf rm ftz ha
      exact ⟨hroots, hrcp, hzero, hnegative, fp1_powers hf rm ftz ha⟩
    · obtain ⟨hrelFinite, hrelInf⟩ := fpRel_inf ftz (b := b) ha
      obtain ⟨hrcp, hneg, hpos⟩ := fp1_inf rm ftz ha
      exact ⟨hrelFinite, hrelInf, fp2_inf_finite rm ftz ha, fp2_inf_inf rm ftz ha, fun hc hb => (fp3_inf rm ftz ha hb).1 hc,
        fun hc hb => (fp3_inf rm ftz ha hb).2 hc, hrcp, hneg, hpos⟩
    · exact ⟨fun op _ => fp1_nan rm ftz ha op, fun hb op hop => (fp2_min_max_nan ftz ha hop).1 hb,
        fun hb hlt hftz op hop => (fp2_min_max_nan ftz ha hop).2 hb hlt hftz⟩
  · refine ⟨?_, ?_, ?_, ?_⟩ <;> rintro r rfl
    · exact nearest_of_roundsTo (roundsTo_roundAt_nat .rne neg m k hq)
    · exact down_iff.mp (roundsTo_roundAt_nat .rtz neg m k hq)
    · obtain ⟨hneg, hpos⟩ := roundsTo_roundAt_nat .rdn neg m k hq
      split
      · next h => exact up_iff.mp (hneg h)
      · next h => exact down_iff.mp (hpos h)
    · obtain ⟨hneg, hpos⟩ := roundsTo_roundAt_nat .rup neg m k hq
      split
      · next h => exact down_iff.mp (hneg h)
      · next h => exact up_iff.mp (hpos h)
end

section
/-!
SUPPORT. Vector words (R115, R117, R118, R122, R123): masks and elements in the spelling of the manual, the image that a word
leaves, the pairwise tree and the running sums.
-/

namespace Sys2Proof.Machine

open Sys2Proof.Rules

/-! ### Elements and masks (R115, R117) -/

theorem elem_eq_held {w : Nat} (hw : w ≤ slotBits w) (v : VImage) (e : Nat) : elem w v e = element w v e :=
  (Nat.mod_mod_of_dvd _ (pow_dvd_pow 2 hw)).symm

theorem lane_eq_held (v : VImage) (i : Nat) : lane v i = held 32 v i := rfl

theorem held_lt (w : Nat) (v : VImage) (e : Nat) : held w v e < 2 ^ slotBits w := Nat.mod_lt _ (by positivity)

theorem numFmt_width (ty : NumTy) : fmtWidth (numFmt ty) ≤ slotBits (fmtWidth (numFmt ty)) := by cases ty <;> decide

theorem rankFmt_width (ty : RankTy) : fmtWidth (rankFmt ty) ≤ slotBits (fmtWidth (rankFmt ty)) := by cases ty <;> decide

theorem elemCount_le (w : Nat) : elemCount w ≤ 32 := by
  unfold elemCount
  split <;> omega

section
variable (k : Src) (m : W64)

theorem testBit_maskOf_of_lt {e : Nat} (he : e < 32) : (maskOf k m).testBit e = decide (k = .z ∨ m.getLsbD e = true) := by
  rw [Bool.eq_iff_iff, testBit_maskOf, decide_eq_true_iff]
  exact and_iff_right he

theorem enabledOf_eq (w : Nat) : enabledOf w (maskOf k m) = enabledBelow k m (1024 / slotBits w) := by
  rw [enabledOf, enabledBelow, ← elemCount_eq]
  refine List.filter_congr fun e he => testBit_maskOf_of_lt k m ?_
  exact (List.mem_range.mp he).trans_le (elemCount_le w)

theorem mem_enabledBelow {n e : Nat} (hn : n ≤ 32) : e ∈ enabledBelow k m n ↔ e < n ∧ enables k m e := by
  simp only [enabledBelow, List.mem_filter, List.mem_range, decide_eq_true_iff, enables]
  exact ⟨fun ⟨h, h'⟩ => ⟨h, h.trans_le hn, h'⟩, fun ⟨h, _, h'⟩ => ⟨h, h'⟩⟩

theorem count_le (w : Nat) : 1024 / slotBits w ≤ 32 := elemCount_eq w ▸ elemCount_le w

theorem anySnan_iff {f : Fmt} (hf : fmtWidth f ≤ slotBits (fmtWidth f)) (v : VImage) :
    anySnan f (maskOf k m) v = true ↔ anySignals f k m v := by
  simp only [anySnan, enabledOf_eq, List.any_eq_true, mem_enabledBelow k m (count_le _), elem_eq_held hf, anySignals, and_assoc]

/-- The image of a word that computes each enabled element and keeps the others. -/
theorem lanes_mapElems (w : Nat) (old : VImage) {f val : Nat → Nat}
    (h : ∀ e < 1024 / slotBits w, enables k m e → f e % 2 ^ slotBits w = val e % 2 ^ slotBits w) :
    Rules.Lanes w k m old (mapElems w (maskOf k m) old f) val := by
  intro e he
  have hcell : ∀ e < elemCount w, (if (maskOf k m).testBit e then f e % 2 ^ slotBits w else held w old e) < 2 ^ slotBits w := by
    intro e _
    split
    · exact Nat.mod_lt _ (by positivity)
    · exact held_lt w old e
  have hheld : held w (mapElems w (maskOf k m) old f) e =
      if (maskOf k m).testBit e then f e % 2 ^ slotBits w else held w old e :=
    held_joinCells hcell (elemCount_eq w ▸ he)
  rw [hheld]
  refine ⟨fun hen => ?_, fun hdis => ?_⟩
  · rw [if_pos ((testBit_maskOf k m e).mpr hen), h e he hen]
  · rw [if_neg (mt (testBit_maskOf k m e).mp hdis)]

end

/-! ### The pairwise tree (R72, R122) -/

section
variable (op : Nat → Nat → Nat)

theorem treeLevel_append (l r : List (Option Nat)) (h : l.length % 2 = 0) :
    treeLevel op (l ++ r) = treeLevel op l ++ treeLevel op r := by
  induction l using treeLevel.induct with
  | case1 a b l ih =>
    have : l.length % 2 = 0 := by simpa [Nat.add_assoc] using h
    simp only [List.cons_append, treeLevel, ih this]
  | case2 l hl =>
    match l, hl, h with
    | [], _, _ => rfl
    | [a], _, h => simp at h
    | a :: b :: l, hl, _ => exact absurd rfl (hl a b l)

theorem treeLevel_length (l : List (Option Nat)) : (treeLevel op l).length = (l.length + 1) / 2 := by
  induction l using treeLevel.induct with
  | case1 a b l ih => simp only [treeLevel, List.length_cons, ih]; omega
  | case2 l hl =>
    match l, hl with
    | [], _ => rfl
    | [a], _ => simp [treeLevel]
    | a :: b :: l, hl => exact absurd rfl (hl a b l)

/-- The tree over pairs of inputs is the tree over the inputs. -/
theorem tree_treeLevel (n : Nat) (l : List (Option Nat)) (h : l.length = 2 ^ (n + 1)) :
    tree op n (treeLevel op l) = tree op (n + 1) l := by
  induction n generalizing l with
  | zero =>
    match l, h with
    | [a, b], _ => cases a <;> cases b <;> rfl
  | succ n ih =>
    have hlow : (l.take (2 ^ (n + 1))).length = 2 ^ (n + 1) := by rw [List.length_take, h, pow_succ 2 (n + 1)]; omega
    have hhigh : (l.drop (2 ^ (n + 1))).length = 2 ^ (n + 1) := by rw [List.length_drop, h, pow_succ 2 (n + 1)]; omega
    have hsplit : treeLevel op l = treeLevel op (l.take (2 ^ (n + 1))) ++ treeLevel op (l.drop (2 ^ (n + 1))) := by
      rw [← treeLevel_append op _ _ (by rw [hlow, pow_succ]; omega), List.take_append_drop]
    have hlen : (treeLevel op (l.take (2 ^ (n + 1)))).length = 2 ^ n := by rw [treeLevel_length, hlow, pow_succ]; omega
    rw [hsplit, tree, List.take_left' hlen, List.drop_left' hlen, ih _ hlow, ih _ hhigh]
    rfl

/-- The model's levels are the tree. -/
theorem treeSum_eq_tree (n : Nat) (l : List (Option Nat)) (h : l.length = 2 ^ n) : treeSum op n l = tree op n l := by
  induction n generalizing l with
  | zero => rfl
  | succ n ih => rw [treeSum, ih _ (by rw [treeLevel_length, h, pow_succ]; omega), tree_treeLevel op n l h]

/-- One level more over a power of two of inputs adds nothing. -/
theorem treeSum_succ (n : Nat) (l : List (Option Nat)) (h : l.length = 2 ^ n) : treeSum op (n + 1) l = treeSum op n l := by
  induction n generalizing l with
  | zero =>
    match l, h with
    | [a], _ => rfl
  | succ n ih =>
    have hlen : (treeLevel op l).length = 2 ^ n := by rw [treeLevel_length, h, pow_succ]; omega
    exact ih _ hlen

end

theorem treeInputs_eq {f : Fmt} (hf : fmtWidth f ≤ slotBits (fmtWidth f)) (ftz : Bool) (k : Src) (m : W64) (v : VImage) :
    treeInputs f ftz (maskOf k m) v = inputs f ftz k m v := by
  simp only [treeInputs, inputs, ← elemCount_eq]
  refine List.map_congr_left fun e he => ?_
  rw [testBit_maskOf_of_lt k m ((List.mem_range.mp he).trans_le (elemCount_le _)), elem_eq_held hf]
  simp

/-- The tree of a reduction over a register. -/
theorem treeSum_inputs (op : Nat → Nat → Nat) (ty : NumTy) (ftz : Bool) (k : Src) (m : W64) (v : VImage) :
    treeSum op 5 (treeInputs (numFmt ty) ftz (maskOf k m) v) =
      tree op (if fmtWidth (numFmt ty) = 64 then 4 else 5) (inputs (numFmt ty) ftz k m v) := by
  rw [treeInputs_eq (numFmt_width ty)]
  have hlen : (inputs (numFmt ty) ftz k m v).length = 1024 / slotBits (fmtWidth (numFmt ty)) := by simp [inputs]
  cases ty with
  | d =>
    rw [treeSum_succ op 4 _ hlen]
    exact treeSum_eq_tree op 4 _ hlen
  | w => exact treeSum_eq_tree op 5 _ hlen
  | h => exact treeSum_eq_tree op 5 _ hlen

/-! ### Running sums (R123) -/

/-- The sum at an element is that of the elements up to it. -/
theorem mapGet_scanFrom (f : Fmt) (rm : Rm) (ftz : Bool) (v : VImage) {e : Nat} (post : List Nat) (pre : List Nat) (he : e ∉ pre)
    (acc : Option Nat) : mapGet 0 (scanFrom f rm ftz v acc (pre ++ e :: post)) e =
      match acc with
      | none => running f rm ftz ((pre ++ [e]).map (elem (fmtWidth f) v))
      | some a => ((pre ++ [e]).map (elem (fmtWidth f) v)).foldl (fp2 .add f rm ftz) a := by
  induction pre generalizing acc with
  | nil => cases acc <;> simp [scanFrom, mapGet, mapFind, running]
  | cons x xs ih =>
    obtain ⟨hne, hnot⟩ := List.ne_and_not_mem_of_not_mem_cons he
    have hskip (c : Nat) (l : List (Nat × Nat)) : mapGet 0 ((x, c) :: l) e = mapGet 0 l e := by
      rw [mapGet, mapFind, if_neg hne.symm, mapGet]
    cases acc with
    | none => exact (hskip _ _).trans (ih hnot _)
    | some a => exact (hskip _ _).trans (ih hnot _)

theorem enabledBelow_split (k : Src) (m : W64) {e n : Nat} (he : e < n) (hen : enables k m e) :
    ∃ post, enabledBelow k m n = enabledBelow k m e ++ e :: post ∧ enabledBelow k m (e + 1) = enabledBelow k m e ++ [e] := by
  obtain ⟨d, rfl⟩ := Nat.exists_eq_add_of_le (Nat.succ_le_of_lt he)
  have hlast : enabledBelow k m (e + 1) = enabledBelow k m e ++ [e] := by
    simp [enabledBelow, List.range_succ, hen.2]
  refine ⟨((List.range d).map (e + 1 + ·)).filter (fun e => k = .z ∨ m.getLsbD e = true), ?_, hlast⟩
  rw [enabledBelow, Nat.succ_eq_add_one, List.range_add, List.filter_append, ← enabledBelow, hlast, List.append_assoc]
  rfl

/-- The value that VSCAN gives an enabled element. -/
theorem scan_value {f : Fmt} (hf : fmtWidth f ≤ slotBits (fmtWidth f)) (rm : Rm) (ftz : Bool) (k : Src) (m : W64) (v : VImage)
    {e : Nat} (he : e < 1024 / slotBits (fmtWidth f)) (hen : enables k m e) :
    mapGet 0 (scanFrom f rm ftz v none (enabledOf (fmtWidth f) (maskOf k m))) e =
      running f rm ftz ((enabledBelow k m (e + 1)).map (element (fmtWidth f) v)) := by
  obtain ⟨post, hall, hlast⟩ := enabledBelow_split k m he hen
  have hnot : e ∉ enabledBelow k m e := by simp [enabledBelow]
  rw [enabledOf_eq, hall, mapGet_scanFrom f rm ftz v post _ hnot, hlast]
  simp only [funext (elem_eq_held hf v)]

end Sys2Proof.Machine
end

section
/-!
SUPPORT. Rankings (R125–R129): the order of candidates as one linear order, its greatest element, and the two greatest of a
group.
-/

namespace Sys2Proof.Machine

open Sys2Proof.Rules

/-! ### The order of R125 -/

/-- A value's place in the order of R125: NaN, −∞, the numbers with −0 below +0, +∞. -/
def place : Num → ℕ ×ₗ ℚ ×ₗ Bool
  | .nan => toLex (0, toLex (0, false))
  | .inf s => toLex (if s then 1 else 3, toLex (0, false))
  | .fin s m e => toLex (2, toLex (finValue s m e, !s))

theorem place_lt_iff {a b : Num} (ha : a ≠ .nan) (hb : b ≠ .nan) : a.ltz b = true ↔ place a < place b := by
  cases a with
  | nan => exact absurd rfl ha
  | inf s =>
    cases b with
    | nan => exact absurd rfl hb
    | inf t => cases s <;> cases t <;> simp [Num.ltz, Num.lt, Num.isNeg, place, Prod.Lex.toLex_lt_toLex]
    | fin t n g => cases s <;> simp [Num.ltz, Num.lt, Num.isNeg, eq_of_ne_nan, place, Prod.Lex.toLex_lt_toLex]
  | fin s m e =>
    cases b with
    | nan => exact absurd rfl hb
    | inf t => cases t <;> simp [Num.ltz, Num.lt, Num.isNeg, eq_of_ne_nan, place, Prod.Lex.toLex_lt_toLex]
    | fin t n g =>
      simp only [Num.ltz, Num.isNeg, Bool.or_eq_true, Bool.and_eq_true, lt_fin_iff, eq_fin_iff, place,
        Prod.Lex.toLex_lt_toLex, lt_irrefl, false_or, true_and]
      cases s <;> cases t <;> simp

/-- A candidate's place: its value's, and of equal ones the lower index first. -/
def candidatePlace (c : Num × Nat) : (ℕ ×ₗ ℚ ×ₗ Bool) ×ₗ ℕᵒᵈ := toLex (place c.1, OrderDual.toDual c.2)

/-- A NaN stands below every number. -/
theorem place_nan_lt {x : Num} (h : x ≠ .nan) : place .nan < place x := by
  cases x with
  | nan => exact absurd rfl h
  | inf s => cases s <;> simp [place, Prod.Lex.toLex_lt_toLex]
  | fin s m e => simp [place, Prod.Lex.toLex_lt_toLex]

theorem ranksAbove_iff (x y : Num × Nat) : ranksAbove x y = true ↔ candidatePlace y < candidatePlace x := by
  obtain ⟨x, i⟩ := x
  obtain ⟨y, j⟩ := y
  rw [candidatePlace, candidatePlace, Prod.Lex.toLex_lt_toLex, OrderDual.toDual_lt_toDual]
  by_cases hy : y = .nan
  · subst hy
    by_cases hx : x = .nan
    · subst hx
      simp [ranksAbove]
    · simp [ranksAbove, hx, place_nan_lt hx]
  by_cases hx : x = .nan
  · subst hx
    have hlt := place_nan_lt hy
    simp [ranksAbove, hy, hlt.not_gt, hlt.ne']
  · simp only [ranksAbove, if_neg hy, if_neg hx, Bool.or_eq_true, Bool.and_eq_true, Bool.not_eq_true', ← Bool.not_eq_true,
      place_lt_iff hy hx, place_lt_iff hx hy, decide_eq_true_eq]
    rcases lt_trichotomy (place y) (place x) with h | h | h
    · simp [h]
    · simp [h]
    · simp [h, h.not_gt, h.ne']

/-- The order is the one that R125 states of values. -/
theorem ranksByValue (x y : Num) (i j : Nat) : RanksByValue x y i j (ranksAbove (x, i) (y, j)) := by
  have hinf (s t : Bool) : (Num.inf s).ltz (.inf t) = (s && !t) := by cases s <;> cases t <;> rfl
  have hinfFin (s t : Bool) (m : Nat) (e : Int) : (Num.inf s).ltz (.fin t m e) = s := by
    cases s <;> simp [Num.ltz, Num.lt, eq_of_ne_nan]
  have hfinInf (s t : Bool) (m : Nat) (e : Int) : (Num.fin t m e).ltz (.inf s) = !s := by
    cases s <;> simp [Num.ltz, Num.lt, eq_of_ne_nan]
  cases x with
  | nan =>
    cases y <;> simp [RanksByValue, ranksAbove]
  | inf s =>
    cases y with
    | nan => rfl
    | inf t =>
      simp only [RanksByValue, ranksAbove, reduceCtorEq, if_false, hinf]
      cases s <;> cases t <;> simp
    | fin t n g =>
      simp only [RanksByValue, ranksAbove, reduceCtorEq, if_false, hinfFin, hfinInf]
      cases s <;> simp
  | fin s m e =>
    cases y with
    | nan => rfl
    | inf t =>
      simp only [RanksByValue, ranksAbove, reduceCtorEq, if_false, hinfFin, hfinInf]
      cases t <;> simp
    | fin t n g =>
      have hlt (s t : Bool) (m n : Nat) (e g : Int) : (Num.fin s m e).ltz (.fin t n g) =
          decide (finValue s m e < finValue t n g ∨ (finValue s m e = finValue t n g ∧ s = true ∧ t = false)) := by
        rw [Bool.eq_iff_iff, decide_eq_true_iff]
        simp only [Num.ltz, Num.isNeg, Bool.or_eq_true, Bool.and_eq_true, lt_fin_iff, eq_fin_iff, Bool.not_eq_true', and_assoc]
      simp only [RanksByValue, ranksAbove, reduceCtorEq, if_false, hlt]
      rw [← finValue, ← finValue]
      refine ⟨fun h => ?_, fun h => ?_, fun h => ?_⟩
      · simp [h]
      · simp [h, h.not_gt, h.ne']
      · rw [h]
        cases s <;> cases t <;> simp

/-! ### The winner (R126) -/

theorem index_eq_of_candidatePlace {c d : Num × Nat} (h : candidatePlace c = candidatePlace d) : c.2 = d.2 :=
  congrArg (fun p : (ℕ ×ₗ ℚ ×ₗ Bool) ×ₗ ℕᵒᵈ => OrderDual.ofDual (ofLex p).2) h

/-- The winner is in the list, and nothing stands above it. -/
theorem winner_spec (l : List (Num × Nat)) (h : l ≠ []) :
    ∃ c, winner l = some c ∧ c ∈ l ∧ ∀ d ∈ l, candidatePlace d ≤ candidatePlace c := by
  induction l with
  | nil => exact absurd rfl h
  | cons c cs ih =>
    rcases eq_or_ne cs [] with rfl | hne
    · exact ⟨c, rfl, List.mem_singleton_self c, fun d hd => (List.mem_singleton.mp hd) ▸ le_rfl⟩
    · obtain ⟨d, hd, hmem, hmax⟩ := ih hne
      simp only [winner, hd, ranksAbove_iff]
      split
      · next hlt =>
        exact ⟨d, rfl, List.mem_cons_of_mem c hmem, fun e he => (List.mem_cons.mp he).elim (fun h => h ▸ hlt.le) (hmax e)⟩
      · next hge =>
        exact ⟨c, rfl, List.mem_cons_self .., fun e he =>
          (List.mem_cons.mp he).elim (fun h => h ▸ le_rfl) (fun h => (hmax e h).trans (not_lt.mp hge))⟩

theorem winner_iff (l : List (Num × Nat)) (c : Num × Nat) (hl : ∀ x ∈ l, ∀ y ∈ l, x.2 = y.2 → x = y) :
    winner l = some c ↔ c ∈ l ∧ ∀ d ∈ l, d ≠ c → ranksAbove c d = true := by
  simp only [ranksAbove_iff]
  constructor
  · intro h
    obtain ⟨w, hw, hmem, hmax⟩ := winner_spec l (by rintro rfl; cases h)
    obtain rfl : w = c := Option.some_injective _ (hw.symm.trans h)
    exact ⟨hmem, fun d hd hne => lt_of_le_of_ne (hmax d hd) fun heq => hne (hl d hd w hmem (index_eq_of_candidatePlace heq))⟩
  · rintro ⟨hmem, hbest⟩
    obtain ⟨w, hw, hwmem, hmax⟩ := winner_spec l (List.ne_nil_of_mem hmem)
    rw [hw]
    by_contra hne
    exact (hbest w hwmem fun h => hne (congrArg some h)).not_ge (hmax c hmem)

/-! ### The two that VCMPR keeps (R128) -/

/-- A magnitude's place: numbers, above them the infinities, above them the NaNs. -/
def magnitudePlace : Num → ℕ ×ₗ ℚ
  | .nan => toLex (2, 0)
  | .inf _ => toLex (1, 0)
  | .fin _ m e => toLex (0, (m : ℚ) * 2 ^ e)

theorem greater_iff (x y : Num) : greater x y ↔ magnitudePlace y < magnitudePlace x := by
  cases x <;> cases y <;> simp [greater, magnitudePlace, Prod.Lex.toLex_lt_toLex]

/-- A group's element as VCMPR orders it. -/
def groupPlace (c : Num × Nat) : (ℕ ×ₗ ℚ) ×ₗ ℕᵒᵈ := toLex (magnitudePlace c.1, OrderDual.toDual c.2)

theorem groupPlace_lt_iff (x y : Num) (p q : Nat) :
    groupPlace (y, q) < groupPlace (x, p) ↔ greater x y ∨ (¬ greater y x ∧ p < q) := by
  rw [groupPlace, groupPlace, Prod.Lex.toLex_lt_toLex, OrderDual.toDual_lt_toDual, greater_iff, greater_iff]
  rcases lt_trichotomy (magnitudePlace y) (magnitudePlace x) with h | h | h
  · simp [h]
  · simp [h]
  · simp [h, h.not_gt, h.ne']

theorem magAbove_iff (x y : Num × Nat) : magAbove x y = true ↔ groupPlace y < groupPlace x := by
  obtain ⟨x, p⟩ := x
  obtain ⟨y, q⟩ := y
  rw [groupPlace_lt_iff]
  have hfin (m n : Nat) (e g : Int) : (Num.fin false m e).lt (.fin false n g) = true ↔ (m : ℚ) * 2 ^ e < n * 2 ^ g := by
    rw [lt_fin_iff]
    simp [finValue]
  cases x with
  | nan => cases y <;> simp [magAbove, greater]
  | inf s => cases y <;> simp [magAbove, greater, Num.abs, Num.lt]
  | fin s m e =>
    cases y with
    | nan => simp [magAbove, greater]
    | inf t => simp [magAbove, greater, Num.abs, Num.lt]
    | fin t n g =>
      simp only [magAbove, greater, Num.abs, reduceCtorEq, if_false, Bool.or_eq_true, Bool.and_eq_true, Bool.not_eq_true',
        ← Bool.not_eq_true, hfin, decide_eq_true_eq]

end Sys2Proof.Machine
end

section
/-!
SUPPORT. The two of four that VCMPR keeps (R128), by the number of elements that stand above each; the set of VSELK (R129) as bits.
-/

namespace Sys2Proof.Machine

open Sys2Proof.Rules

/-! ### Ranks -/

section
variable {K : Type} [LinearOrder K] (key : Nat → K) (n : Nat)

/-- How many of the first n stand above p. -/
def countAbove (p : Nat) : Nat := ((Finset.range n).filter (fun q => key p < key q)).card

variable {key n}

theorem countAbove_lt {p q : Nat} (hq : q < n) (h : key p < key q) : countAbove key n q < countAbove key n p := by
  refine Finset.card_lt_card (Finset.ssubset_iff_of_subset ?_ |>.mpr ⟨q, by simp [hq, h], by simp⟩)
  exact Finset.monotone_filter_right _ fun z _ hz => h.trans hz

theorem countAbove_lt_size {p : Nat} (hp : p < n) : countAbove key n p < n := by
  calc countAbove key n p < (Finset.range n).card :=
        Finset.card_lt_card (Finset.filter_ssubset.mpr ⟨p, by simp [hp], lt_irrefl _⟩)
    _ = n := Finset.card_range n

theorem countAbove_injOn (h : Set.InjOn key (Finset.range n)) : Set.InjOn (countAbove key n) (Finset.range n) := by
  intro p hp q hq heq
  by_contra hne
  rcases lt_or_gt_of_ne fun hkey => hne (h hp hq hkey) with hlt | hlt
  · exact (countAbove_lt (Finset.mem_range.mp hq) hlt).ne' heq
  · exact (countAbove_lt (Finset.mem_range.mp hp) hlt).ne heq

/-- Each rank is taken once, so k of the n have fewer than k above them. -/
theorem card_countAbove_lt (h : Set.InjOn key (Finset.range n)) {k : Nat} (hk : k ≤ n) :
    ((Finset.range n).filter (fun p => countAbove key n p < k)).card = k := by
  have himage : (Finset.range n).image (countAbove key n) = Finset.range n := by
    refine Finset.eq_of_subset_of_card_le (Finset.image_subset_iff.mpr fun p hp => ?_) ?_
    · exact Finset.mem_range.mpr (countAbove_lt_size (Finset.mem_range.mp hp))
    · rw [Finset.card_image_of_injOn (countAbove_injOn h)]
  calc ((Finset.range n).filter (fun p => countAbove key n p < k)).card
      = (((Finset.range n).filter (fun p => countAbove key n p < k)).image (countAbove key n)).card :=
        (Finset.card_image_of_injOn ((countAbove_injOn h).mono (Finset.coe_subset.mpr (Finset.filter_subset _ _)))).symm
    _ = (((Finset.range n).image (countAbove key n)).filter (· < k)).card := by rw [Finset.filter_image]
    _ = ((Finset.range n).filter (· < k)).card := by rw [himage]
    _ = (Finset.range k).card := congrArg Finset.card (Finset.ext fun r => by simp; omega)
    _ = k := Finset.card_range k

/-- The two of n that have fewer than two above them, rising. -/
theorem exists_two_highest (h : Set.InjOn key (Finset.range n)) (hn : 2 ≤ n) :
    ∃ p q, (List.range n).filter (fun p => countAbove key n p < 2) = [p, q] ∧ p < q ∧ q < n ∧
      ∀ z < n, z ≠ p → z ≠ q → key z < key p ∧ key z < key q := by
  have hlen : ((List.range n).filter (fun p => countAbove key n p < 2)).length = 2 := card_countAbove_lt h hn
  obtain ⟨p, q, hpq⟩ := List.length_eq_two.mp hlen
  have hmem (z : Nat) : z = p ∨ z = q ↔ z < n ∧ countAbove key n z < 2 := by
    have := List.mem_filter (x := z) (as := List.range n) (p := fun p => decide (countAbove key n p < 2))
    rw [hpq] at this
    simpa using this
  obtain ⟨hp, hprank⟩ := (hmem p).mp (.inl rfl)
  obtain ⟨hq, hqrank⟩ := (hmem q).mp (.inr rfl)
  have hbeats {z w : Nat} (hw : w < n) (hz : z < n) (hwrank : countAbove key n w < 2) (hzrank : ¬ countAbove key n z < 2) :
      key z < key w := by
    rcases lt_trichotomy (key z) (key w) with hlt | heq | hgt
    · exact hlt
    · exact absurd (h (by simpa using hz) (by simpa using hw) heq ▸ hwrank) hzrank
    · have := countAbove_lt hz hgt
      omega
  refine ⟨p, q, hpq, ?_, hq, fun z hz hzp hzq => ?_⟩
  · have hsorted : List.Pairwise (· < ·) [p, q] := hpq ▸ List.pairwise_lt_range.filter _
    simpa using hsorted
  · have hzrank : ¬ countAbove key n z < 2 := fun hlow => ((hmem z).mpr ⟨hz, hlow⟩).elim hzp hzq
    exact ⟨hbeats hp hz hprank hzrank, hbeats hq hz hqrank hzrank⟩

end

/-! ### The two that a group keeps (R128) -/

/-- Element p of group g, as VCMPR ranks it. -/
def groupElement (f : Fmt) (ftz : Bool) (b : VImage) (g p : Nat) : Num := unpack f ftz (held 32 b (4 * g + p) % 2 ^ fmtWidth f)

theorem rankIn_magAbove (x : Nat → Num) (n p : Nat) :
    rankIn magAbove ((List.range n).map (fun q => (x q, q))) (x p, p) = countAbove (fun q => groupPlace (x q, q)) n p := by
  have hself : ∀ q ∈ List.range n, ((q != p) && magAbove (x q, q) (x p, p)) =
      decide (groupPlace (x p, p) < groupPlace (x q, q)) := by
    intro q _
    rw [Bool.eq_iff_iff, Bool.and_eq_true, magAbove_iff, decide_eq_true_iff, bne_iff_ne, and_iff_right_iff_imp]
    rintro hlt rfl
    exact lt_irrefl _ hlt
  rw [rankIn, List.filter_map, List.length_map]
  exact congrArg List.length (List.filter_congr hself)

theorem groupPlace_injOn (x : Nat → Num) (s : Set Nat) : Set.InjOn (fun q => groupPlace (x q, q)) s := fun _ _ _ _ h =>
  congrArg (fun c : (ℕ ×ₗ ℚ) ×ₗ ℕᵒᵈ => OrderDual.ofDual (ofLex c).2) h

/-- The pair that a group keeps is the two that stand above the others. -/
theorem keptPair_spec (f : Fmt) (ftz : Bool) (b : VImage) (g : Nat) :
    (keptPair f ftz b g).1 < (keptPair f ftz b g).2 ∧ (keptPair f ftz b g).2 < 4 ∧
      ∀ q < 4, q ≠ (keptPair f ftz b g).1 → q ≠ (keptPair f ftz b g).2 →
        groupPlace (groupElement f ftz b g q, q) < groupPlace (groupElement f ftz b g (keptPair f ftz b g).1, (keptPair f ftz b g).1) ∧
        groupPlace (groupElement f ftz b g q, q) < groupPlace (groupElement f ftz b g (keptPair f ftz b g).2, (keptPair f ftz b g).2) := by
  obtain ⟨p, q, hkept, hspec⟩ := exists_two_highest (groupPlace_injOn (groupElement f ftz b g) (Finset.range 4)) (by omega)
  have hpair : keptPair f ftz b g = (p, q) := by
    have hlist : ((((List.range 4).map (fun p => (groupElement f ftz b g p, p))).filter (fun x =>
        rankIn magAbove ((List.range 4).map (fun p => (groupElement f ftz b g p, p))) x < 2)).map (·.2)) = [p, q] := by
      rw [List.filter_map, List.map_map, ← hkept]
      simp only [Function.comp_def, rankIn_magAbove, List.map_id']
    exact (congrArg (fun l : List Nat => match l with | [p, q] => (p, q) | _ => (0, 1)) hlist :)
  rw [hpair]
  exact hspec

/-! ### A set of places as bits (R129) -/

/-- Above a bound, the bits of a set of places are a multiple of its power of two. -/
theorem dvd_bitsWhere (p : Nat → Bool) {b : Nat} : ∀ {l : List Nat}, (∀ e ∈ l, b ≤ e) → 2 ^ b ∣ bitsWhere l p
  | [], _ => dvd_zero _
  | e :: es, h => by
    refine Nat.dvd_add ?_ (dvd_bitsWhere p fun z hz => h z (List.mem_cons_of_mem e hz))
    split
    · exact pow_dvd_pow 2 (h e List.mem_cons_self)
    · exact dvd_zero _

/-- Bit i of the word of a rising list of places. -/
theorem testBit_bitsWhere (p : Nat → Bool) {l : List Nat} (h : l.Pairwise (· < ·)) (i : Nat) :
    (bitsWhere l p).testBit i = true ↔ i ∈ l ∧ p i = true := by
  induction l with
  | nil => simp [bitsWhere]
  | cons e es ih =>
    obtain ⟨hhead, htail⟩ := List.pairwise_cons.mp h
    obtain ⟨r, hr⟩ := dvd_bitsWhere p (b := e + 1) hhead
    have hlt : (if p e then 2 ^ e else 0) < 2 ^ (e + 1) := by split <;> simp [pow_succ]
    have hbit : (if p e then 2 ^ e else 0).testBit i = true ↔ i = e ∧ p i = true := by
      by_cases hp : p e = true
      · simp only [hp, if_true, Nat.testBit_two_pow, decide_eq_true_iff]
        exact ⟨fun heq => ⟨heq.symm, heq ▸ hp⟩, fun ⟨heq, _⟩ => heq.symm⟩
      · simp only [hp, Bool.false_eq_true, if_false, Nat.zero_testBit, false_iff]
        rintro ⟨rfl, hi⟩
        exact hp hi
    rw [bitsWhere, Nat.add_comm, hr, Nat.two_pow_add_eq_or_of_lt hlt, ← hr, Nat.testBit_or, Bool.or_eq_true, ih htail, hbit,
      List.mem_cons]
    tauto

end Sys2Proof.Machine
end

section
/-!
SUPPORT. The images of VMAXI and VCMPR (R127, R128), and the statement about reductions and rankings.
-/

namespace Sys2Proof.Machine

open Sys2Proof.Rules

/-! ### VMAXI (R127) -/

/-- A code fits its layout. -/
theorem pack_lt (f : Fmt) (rm : Rm) (ftz : Bool) (x : Num) : pack f rm ftz x < 2 ^ fmtWidth f := by
  have hinf := infCode_lt f
  have hzero : 0 < 2 ^ (f.eb + f.mb) := by positivity
  cases x with
  | nan =>
    rw [pack, nanCode, fmtWidth, pow_succ]
    have : 2 ^ (f.mb - 1) ≤ 2 ^ (f.eb + f.mb) := Nat.pow_le_pow_right two_pos (by omega)
    omega
  | inf s => exact signed_lt hinf s
  | fin s m e =>
    simp only [pack]
    split
    · exact signed_lt hzero s
    split
    · exact signed_lt (by split <;> omega) s
    split
    · exact signed_lt hzero s
    · exact signed_lt (by omega) s

theorem pairWinner_lt (ty : RankTy) (ftz : Bool) (a b : VImage) (i : Nat) : pairWinner (rankFmt ty) ftz a b i < 2 ^ 64 := by
  have hcode (x : Num) : pack (rankFmt ty) .rne false x < 2 ^ 32 :=
    (pack_lt (rankFmt ty) .rne false x).trans_le (by cases ty <;> decide)
  have hlane (v : VImage) (j : Nat) : lane v j < 2 ^ 32 := held_lt 32 v j
  have hpair (u : VImage) : pack (rankFmt ty) .rne false (unpack (rankFmt ty) ftz (lane u (2 * i))) + 2 ^ 32 * lane u (2 * i + 1) <
      2 ^ 64 := by
    have := hcode (unpack (rankFmt ty) ftz (lane u (2 * i)))
    have := hlane u (2 * i + 1)
    omega
  simp only [pairWinner]
  split
  · exact hpair b
  · exact hpair a

/-- Whether the value of an enabled pair of a source is a signalling NaN. -/
def pairSnan (f : Fmt) (mask : Nat) (u : VImage) : Bool :=
  (enabledOf 64 mask).any (fun i => isSnan f (lane u (2 * i) % 2 ^ fmtWidth f))

theorem execVmaxi_delivers {x : VRankR} {s : State} {v : Vals} (hp : Poised s (formVV x.a x.b x.d x.k) v) :
    let f := rankFmt x.ty
    ∃ (r : VImage) (sn : Bool),
      (∀ i < 16, (enables x.k v.k i → held 64 r i = pairWinner f x.ftz v.va v.vb i) ∧
        (¬ enables x.k v.k i → held 64 r i = held 64 (s.me.vCell x.d.val).val i)) ∧
      (sn = true ↔ ∃ i < 16, enables x.k v.k i ∧ (isSnan f (held 32 v.va (2 * i) % 2 ^ fmtWidth f) = true ∨
        isSnan f (held 32 v.vb (2 * i) % 2 ^ fmtWidth f) = true)) ∧
      exec (.vmaxi x) s = .next (delivers s (formVV x.a x.b x.d x.k) x.stall (.vec r 0) .seq sn) := by
  refine ⟨mapElems 64 (maskOf x.k v.k) (s.me.vCell x.d.val).val (pairWinner (rankFmt x.ty) x.ftz v.va v.vb),
    pairSnan (rankFmt x.ty) (maskOf x.k v.k) v.va || pairSnan (rankFmt x.ty) (maskOf x.k v.k) v.vb, fun i hi => ?_, ?_, ?_⟩
  · have hlanes := lanes_mapElems x.k v.k 64 (s.me.vCell x.d.val).val (f := pairWinner (rankFmt x.ty) x.ftz v.va v.vb)
      (val := pairWinner (rankFmt x.ty) x.ftz v.va v.vb) (fun _ _ _ => rfl) i hi
    refine ⟨fun hen => ?_, hlanes.2⟩
    rw [hlanes.1 hen]
    exact Nat.mod_eq_of_lt (pairWinner_lt ..)
  · simp only [pairSnan, enabledOf_eq, Bool.or_eq_true, List.any_eq_true, mem_enabledBelow x.k v.k (count_le 64), lane_eq_held]
    have hcount : 1024 / slotBits 64 = 16 := rfl
    simp only [hcount, ← exists_or, ← and_or_left, and_assoc]
  · rw [show exec (.vmaxi x) s = execVmaxi x s from rfl, execVmaxi]
    exact issue_delivers hp rfl rfl (by simp only [consumeAll_oldVec, pairSnan])

/-! ### VCMPR (R128) -/

/-- Lane i of the image that VCMPR leaves. -/
def compressLane (f : Fmt) (ftz : Bool) (mask : Nat) (old a b : VImage) (i : Nat) : Nat :=
  if i < 16 then
    if mask.testBit (i / 2) then
      held 32 a (4 * (i / 2) + if i % 2 = 0 then (keptPair f ftz b (i / 2)).1 else (keptPair f ftz b (i / 2)).2)
    else held 32 old i
  else if i = 16 then
    joinCells 4 ((List.range 8).map (fun g =>
      if mask.testBit g then (keptPair f ftz b g).2 * 4 + (keptPair f ftz b g).1 else held 32 old 16 / 2 ^ (4 * g) % 16))
  else 0

section
variable (f : Fmt) (ftz : Bool) (mask : Nat) (old a b : VImage)

theorem indexCell_lt (g : Nat) :
    (if mask.testBit g then (keptPair f ftz b g).2 * 4 + (keptPair f ftz b g).1 else held 32 old 16 / 2 ^ (4 * g) % 16) < 2 ^ 4 := by
  obtain ⟨hlt, hfour, -⟩ := keptPair_spec f ftz b g
  split <;> omega

theorem compressLane_lt (i : Nat) : compressLane f ftz mask old a b i < 2 ^ 32 := by
  unfold compressLane
  split
  · split <;> exact held_lt 32 _ _
  split
  · exact joinCells_range_lt (n := 8) fun g _ => indexCell_lt f ftz mask old b g
  · exact Nat.two_pow_pos 32

theorem held_compress {i : Nat} (hi : i < 32) : held 32 (compress f ftz mask old a b) i = compressLane f ftz mask old a b i :=
  held_joinCells (w := 32) (fun e _ => compressLane_lt f ftz mask old a b e) hi

theorem compress_value {g : Nat} (hg : g < 8) (p : Nat) (hp : p < 2) :
    held 32 (compress f ftz mask old a b) (2 * g + p) = if mask.testBit g then
      held 32 a (4 * g + if p = 0 then (keptPair f ftz b g).1 else (keptPair f ftz b g).2) else held 32 old (2 * g + p) := by
  rw [held_compress f ftz mask old a b (by omega), compressLane, if_pos (by omega), show (2 * g + p) / 2 = g by omega,
    show (2 * g + p) % 2 = p by omega]

theorem compress_index {g : Nat} (hg : g < 8) :
    held 32 (compress f ftz mask old a b) 16 / 16 ^ g % 16 = if mask.testBit g then
      (keptPair f ftz b g).2 * 4 + (keptPair f ftz b g).1 else held 32 old 16 / 16 ^ g % 16 := by
  rw [held_compress f ftz mask old a b (by omega), show 16 ^ g = 2 ^ (4 * g) from (pow_mul 2 4 g).symm]
  exact joinCells_range_cell (b := 4) (n := 8) (fun e _ => indexCell_lt f ftz mask old b e) hg

theorem compress_rest {i : Nat} (hlow : 17 ≤ i) (hi : i < 32) : held 32 (compress f ftz mask old a b) i = 0 := by
  rw [held_compress f ftz mask old a b hi, compressLane, if_neg (by omega), if_neg (by omega)]

end

/-- Whether an element of an enabled group is a signalling NaN. -/
def groupSnan (f : Fmt) (mask : Nat) (u : VImage) : Bool :=
  ((List.range 8).filter mask.testBit).any (fun g => (List.range 4).any (fun p => isSnan f (lane u (4 * g + p) % 2 ^ fmtWidth f)))

theorem execVcmpr_delivers {x : VRankR} {s : State} {v : Vals} (hp : Poised s (formVV x.a x.b x.d x.k) v) :
    ∃ sn : Bool, (sn = true ↔ ∃ g < 8, enables x.k v.k g ∧ ∃ p < 4,
        isSnan (rankFmt x.ty) (held 32 v.vb (4 * g + p) % 2 ^ fmtWidth (rankFmt x.ty)) = true) ∧
      exec (.vcmpr x) s = .next (delivers s (formVV x.a x.b x.d x.k) x.stall
        (.vec (compress (rankFmt x.ty) x.ftz (maskOf x.k v.k) (s.me.vCell x.d.val).val v.va v.vb) 1) .seq sn) := by
  refine ⟨groupSnan (rankFmt x.ty) (maskOf x.k v.k) v.vb, ?_, ?_⟩
  · simp only [groupSnan, List.any_eq_true, List.mem_filter, List.mem_range, testBit_maskOf, lane_eq_held, and_assoc]
  · rw [show exec (.vcmpr x) s = execVcmpr x s from rfl, execVcmpr]
    exact issue_delivers hp rfl rfl (by simp only [consumeAll_oldVec, groupSnan])

/-! ### The words that rank or reduce a register -/

section
variable {s : State} {v : Vals}

theorem execVred_delivers {x : VRedR} (hp : Poised s (formVS x.a x.d x.k) v) :
    exec (.vred x) s = .next (delivers s (formVS x.a x.d x.k) x.stall
      (.one (BitVec.ofNat 64 (redResult x.op (numFmt x.ty) x.rm x.ftz (maskOf x.k v.k) v.va)) 1) .seq
      (anySnan (numFmt x.ty) (maskOf x.k v.k) v.va)) := by
  rw [show exec (.vred x) s = execVred x s from rfl, execVred]
  exact issue_delivers hp rfl rfl rfl

theorem execVscan_gives {x : VScanR} (hp : Poised s (formV x.a x.d x.k) v) :
    VecGives (.vscan x) s (formV x.a x.d x.k) x.stall (fmtWidth (numFmt x.ty)) x.k v.k x.d 1
      (fun e => running (numFmt x.ty) x.rm x.ftz ((enabledBelow x.k v.k (e + 1)).map (element (fmtWidth (numFmt x.ty)) v.va)))
      (anySignals (numFmt x.ty) x.k v.k v.va) := by
  refine ⟨_, _, lanes_mapElems x.k v.k _ _ fun e he hen =>
    congrArg (· % _) (scan_value (numFmt_width x.ty) x.rm x.ftz x.k v.k v.va he hen),
    anySnan_iff x.k v.k (numFmt_width x.ty) v.va, ?_⟩
  rw [show exec (.vscan x) s = execVscan x s from rfl, execVscan]
  exact issue_delivers hp rfl rfl (by simp only [consumeAll_oldVec])

/-- The candidates that the model ranks are the statement's. -/
theorem candidates_eq {f : Fmt} (hf : fmtWidth f ≤ slotBits (fmtWidth f)) (ftz : Bool) (k : Src) (m : W64) (a : VImage) :
    (enabledOf (fmtWidth f) (maskOf k m)).map (fun e => (unpack f ftz (elem (fmtWidth f) a e), e)) = candidates f ftz k m a := by
  simp only [candidates, enabledOf_eq, elem_eq_held hf]

theorem execVrmaxi_delivers {x : VRmaxR} (hp : Poised s (formVS x.a x.d x.k) v) :
    exec (.vrmaxi x) s = .next (delivers s (formVS x.a x.d x.k) x.stall
      (match winner (candidates (numFmt x.ty) x.ftz x.k v.k v.va) with
        | some c => .two (BitVec.ofNat 64 (pack (numFmt x.ty) .rne false c.1)) (BitVec.ofNat 64 c.2) 1
        | none => .two (BitVec.ofNat 64 (nanCode (numFmt x.ty))) 0xFFFFFFFFFFFFFFFF 1) .seq
      (anySnan (numFmt x.ty) (maskOf x.k v.k) v.va)) := by
  rw [show exec (.vrmaxi x) s = execVrmaxi x s from rfl, execVrmaxi]
  refine issue_delivers hp rfl rfl ?_
  simp only [candidates_eq (numFmt_width x.ty)]
  cases winner (candidates (numFmt x.ty) x.ftz x.k v.k v.va) <;> rfl

/-- The places of the candidates rise. -/
theorem candidates_rise (f : Fmt) (ftz : Bool) (k : Src) (m : W64) (a : VImage) :
    (candidates f ftz k m a).Pairwise (·.2 < ·.2) :=
  List.pairwise_map.mpr (List.pairwise_lt_range.filter _)

/-- The bits of the word that VSELK gives. -/
theorem selected_iff (f : Fmt) (ftz : Bool) (k : Src) (m : W64) (a : VImage) (n e : Nat) :
    let l := candidates f ftz k m a
    (BitVec.ofNat 64 (bitsWhere ((l.filter (fun c => decide (rankIn ranksAbove l c < n))).map (·.2)) (fun _ => true))).getLsbD e =
      true ↔ ∃ c ∈ l, c.2 = e ∧ (l.filter (fun y => y.2 != c.2 && ranksAbove y c)).length < n := by
  intro l
  have hrise : ((l.filter (fun c => decide (rankIn ranksAbove l c < n))).map (·.2)).Pairwise (· < ·) :=
    List.pairwise_map.mpr ((candidates_rise f ftz k m a).filter _)
  have hplace : ∀ c ∈ l, c.2 < 64 := by
    intro c hc
    obtain ⟨i, hi, rfl⟩ := List.mem_map.mp hc
    have := ((mem_enabledBelow k m (count_le _)).mp hi).2.1
    omega
  rw [BitVec.getLsbD_ofNat, Bool.and_eq_true, decide_eq_true_iff, testBit_bitsWhere _ hrise]
  simp only [List.mem_map, List.mem_filter, and_true, rankIn]
  constructor
  · rintro ⟨-, c, ⟨hc, hrank⟩, rfl⟩
    exact ⟨c, hc, rfl, of_decide_eq_true hrank⟩
  · rintro ⟨c, hc, rfl, hrank⟩
    exact ⟨hplace c hc, c, ⟨hc, decide_eq_true hrank⟩, rfl⟩

theorem execVselk_delivers {x : VSelkR} {g : Form}
    (hg : g = { noOperands with a := .v x.a, b := .s x.b, k := .s x.k, d := .s x.d }) (hp : Poised s g v) :
    let l := candidates (rankFmt x.ty) x.ftz x.k v.k v.va
    exec (.vselk x) s = .next (delivers s g x.stall (.one (BitVec.ofNat 64 (bitsWhere
      ((l.filter (fun c => decide (rankIn ranksAbove l c < v.b.toNat))).map (·.2)) (fun _ => true))) 1) .seq
      (anySnan (rankFmt x.ty) (maskOf x.k v.k) v.va)) := by
  subst hg
  intro l
  rw [show exec (.vselk x) s = execVselk x s from rfl, execVselk]
  refine issue_delivers hp rfl rfl ?_
  simp only [candidates_eq (rankFmt_width x.ty)]
  rfl

end

/-- Settles O14: the model's tree is R72's over halves, the scan's value at an element is the sum of those up to it, a
ranking is the linear order of its places, whose greatest element wins and of which a group keeps the two with fewer than two
elements above them. -/
theorem reductionsAndRankingsFollowTheirOrder : Obligations.ReductionsAndRankingsFollowTheirOrder := by
  unfold Obligations.ReductionsAndRankingsFollowTheirOrder
  refine ⟨⟨fun x s v hp => ⟨_, anySnan_iff x.k v.k (numFmt_width x.ty) v.va, ?_⟩, fun x s v hp => execVscan_gives hp⟩,
    ⟨fun x s v hp => ⟨_, anySnan_iff x.k v.k (numFmt_width x.ty) v.va, execVrmaxi_delivers hp⟩,
      fun x s v hp => ⟨_, _, anySnan_iff x.k v.k (rankFmt_width x.ty) v.va, selected_iff _ _ _ _ _ _,
        execVselk_delivers rfl hp⟩,
      fun x s v hp => execVmaxi_delivers hp, fun x s v hp => ?_⟩,
    ranksByValue, winner_iff, fun f ftz b g => ?_⟩
  · rw [execVred_delivers hp]
    cases hop : x.op
    all_goals
      simp only [redResult, treeSum_inputs]
      split
      · next r h => simp only [h, Option.getD_some]
      · next h => simp only [h, Option.getD_none]
  · obtain ⟨sn, hsn, hexec⟩ := execVcmpr_delivers hp
    refine ⟨_, sn, fun g hg => ?_, fun i hlow hi => compress_rest _ _ _ _ _ _ hlow hi, hsn, hexec⟩
    have hbit := testBit_maskOf x.k v.k g
    have hvalue := compress_value (rankFmt x.ty) x.ftz (maskOf x.k v.k) (s.me.vCell x.d.val).val v.va v.vb hg
    have hfirst := hvalue 0 (by omega)
    have hsecond := hvalue 1 (by omega)
    have hindex := compress_index (rankFmt x.ty) x.ftz (maskOf x.k v.k) (s.me.vCell x.d.val).val v.va v.vb hg
    refine ⟨fun hen => ?_, fun hdis => ?_⟩
    · rw [if_pos (hbit.mpr hen)] at hfirst hsecond hindex
      exact ⟨hfirst, hsecond, hindex⟩
    · rw [if_neg (mt hbit.mp hdis)] at hfirst hsecond hindex
      exact ⟨hfirst, hsecond, hindex⟩
  · obtain ⟨hlt, hfour, hbest⟩ := keptPair_spec f ftz b g
    simp only [groupPlace_lt_iff] at hbest
    exact ⟨hlt, hfour, hbest⟩

end Sys2Proof.Machine
end

section
/-!
SUPPORT. A machine for the refutations of the statements about block words and about objects (R162, R167, R337, R354): a core whose
L1 holds a line of the host's memory.
-/

namespace Sys2Proof.Rules

open Sys2Proof.Machine

/-- A core whose f1 holds MXFP4. Its L1 holds as line 0x1800 (from 0x30000 on) 32 zero bytes for physical address 2^51, which
is the host's memory, as HBM4E's cells at that address read. The page at 0x20000 is the host's memory from 2^51 on, where
byte 0 is 2, the code of 1, and byte 16 is 127, the scale 2^0; the page at 0x40000 is HBM4E from 0 on. -/
def hostLine : State :=
  { State.reset with
    agenda := [], parts := [(0, { Partition.reset with stackSet := 1 })], hostMem := [(0, 2), (16, 127)]
    clusters := [(0, { Cluster.reset with tlb := [
      { part := 0, asid := 0, large := false, vpage := 2, leaf := 0x8000000000004 },
      { part := 0, asid := 0, large := false, vpage := 4, leaf := 8 }] })]
    cores := [(0, { Core.reset with
      slots := [(0, { Slot.reset with
        st := .running, hdr := 0x1000, idx := 1, block := [0xFE00000000000000, 0], fmt := [(1, 0x01013214)]
        n := [(1, { val := 0x20000, st := .now }), (2, { val := 0x30010, st := .now }), (3, { val := 0x30000, st := .now }),
          (4, { val := 0x40000, st := .now })] })]
      l1 := [{ part := 0, asid := 0, vline := 0x1800, pline := 2 ^ 46, cls := 0, dirty := 0, kept := false, data := 0 }] })] }

/-- The bytes of the host's memory there. -/
def hostByte (i : Nat) : Nat := if i = 0 then 2 else if i = 16 then 127 else 0

theorem hostLine_settled : Settled hostLine := by
  unfold Settled Clean
  decide +kernel

theorem hostLine_noRed : NoRed hostLine := by
  unfold NoRed NoClaim
  decide +kernel

theorem hostLine_unfenced : Unfenced hostLine := by
  unfold Unfenced
  decide +kernel

/-- The place that an address of .GLB has. -/
def hostPlace (need : Need) (a : W64) : Option Loc :=
  (resolve hostLine hostLine.cur.1 hostLine.me.thread .glb need true a 1).toOption

theorem placeOf_of_hostPlace {need : Need} {a : W64} {loc : Loc} (h : hostPlace need a = some loc) :
    placeOf hostLine .glb need a 1 loc := by
  unfold hostPlace at h
  unfold placeOf
  cases hr : resolve hostLine hostLine.cur.1 hostLine.me.thread .glb need true a 1 with
  | error f => rw [hr] at h; cases h
  | ok l => rw [hr] at h; cases h; rfl

theorem hostPlace_page : ∀ i < 20, hostPlace needLoad (0x20000 + BitVec.ofNat 64 i) = some (.mem (2 ^ 51 + i) 0x8000000000004) := by
  decide +kernel

theorem hostPlace_line : ∀ i < 32, hostPlace needLoad (0x30000 + BitVec.ofNat 64 i) = some (.hit 0x1800 i) := by
  decide +kernel

theorem hostPlace_home : ∀ i < 20, hostPlace needStore (0x40000 + BitVec.ofNat 64 i) = some (.mem i 8) := by
  decide +kernel

theorem cached_page : ∀ i < 20, Cached hostLine (0x20000 + BitVec.ofNat 64 i) := by
  unfold Cached
  decide +kernel

theorem cached_line : ∀ i < 32, Cached hostLine (0x30000 + BitVec.ofNat 64 i) := by
  unfold Cached
  decide +kernel

theorem cached_home : ∀ i < 20, Cached hostLine (0x40000 + BitVec.ofNat 64 i) := by
  unfold Cached
  decide +kernel

/-- The elements that the page holds. -/
theorem byteIs_page {i : Nat} (h : i < 20) : ByteIs hostLine .glb (0x20000 + BitVec.ofNat 64 i) (hostByte i) := by
  refine ⟨_, placeOf_of_hostPlace (hostPlace_page i h), ?_⟩
  revert i
  decide +kernel

/-- The bytes that the L1 line holds. -/
theorem byteIs_line {i : Nat} (h : i < 32) : ByteIs hostLine .glb (0x30000 + BitVec.ofNat 64 i) 0 := by
  refine ⟨_, placeOf_of_hostPlace (hostPlace_line i h), ?_⟩
  revert i
  decide +kernel

end Sys2Proof.Rules
end

section
/-!
PROOFS. The refutation of the statement about block words (R162, R167, R190), by a line of the own L1 that stands for the host's
memory.
-/

namespace Sys2Proof.Machine

open Sys2Proof.Rules

/-! ### What a word has left -/

/-- Work that keeps the slots leaves the trace of the current one as it was. -/
theorem trace_of_coresKept {u w : State} (h : CoresKept u w) : w.me.trace = u.me.trace := by
  obtain ⟨hcur, hslots, -⟩ := h
  have hslot := congrArg Slot.trace (hslots u.cur.1 u.cur.2)
  rw [State.me, hcur]
  exact hslot

/-- What the current slot has come to owe last. -/
def lastOwed (t : State) : Option OwedVal := t.me.owed.getLast?.map (·.val)

theorem owe_me (w : State) (val : OwedVal) :
    (owe w val).2.me = { w.me with owed := w.me.owed ++ [{ tag := w.fresh, val := val, op := w.me.opcode }] } := by
  simp only [owe]
  split
  · exact me_setMe _ _
  · exact me_setMe _ _

/-- A word with a vector register that is owed leaves the register among what its slot owes. -/
theorem lastOwed_owesVec {w : State} (ht : w.me.trace = false) (d : VReg) (stall : BitVec 3) (val : OwedVal) :
    lastOwed (owesVec w (.v d) stall val) = some val := by
  have hw (u : State) (tag : Nat) : writeResult u (.v d) (.owedVec tag) =
      u.setMe { u.me with v := mapSet u.me.v d.val { val := (u.me.vCell d.val).val, st := .pending tag 1 } } := rfl
  have htrace : (writeResult (owe w val).2 (.v d) (.owedVec (owe w val).1)).me.trace = false := by
    rw [hw, me_setMe, owe_me]
    exact ht
  have howed : (owesVec w (.v d) stall val).me.owed = w.me.owed ++ [{ tag := w.fresh, val := val, op := w.me.opcode }] := by
    simp only [owesVec, finish_seq htrace, me_setMe, hw, owe_me, Slot.issued]
  simp [lastOwed, howed]

end Sys2Proof.Machine

namespace Sys2Proof.Rules

open Sys2Proof.Machine

/-- A load of a block: the elements from the page, their scale from the line. -/
def hostVldb : VldbR := { stall := 0, fmt := 1, d := 1, a := .n 1, c := .n 2, sp := .glb, pol := .nrm, ord := .rlx, k := .z }

/-- Its operands. -/
def hostVldbForm : Form := { noOperands with a := .s hostVldb.a, c := .s hostVldb.c, k := .s hostVldb.k, d := .v hostVldb.d }

/-- Their values. -/
def hostVldbVals : Vals := { a := 0x20000, b := 0, c := 0x30010, k := 0, va := 0, vb := 0, vc := 0 }

theorem hostVldb_poised : Poised hostLine hostVldbForm hostVldbVals := by constructor <;> decide +kernel

/-- The format of the block: elements of four bits. -/
def hostFormat : Narrow := narrowOf 0x01013214

theorem hostFormat_width : hostFormat.width = 4 := by decide

/-- Every element byte has its place, and so has the scale. -/
theorem hostVldb_reach : BlockReach hostLine .glb needLoad hostFormat hostVldbVals.a hostVldbVals.c := by
  refine ⟨fun i hi => ⟨_, placeOf_of_hostPlace (hostPlace_page i ?_)⟩, fun i hi => ?_⟩
  · rw [hostFormat_width] at hi
    omega
  · obtain rfl : i = 0 := Nat.lt_one_iff.mp hi
    exact ⟨_, placeOf_of_hostPlace (hostPlace_line 16 (by omega))⟩

theorem hostVldb_free : BlockFree hostLine .glb hostFormat hostVldbVals.a hostVldbVals.c := by
  refine ⟨hostLine_noRed, hostLine_unfenced, fun i hi => ⟨hostLine_unfenced, fun _ => cached_page i ?_⟩,
    fun i hi => ⟨hostLine_unfenced, fun _ => ?_⟩⟩
  · rw [hostFormat_width] at hi
    omega
  · obtain rfl : i = 0 := Nat.lt_one_iff.mp hi
    exact cached_line 16 (by omega)

/-- The element bytes. -/
theorem hostVldb_elements : ∀ i < 4 * hostFormat.width, ByteIs hostLine .glb (hostVldbVals.a + BitVec.ofNat 64 i) (hostByte i) := by
  intro i hi
  rw [hostFormat_width] at hi
  exact byteIs_page (by omega)

/-- The scale byte: the one that the line holds. -/
theorem hostVldb_scale : ∀ i < scales hostFormat, ByteIs hostLine .glb (hostVldbVals.c + BitVec.ofNat 64 i) 0 := by
  intro i hi
  obtain rfl : i = 0 := Nat.lt_one_iff.mp hi
  exact byteIs_line (i := 16) (by omega)

/-- Lane 0 of the register that a word leaves owed. -/
def laneLoaded (o : Out) : Option Nat :=
  match o with
  | .next t => (lastOwed t).bind (fun val => match val with
    | .vector r => some (held 32 r 0)
    | _ => none)
  | _ => none

/-- The load finds the scale of the host's memory: 1 × 2^0. -/
theorem hostVldb_loads : laneLoaded (exec (.vldb hostVldb) hostLine) = some 0x3F800000 := by decide +kernel

/-- Under the scale byte that the line holds, lane 0 is 1 × 2^−127. -/
theorem hostVldb_stated : pack fmt32 .rne false (scaledRead hostFormat hostLine.me.topx 0 (packed hostByte hostFormat.width 0)) =
    0x400000 := by decide +kernel

end Sys2Proof.Rules

open Sys2Proof Sys2Proof.Machine Sys2Proof.Rules

/-- Refutes O40: `Settled` lets the own L1 hold a line of the host's memory, though no miss allocates one (R176, R337). In
`hostLine` the element bytes of a VLDB miss, to the bytes that this line stands for under another address, so the line leaves
L1 as a synonym (R190) before the scale is read; the scale then comes from the host's memory and is 127, where the line held 0. -/
theorem not_blockScaledAndSliceWordsMoveLanes : ¬ Obligations.BlockScaledAndSliceWordsMoveLanes := by
  unfold Obligations.BlockScaledAndSliceWordsMoveLanes
  rintro ⟨hvldb, -⟩
  obtain ⟨w, -, hcores, -, -, hvalue⟩ := hvldb hostVldb hostLine hostVldbVals hostVldb_poised (by unfold BlockFits; decide +kernel)
    (by decide) hostVldb_reach hostVldb_reach hostVldb_free
  obtain ⟨r, hexec, -, hlanes⟩ := hvalue hostByte (fun _ => 0) (.inr hostLine_settled) hostVldb_elements hostVldb_scale
  have hstated : held 32 r 0 = 0x400000 := (hlanes 0 ⟨by omega, .inl rfl⟩).trans hostVldb_stated
  have hlast := lastOwed_owesVec ((trace_of_coresKept hcores).trans (by decide +kernel)) hostVldb.d hostVldb.stall (.vector r)
  have hloaded := hostVldb_loads
  rw [hexec, laneLoaded, hlast, Option.bind_some, Option.some_inj, hstated] at hloaded
  exact absurd hloaded (by decide)

end

section
/-!
PROOFS. The refutation of the statement about objects and blocks (R162, R190, R354), by a line of the own L1 that stands for the
host's memory.
-/

namespace Sys2Proof.Machine

open Sys2Proof.Rules

/-- A word that issues without a result leaves the memory as its own part left it. -/
theorem goesOn_mem {w : State} (ht : w.me.trace = false) (stall : BitVec 3) : (goesOn w stall).mem = w.mem := by
  rw [goesOn, finish_seq (by rw [writeResult_none]; exact ht), writeResult_none]
  rfl

end Sys2Proof.Machine

namespace Sys2Proof.Rules

open Sys2Proof.Machine

/-- A sum of blocks: the one of the page and the one that begins with the line, to HBM4E. -/
def hostBaddq : BaddqR := { stall := 0, a := .n 4, b := .n 1, c := .n 3, fmt := 1 }

/-- Its operands. -/
def hostBaddqForm : Form := { noOperands with a := .s hostBaddq.a, b := .s hostBaddq.b, c := .s hostBaddq.c }

/-- Their values. -/
def hostBaddqVals : Vals := { a := 0x40000, b := 0x20000, c := 0x30000, k := 0, va := 0, vb := 0, vc := 0 }

theorem hostBaddq_poised : Poised hostLine hostBaddqForm hostBaddqVals := by constructor <;> decide +kernel

/-- The bytes of a block of that format. -/
theorem hostFormat_block : 4 * hostFormat.width + 4 = 20 := by decide

/-- Every byte at an address has its place. -/
def HostReach (need : Need) (a : W64) : Prop := ∀ i < 4 * hostFormat.width + 4, Cached hostLine (a + BitVec.ofNat 64 i) ∧
  (∃ l, resolve hostLine hostLine.cur.1 hostLine.me.thread .glb need true (a + BitVec.ofNat 64 i) 1 = .ok l) ∧
  ∃ l, placeOf hostLine .glb need (a + BitVec.ofNat 64 i) 1 l

theorem hostReach_of {need : Need} {a : W64} {loc : Nat → Loc} (hc : ∀ i < 20, Cached hostLine (a + BitVec.ofNat 64 i))
    (hp : ∀ i < 20, hostPlace need (a + BitVec.ofNat 64 i) = some (loc i)) : HostReach need a := by
  intro i hi
  rw [hostFormat_block] at hi
  have hplace := placeOf_of_hostPlace (hp i hi)
  exact ⟨hc i hi, ⟨_, hplace⟩, ⟨_, hplace⟩⟩

theorem hostReach_store : HostReach needStore hostBaddqVals.a := hostReach_of cached_home hostPlace_home

theorem hostReach_page : HostReach needLoad hostBaddqVals.b := hostReach_of cached_page hostPlace_page

theorem hostReach_line : HostReach needLoad hostBaddqVals.c :=
  hostReach_of (fun i hi => cached_line i (by omega)) (fun i hi => hostPlace_line i (by omega))

theorem regionOf_home : ∀ i < 20, regionOf i = .hbm 0 := by decide +kernel

theorem hostLine_flawless : Flawless hostLine := by
  unfold Flawless
  decide +kernel

/-- Byte 16 of HBM4E, the scale of the sum, as a word leaves it. -/
def scaleLeft (o : Out) : Option Nat :=
  match o with
  | .next t => some (cellGet t.mem 16).toNat
  | _ => none

/-- The word finds the block of the page twice: 1 + 1 has the scale 2^−1. -/
theorem hostBaddq_sums : scaleLeft (exec (.baddq hostBaddq) hostLine) = some 126 := by decide +kernel

/-- With the zeros that the line holds the sum is 1, which has the scale 2^−2. -/
theorem hostBaddq_stated : scaleChoose { hostFormat with sat := true } hostLine.me.topx
    (blockMax (2 ^ 32 - 1) (blockTotal hostFormat hostLine.me.topx hostByte (fun _ => 0)) 0 32) = 125 := by decide +kernel

end Sys2Proof.Rules

open Sys2Proof Sys2Proof.Machine Sys2Proof.Rules

/-- Refutes O54: `Settled` lets the own L1 hold a line of the host's memory, though no miss allocates one (R176, R337). In
`hostLine` the block at B of a BADDQ misses, to the bytes that this line stands for under another address, so the line leaves
L1 as a synonym (R190) before the block at C is read there; C then comes from the host's memory, and the sum is 2 where the
bytes that the line held give 1. -/
theorem not_objectsAreReachedThroughHandles : ¬ Obligations.ObjectsAreReachedThroughHandles := by
  unfold Obligations.ObjectsAreReachedThroughHandles
  rintro ⟨-, -, -, -, hbaddq⟩
  obtain ⟨w, hexec, hcores, -, htotal⟩ := hbaddq hostBaddq hostLine hostBaddqVals hostBaddq_poised (by decide +kernel)
    (by decide +kernel) (by decide +kernel) (by decide) (by decide) (by decide) hostReach_store hostReach_page hostReach_line
    hostLine_noRed hostLine_unfenced rfl hostLine_flawless
  obtain ⟨hscale, -⟩ := htotal hostByte (fun _ => 0) id hostLine_settled
    (fun i hi => byteIs_page (hi.trans_eq hostFormat_block))
    (fun i hi => byteIs_line ((hi.trans_eq hostFormat_block).trans (by omega)))
    (fun i hi => ⟨fun j hj => hj.ne', 8, 0, placeOf_of_hostPlace (hostPlace_home i (hi.trans_eq hostFormat_block)), by decide,
      regionOf_home i (hi.trans_eq hostFormat_block)⟩)
  have hleft := hostBaddq_sums
  rw [hexec, scaleLeft, goesOn_mem ((trace_of_coresKept hcores).trans (by decide +kernel)), Option.some_inj] at hleft
  exact absurd ((hleft.symm.trans hscale).trans hostBaddq_stated) (by decide)

end

section
/-!
PROOFS. Scalar floating-point words (R60, R63, R84, R107, R108): each family of words issues without checks and delivers its
operation of the operands' codes, noting a signalling NaN among them.
-/

namespace Sys2Proof.Machine

open Sys2Proof.Rules

/-! ### The families of words (R107, R108) -/

section
variable {s : State} {v : Vals}

theorem fpWord1_delivers (op : FpOp1) (lat : Nat) {x : Fp1} (hp : Poised s (formA x.a x.d) v) :
    let f := fpFmt x.ty
    fpWord1 op lat x s = .next (delivers s (formA x.a x.d) x.stall
      (.one (BitVec.ofNat 64 (fp1 op f x.rm x.ftz (code f v.a))) lat) .seq (isSnan f (code f v.a))) := by
  delta fpWord1
  exact issue_delivers hp rfl rfl rfl

theorem fpWord2_delivers (op : FpOp2) (lat : Nat) {x : Fp2} (hp : Poised s (formAB x.a x.b x.d) v) :
    let f := fpFmt x.ty
    fpWord2 op lat x s = .next (delivers s (formAB x.a x.b x.d) x.stall
      (.one (BitVec.ofNat 64 (fp2 op f x.rm x.ftz (code f v.a) (code f v.b))) lat) .seq
      (isSnan f (code f v.a) || isSnan f (code f v.b))) := by
  delta fpWord2
  exact issue_delivers hp rfl rfl rfl

theorem fpWord3_delivers (op : FpOp3) {x : Fp3} (hp : Poised s (formABC x.a x.b x.c x.d) v) :
    let f := fpFmt x.ty
    fpWord3 op x s = .next (delivers s (formABC x.a x.b x.c x.d) x.stall
      (.one (BitVec.ofNat 64 (fp3 op f x.rm x.ftz (code f v.a) (code f v.b) (code f v.c))) 0) .seq
      (isSnan f (code f v.a) || isSnan f (code f v.b) || isSnan f (code f v.c))) := by
  delta fpWord3
  exact issue_delivers hp rfl rfl rfl

theorem fpWordRel_delivers (r : FpRel) {x : Fp2n} (hp : Poised s (formAB x.a x.b x.d) v) :
    let f := fpFmt x.ty
    fpWordRel r x s = .next (delivers s (formAB x.a x.b x.d) x.stall
      (.one (if fpRel r f x.ftz (code f v.a) (code f v.b) then 1 else 0) 0) .seq
      (isSnan f (code f v.a) || isSnan f (code f v.b))) := by
  delta fpWordRel
  exact issue_delivers hp rfl rfl rfl

theorem execFclass_delivers {x : Fp1n} (hp : Poised s (formA x.a x.d) v) :
    let f := fpFmt x.ty
    execFclass x s = .next (delivers s (formA x.a x.d) x.stall
      (.one (BitVec.ofNat 64 (fpClass f (code f v.a))) 0) .seq (isSnan f (code f v.a))) := by
  delta execFclass
  exact issue_delivers hp rfl rfl rfl

end

/-! ### The words of a family -/

theorem fp1Gives_of {word : Fp1 → Instr} {op : FpOp1} {lat : Nat} (h : ∀ x s, exec (word x) s = fpWord1 op lat x s) :
    Fp1Gives word op lat := fun x s _ hp => (h x s).trans (fpWord1_delivers op lat hp)

theorem fp2Gives_of {word : Fp2 → Instr} {op : FpOp2} {lat : Nat} (h : ∀ x s, exec (word x) s = fpWord2 op lat x s) :
    Fp2Gives word op lat := fun x s _ hp => (h x s).trans (fpWord2_delivers op lat hp)

/-- FMIN and FMAX are two-source words in the mode RNE, of latency 0 (R63). -/
theorem fpMinGives_of {word : Fp2n → Instr} {op : FpOp2} (h : ∀ x s, exec (word x) s = fpWordMin op x s) :
    FpMinGives word op := fun x s _ hp => (h x s).trans (fpWord2_delivers op 0 hp)

theorem fp3Gives_of {word : Fp3 → Instr} {op : FpOp3} (h : ∀ x s, exec (word x) s = fpWord3 op x s) :
    Fp3Gives word op := fun x s _ hp => (h x s).trans (fpWord3_delivers op hp)

theorem fpCmpGives_of {word : Fp2n → Instr} {r : FpRel} (h : ∀ x s, exec (word x) s = fpWordRel r x s) :
    FpCmpGives word r := fun x s _ hp => (h x s).trans (fpWordRel_delivers r hp)

end Sys2Proof.Machine

open Sys2Proof Sys2Proof.Machine Sys2Proof.Rules

/-- Settles O9: each word is dispatched to its family with its operation and latency, and the family delivers. -/
theorem fpWordsDeliverTheirOperation : Obligations.FpWordsDeliverTheirOperation :=
  ⟨fp2Gives_of fun _ _ => rfl, fp2Gives_of fun _ _ => rfl, fp2Gives_of fun _ _ => rfl, fp2Gives_of fun _ _ => rfl,
    fpMinGives_of fun _ _ => rfl, fpMinGives_of fun _ _ => rfl,
    fp1Gives_of fun _ _ => rfl, fp1Gives_of fun _ _ => rfl, fp1Gives_of fun _ _ => rfl, fp1Gives_of fun _ _ => rfl,
    fp1Gives_of fun _ _ => rfl,
    fp3Gives_of fun _ _ => rfl, fp3Gives_of fun _ _ => rfl, fp3Gives_of fun _ _ => rfl,
    fpCmpGives_of fun _ _ => rfl, fpCmpGives_of fun _ _ => rfl, fpCmpGives_of fun _ _ => rfl,
    fpCmpGives_of fun _ _ => rfl, fun _ _ _ hp => execFclass_delivers hp⟩
end

section
/-!
PROOFS. The refutations of the statements about taking a trap (R90, R200, R201) and about what arrives at a slot (R133, R201),
by fault messages of the thread that stands for none.
-/

namespace Sys2Proof.Rules
open Sys2Proof.Machine

/-- A fault message that has been sent for a thread adds one flit, of the thread's partition, to what its core is to send. -/
theorem sentFor_of_faultSent {u t : State} {c k : Nat} {thr : Thread} {kind : Nat} {addr : W64} {flags info : Nat} {word : W64}
    (h : FaultSent u t c k thr kind addr flags info word) :
    sentFor (.next t) c = (u.core c).inject.map Flit.part ++ [thr.part] := by
  obtain ⟨fl, hinject, -, hpart, -⟩ := h
  rw [sentFor, hinject, List.map_append, List.map_singleton, hpart]

/-- The trap of a word that is no instruction. -/
def strayTrap : Trap := { code := 0x01, dk := 0, detail := 0 }

/-- It escalates on `strayThread`, which has no handler, and the fault message goes out for the partition of the core. -/
theorem strayThread_escalates : sentFor (.next (trapHere strayThread strayTrap)) 0 = [5] := by decide +kernel

/-- `strayThread` where the checker will disagree with the word that the slot commits next. -/
def strayWord : State := strayThread.setMe { strayThread.me with suspect := true }

/-- A NOP there. -/
def strayNop : BareI := { stall := 0 }

/-- The checker's fault message goes out for the partition of the core as well. -/
theorem strayWord_reports : sentFor (exec (.nop strayNop) strayWord) 0 = [5] := by decide +kernel

end Sys2Proof.Rules

open Sys2Proof Sys2Proof.Machine Sys2Proof.Rules

/-- Refutes O20: where the thread on the slot is `Thread.none`, the fault message of an escalated trap is sent for the partition
that owns the core's cluster (`faultPart`), not for the partition of the thread that `FaultSent` asks for; at `strayThread`
these are 5 and 0. -/
theorem not_trapEntersItsHandlerOrEscalates : ¬ Obligations.TrapEntersItsHandlerOrEscalates := by
  unfold Obligations.TrapEntersItsHandlerOrEscalates
  rintro ⟨-, hescalates⟩
  obtain ⟨-, -, -, -, -, -, hfault, -⟩ := hescalates strayThread strayTrap (.inl (by decide +kernel))
  have hsent := (sentFor_of_faultSent hfault).symm.trans strayThread_escalates
  exact absurd hsent (by decide +kernel)

/-- Refutes O55: where the thread on the slot is `Thread.none`, the fault message of a word that the checker rejects is sent for
the partition that owns the core's cluster (`faultPart`), not for the partition of the thread that `FaultSent` asks for; at
`strayWord` these are 5 and 0. -/
theorem not_arrivalsComeToTheirSlots : ¬ Obligations.ArrivalsComeToTheirSlots := by
  unfold Obligations.ArrivalsComeToTheirSlots
  rintro ⟨-, -, -, -, -, -, -, -, -, -, -, hrejected, -⟩
  obtain ⟨hfirst, -⟩ := hrejected strayNop strayWord 0 (by decide +kernel) (by decide +kernel) (by decide +kernel)
  obtain ⟨t, hexec, -, -, -, -, -, -, -, -, -, -, hfault⟩ := hfirst (by decide +kernel)
  have hreports := strayWord_reports
  rw [hexec] at hreports
  have hsent := (sentFor_of_faultSent hfault).symm.trans hreports
  exact absurd hsent (by decide +kernel)
end

section
/-!
SUPPORT. What a word that can issue comes to (R42, R87, R134): its result where it is a function of its sources, its own part
where the checker agrees, and a wait of its own.
-/

namespace Sys2Proof.Machine

/-! ### Words that are a function of their operands -/

/-- A word that can issue and is a function of A delivers its result. -/
theorem wordA_delivers {stall : BitVec 3} {a : Src} {d : Dst} {s : State} {v : Vals} (lat : Nat) (f : W64 → W64)
    (h : Poised s (formA a d) v) :
    wordA stall a d lat f s = .next (delivers s (formA a d) stall (.one (f v.a) lat) .seq false) :=
  issue_delivers h rfl rfl rfl

/-- A word that can issue and is a function of A and B delivers its result. -/
theorem wordAB_delivers {stall : BitVec 3} {a b : Src} {d : Dst} {s : State} {v : Vals} (lat : Nat) (f : W64 → W64 → W64)
    (h : Poised s (formAB a b d) v) :
    wordAB stall a b d lat f s = .next (delivers s (formAB a b d) stall (.one (f v.a v.b) lat) .seq false) :=
  issue_delivers h rfl rfl rfl

/-- A word that can issue and is a function of A, B and C delivers its result. -/
theorem wordABC_delivers {stall : BitVec 3} {a b c : Src} {d : Dst} {s : State} {v : Vals} (lat : Nat)
    (f : W64 → W64 → W64 → W64) (h : Poised s (formABC a b c d) v) :
    wordABC stall a b c d lat f s = .next (delivers s (formABC a b c d) stall (.one (f v.a v.b v.c) lat) .seq false) :=
  issue_delivers h rfl rfl rfl

/-! ### What a word's own part comes to where the checker agrees (R134) -/

section
variable {s s' : State} {d : Dest} {stall : Nat} (h : s.me.suspect = false)
include h

theorem conclude_done {r : Result} {p : Pos} {sn : Bool} : conclude s d stall (.done s' r p sn) = finish s' d stall r p sn := by
  simp [conclude, h]

theorem conclude_trap {kind : Nat} {t : Trap} : conclude s d stall (.fail kind (.trap t)) = trapHere s t := by
  simp [conclude, h]

end

/-! ### Words that wait by their own definition (R87) -/

/-- A word that can issue and waits by its own definition parks. -/
theorem issue_parks {stall : BitVec 3} {ck : Checks} {body : State → Vals → Act} {s : State} {v : Vals} {f : Form} {r : Reason}
    {g : State → State} (h : Poised s f v) (hpre : ck.pre s (avail s f) = none) (hmid : ck.mid s (avail s f) = none)
    (hb : body (consumeAll s f) v = .park r g) :
    issue stall f ck body s = .next (parkHere (g s) r) := by
  rw [issue_poised h hpre hmid, hb]
  rfl

end Sys2Proof.Machine
end

section
/-!
PROOFS. The statement about division (R92, R93): the four operations of `intAlu` that never trap.
-/

namespace Sys2Proof.Machine

open Sys2Proof.Rules

/-! ### Divisors of a width (R93) -/

section
variable {w : Nat} {b : W64}

/-- The divisor of a width is zero where its low bits are. -/
theorem setWidth_eq_zero_iff : b.setWidth w = 0 ↔ low w b = 0 := by
  rw [low_eq, BitVec.toNat_eq]
  rfl

/-- All ones are 2^w − 1. -/
theorem allOnes_eq_ofInt (w : Nat) : BitVec.allOnes w = BitVec.ofInt w (2 ^ w - 1) := by
  have h := eq_ofInt_toNat (BitVec.toNat_allOnes (v := w))
  rwa [Nat.cast_sub Nat.one_le_two_pow, Nat.cast_pow] at h

end

theorem alu_div : AluGives .div (fun w a b => if low w b = 0 then 2 ^ w - 1 else Int.tdiv (slow w a) (slow w b)) :=
    fun w _ a b => by
  simp only [intAlu, setWidth_eq_zero_iff, slow_eq]
  split
  · exact allOnes_eq_ofInt w
  · rw [← BitVec.ofInt_toInt (x := BitVec.sdiv _ _), BitVec.toInt_sdiv]
    exact BitVec.eq_of_toInt_eq (by simp)

theorem alu_divu : AluGives .divu (fun w a b => if low w b = 0 then 2 ^ w - 1 else low w a / low w b) := fun w _ a b => by
  simp only [intAlu, setWidth_eq_zero_iff]
  split
  · exact allOnes_eq_ofInt w
  · simp only [low_eq]
    exact_mod_cast eq_ofInt_toNat (BitVec.toNat_udiv ..)

theorem alu_rem : AluGives .rem (fun w a b => if low w b = 0 then slow w a else Int.tmod (slow w a) (slow w b)) :=
    fun w _ a b => by
  simp only [intAlu, setWidth_eq_zero_iff, slow_eq]
  split
  · rw [BitVec.ofInt_toInt]
  · rw [← BitVec.toInt_srem, BitVec.ofInt_toInt]

theorem alu_remu : AluGives .remu (fun w a b => if low w b = 0 then low w a else low w a % low w b) := fun w _ a b => by
  simp only [intAlu, setWidth_eq_zero_iff]
  split
  · exact eq_ofInt_toNat (low_eq w a).symm
  · simp only [low_eq]
    exact_mod_cast eq_ofInt_toNat (BitVec.toNat_umod ..)

end Sys2Proof.Machine

open Sys2Proof Sys2Proof.Machine Sys2Proof.Rules

/-- Settles O1: each word issues without checks, and its operation divides as R93 says, by zero too. -/
theorem divisionTruncatesAndNeverTraps : Obligations.DivisionTruncatesAndNeverTraps := by
  have h {op : IntOp} {val : Nat → W64 → W64 → Int} (g : AluGives op val) := @intGives_of_aluGives op val g
  exact ⟨h alu_div (fun _ _ => rfl) (fun _ _ => rfl), h alu_divu (fun _ _ => rfl) (fun _ _ => rfl),
    h alu_rem (fun _ _ => rfl) (fun _ _ => rfl), h alu_remu (fun _ _ => rfl) (fun _ _ => rfl)⟩
end

section
/-!
PROOFS. The statement about compares, selection, immediates and addresses (R40, R95–R97).
-/

namespace Sys2Proof.Machine

open Sys2Proof.Rules

theorem tyWidth_eq (ty : IntTy) : tyWidth ty = width4 ty := by cases ty <;> rfl

/-! ### Comparisons (R95) -/

/-- Whether two words of a width stand in the relation of a comparison. -/
def cmpHolds (op : CmpOp) {w : Nat} (x y : BitVec w) : Bool :=
  match op with
  | .eq => x == y
  | .ne => x != y
  | .lt => x.slt y
  | .le => x.sle y
  | .ltu => x.ult y
  | .leu => x.ule y

theorem cmpResult_eq (op : CmpOp) (ty : IntTy) (a b : W64) :
    cmpResult op ty a b = boolWord (cmpHolds op (a.setWidth (width4 ty)) (b.setWidth (width4 ty))) := by
  rw [← tyWidth_eq]
  cases op <;> rfl

/-- A comparison is a relation of the low bits of its operands. -/
def CmpMeans (op : CmpOp) (rel : Nat → W64 → W64 → Prop) : Prop :=
  ∀ (w : Nat) (a b : W64), cmpHolds op (a.setWidth w) (b.setWidth w) = true ↔ rel w a b

/-- A comparison word writes 1 where its relation holds and 0 elsewhere. -/
theorem cmpGives_of_cmpMeans {op : CmpOp} {rel : Nat → W64 → W64 → Prop} (h : CmpMeans op rel) {word : CmpR → Instr}
    (hw : ∀ x s, exec (word x) s = wordAB x.stall x.a x.b x.d 0 (cmpResult op x.w) s) : CmpGives word rel := by
  intro x s v hp
  refine ⟨cmpResult op x.w v.a v.b, fun hr => ?_, fun hr => ?_, by rw [hw, wordAB_delivers 0 _ hp]⟩
  · rw [cmpResult_eq, (h ..).2 hr]
    rfl
  · rw [cmpResult_eq, Bool.eq_false_iff.2 (fun e => hr ((h ..).1 e))]
    rfl

theorem cmp_eq : CmpMeans .eq (fun w a b => low w a = low w b) := fun w a b => by
  simp only [cmpHolds, beq_iff_eq, low_eq, BitVec.toNat_eq]

theorem cmp_ne : CmpMeans .ne (fun w a b => low w a ≠ low w b) := fun w a b => by
  simp only [cmpHolds, bne_iff_ne, ne_eq, low_eq, BitVec.toNat_eq]

theorem cmp_lt : CmpMeans .lt (fun w a b => slow w a < slow w b) := fun w a b => by
  simp only [cmpHolds, slow_eq, BitVec.slt_iff_toInt_lt]

theorem cmp_le : CmpMeans .le (fun w a b => slow w a ≤ slow w b) := fun w a b => by
  simp only [cmpHolds, slow_eq, BitVec.sle_iff_toInt_le]

theorem cmp_ltu : CmpMeans .ltu (fun w a b => low w a < low w b) := fun w a b => by
  simp only [cmpHolds, low_eq, BitVec.ult_iff_toNat_lt]

theorem cmp_leu : CmpMeans .leu (fun w a b => low w a ≤ low w b) := fun w a b => by
  simp only [cmpHolds, low_eq, BitVec.ule_iff_toNat_le]

/-! ### Selection, immediates and addresses (R95–R97) -/

theorem exec_sel (x : SelR) (s : State) :
    exec (.sel x) s = wordABC x.stall x.a x.b x.c x.d 0 (fun a b c => if a != 0 then b else c) s := rfl

theorem exec_li (x : LiI) (s : State) : exec (.li x) s = issue x.stall { noOperands with d := .s x.d } noChecks
    (fun s _ => .done s (.one (extImm x.zx x.imm) 0) .seq false) s := rfl

theorem exec_lih (x : LihI) (s : State) : exec (.lih x) s = issue x.stall (formI x.a x.d (x.imm.signExtend 64)) noChecks
    (fun s v => .done s (.one (x.imm ++ v.a.setWidth 32) 0) .seq false) s := rfl

theorem exec_lea (x : LeaM) (s : State) : exec (.lea x) s =
    wordAB x.stall x.a x.b x.d 0 (fun a b => a + (b <<< x.sh.toNat) + x.off.signExtend 64) s := rfl

/-- A word is zero where its number is. -/
theorem bne_zero_iff_toNat {a : W64} : (a != 0) = true ↔ a.toNat ≠ 0 := by
  rw [bne_iff_ne, ne_eq, BitVec.toNat_eq]
  rfl

/-- An immediate extended as ZX says (R40). -/
theorem extImm_eq (zx : Bool) (imm : BitVec 32) :
    extImm zx imm = if zx then BitVec.ofNat 64 imm.toNat else BitVec.ofInt 64 imm.toInt := by
  cases zx with
  | true => exact (BitVec.ofNat_toNat 64 imm).symm
  | false => rfl

/-- The halves that LIH puts together (R96). -/
theorem append_setWidth_eq (imm : BitVec 32) (a : W64) :
    imm ++ a.setWidth 32 = BitVec.ofNat 64 (imm.toNat * 2 ^ 32 + a.toNat % 2 ^ 32) := by
  have hlow : a.toNat % 2 ^ 32 < 2 ^ 32 := Nat.mod_lt _ (by decide)
  have hsum : imm.toNat * 2 ^ 32 + a.toNat % 2 ^ 32 < 2 ^ 64 := by omega
  apply BitVec.eq_of_toNat_eq
  rw [BitVec.toNat_append, BitVec.toNat_setWidth, ← Nat.shiftLeft_add_eq_or_of_lt hlow, Nat.shiftLeft_eq, BitVec.toNat_ofNat,
    Nat.mod_eq_of_lt hsum]

/-- The address that LEA computes (R97). -/
theorem lea_eq {w : Nat} (a b : W64) (sh : Nat) (off : BitVec w) :
    a + (b <<< sh) + off.signExtend 64 = BitVec.ofInt 64 (a.toNat + b.toNat * 2 ^ sh + off.toInt) := by
  have ha : BitVec.ofInt 64 (a.toNat : Int) = a := (eq_ofInt_toNat rfl).symm
  have hb : BitVec.ofInt 64 ((b.toNat : Int) * 2 ^ sh) = b <<< sh := by
    exact_mod_cast (eq_ofInt_of_toNat (by rw [BitVec.toNat_shiftLeft, Nat.shiftLeft_eq])).symm
  rw [BitVec.ofInt_add, BitVec.ofInt_add, ha, hb]
  rfl

end Sys2Proof.Machine

open Sys2Proof Sys2Proof.Machine Sys2Proof.Rules

/-- Settles O4: each word issues without checks and delivers the value that its operation computes. -/
theorem compareSelectAndImmediateWords : Obligations.CompareSelectAndImmediateWords := by
  have h {op : CmpOp} {rel : Nat → W64 → W64 → Prop} (g : CmpMeans op rel) := @cmpGives_of_cmpMeans op rel g
  refine ⟨⟨h cmp_eq (fun _ _ => rfl), h cmp_ne (fun _ _ => rfl), h cmp_lt (fun _ _ => rfl), h cmp_le (fun _ _ => rfl),
    h cmp_ltu (fun _ _ => rfl), h cmp_leu (fun _ _ => rfl), fun x s v hp => ?_⟩, fun x s v hp => ?_, fun x s v hp => ?_,
    fun x s v hp => ?_⟩
  · rw [exec_sel, wordABC_delivers 0 _ hp]
    simp only [bne_zero_iff_toNat]
  · rw [exec_li, extImm_eq]
    exact issue_delivers hp rfl rfl rfl
  · rw [exec_lih, ← append_setWidth_eq]
    exact issue_delivers hp rfl rfl rfl
  · rw [exec_lea, wordAB_delivers 0 _ hp, lea_eq]
end

section
/-!
PROOFS. The statement about bit words (R94): counts and patterns of the low bits of a word at any width.
-/

namespace Sys2Proof.Machine

open Sys2Proof.Rules

/-! ### Counts, from the bits of a number (R94) -/

/-- The first number below n + 1 that satisfies a test is 0, or one more than the first that satisfies the test of its
successor. -/
theorem find_range_succ (p : Nat → Bool) (n : Nat) : ((List.range (n + 1)).find? p).getD (n + 1) =
    if p 0 then 0 else 1 + ((List.range n).find? (fun i => p (i + 1))).getD n := by
  rw [List.range_succ_eq_map, List.find?_cons, List.find?_map]
  change (match p 0 with | true => some 0 | false => _).getD (n + 1) = _
  cases p 0 with
  | true => rfl
  | false =>
    change (Option.map Nat.succ (List.find? (fun i => p (i + 1)) (List.range n))).getD (n + 1) = _
    cases (List.range n).find? (fun i => p (i + 1)) with
    | none => exact Nat.add_comm n 1
    | some i => exact Nat.add_comm i 1

/-- Leading zeros are counted up to the highest bit that is one. -/
theorem clz_eq_find (x n : Nat) : clz x n = ((List.range n).find? (fun i => x.testBit (n - 1 - i))).getD n := by
  induction n with
  | zero => rfl
  | succ n ih =>
    have hi (i : Nat) : x.testBit (n + 1 - 1 - (i + 1)) = x.testBit (n - 1 - i) := congrArg _ (by omega)
    rw [clz, ih, find_range_succ]
    simp only [hi]
    rfl

/-- Trailing zeros are counted up to the lowest bit that is one. -/
theorem ctzFrom_eq_find (x i n : Nat) : ctzFrom x i n = ((List.range n).find? (fun j => x.testBit (i + j))).getD n := by
  induction n generalizing i with
  | zero => rfl
  | succ n ih =>
    rw [ctzFrom, ih, find_range_succ]
    simp only [Nat.add_zero, Nat.add_right_comm, Nat.add_assoc]

theorem popCount_eq_length (x n : Nat) : popCount x n = ((List.range n).filter x.testBit).length := by
  induction n with
  | zero => rfl
  | succ n ih =>
    rw [popCount, ih, List.range_succ, List.filter_append, List.length_append]
    cases h : x.testBit n <;> simp [h, Nat.add_comm]

theorem revBits_eq_sum (x w n : Nat) :
    revBits x w n = ((List.range n).map (fun i => (x.testBit i).toNat * 2 ^ (w - 1 - i))).sum := by
  induction n with
  | zero => rfl
  | succ n ih => rw [revBits, ih, List.range_succ, List.map_append, List.sum_append, Nat.add_comm]; simp

/-! ### Patterns (R94) -/

theorem pattern_eq (w n : Nat) : pattern w n = wrap w n := by
  rw [wrap_eq, BitVec.ofInt_natCast]
  rfl

/-- The magnitude of the low bits of a word, read as a signed number. -/
theorem abs_eq_natAbs {w x : Nat} (hw : 0 < w) (hx : x < 2 ^ w) :
    (if x.testBit (w - 1) then 2 ^ w - x else x) = Int.natAbs (Int.bmod x (2 ^ w)) := by
  obtain ⟨n, rfl⟩ := Nat.exists_eq_add_one.2 hw
  have hp : 2 ^ (n + 1) = 2 * 2 ^ n := by rw [Nat.pow_succ, Nat.mul_comm]
  have hb : x.testBit n = decide (2 ^ n ≤ x) := by
    have hlt : x / 2 ^ n < 2 := Nat.div_lt_of_lt_mul (by rwa [Nat.mul_comm, ← hp])
    rw [Nat.testBit_eq_decide_div_mod_eq, decide_eq_decide, Nat.mod_eq_of_lt hlt, Nat.div_eq_iff (Nat.two_pow_pos n)]
    omega
  rw [Nat.add_sub_cancel, hb, Int.bmod_def, Int.emod_eq_of_lt (by omega) (by exact_mod_cast hx), hp]
  have hpos := Nat.two_pow_pos n
  generalize 2 ^ n = p at *
  simp only [decide_eq_true_eq]
  split <;> split <;> omega

/-- A number subtracted from 2^w is its negative modulo 2^w. -/
theorem wrap_two_pow_sub {w x : Nat} (hx : x < 2 ^ w) : wrap w ((2 ^ w - x : Nat) : Int) = wrap w (-(x : Int)) := by
  rw [wrap, wrap, Nat.cast_sub hx.le, sub_eq_neg_add, Int.add_bmod_right]

/-! ### Unary bit words -/

/-- What a unary bit operation makes of the low bits of a word. -/
def bitValue (op : BitOp) (w x : Nat) : W64 :=
  match op with
  | .clz => BitVec.ofNat 64 (clz x w)
  | .ctz => BitVec.ofNat 64 (ctzFrom x 0 w)
  | .popc => BitVec.ofNat 64 (popCount x w)
  | .brev => pattern w (revBits x w w)
  | .sext => pattern w x
  | .zext => BitVec.ofNat 64 x
  | .abs => pattern w (if x.testBit (w - 1) then 2 ^ w - x else x)
  | .neg => pattern w (2 ^ w - x)

theorem bitResult_eq (op : BitOp) (ty : IntTy) (a : W64) :
    bitResult op ty a = bitValue op (width4 ty) (low (width4 ty) a) := by
  rw [← tyWidth_eq]
  cases op <;> rfl

/-- A bit operation computes a value of the low w bits of a word. -/
def BitMeans (op : BitOp) (val : Nat → Nat → W64) : Prop := ∀ w x : Nat, 0 < w → x < 2 ^ w → bitValue op w x = val w x

/-- A unary bit word gives the value that its operation computes. -/
theorem bitGives_of_bitMeans {op : BitOp} {val : Nat → Nat → W64} (h : BitMeans op val) {word : BitU → Instr}
    (hw : ∀ x s, exec (word x) s = wordA x.stall x.a x.d 0 (bitResult op x.w) s) : BitGives word val := by
  intro x s v hp
  have hval := h (width4 x.w) (low (width4 x.w) v.a) (by cases x.w <;> decide) (Nat.mod_lt _ (Nat.two_pow_pos _))
  rw [hw, wordA_delivers 0 _ hp, bitResult_eq, hval]

theorem bit_clz : BitMeans .clz (fun w x => BitVec.ofNat 64 (((List.range w).find? (fun i => x.testBit (w - 1 - i))).getD w)) :=
  fun w x _ _ => congrArg (BitVec.ofNat 64) (clz_eq_find x w)

theorem bit_ctz : BitMeans .ctz (fun w x => BitVec.ofNat 64 (((List.range w).find? x.testBit).getD w)) := fun w x _ _ => by
  rw [bitValue, ctzFrom_eq_find]
  simp only [Nat.zero_add]

theorem bit_popc : BitMeans .popc (fun w x => BitVec.ofNat 64 ((List.range w).filter x.testBit).length) :=
  fun w x _ _ => congrArg (BitVec.ofNat 64) (popCount_eq_length x w)

theorem bit_brev : BitMeans .brev
    (fun w x => wrap w ((List.range w).map (fun i => (x.testBit i).toNat * 2 ^ (w - 1 - i))).sum) := fun w x _ _ => by
  rw [bitValue, pattern_eq, revBits_eq_sum]

theorem bit_sext : BitMeans .sext (fun w x => wrap w x) := fun w x _ _ => pattern_eq w x

theorem bit_zext : BitMeans .zext (fun _ x => BitVec.ofNat 64 x) := fun _ _ _ _ => rfl

theorem bit_abs : BitMeans .abs (fun w x => wrap w (Int.natAbs (Int.bmod x (2 ^ w)))) := fun w x hw hx => by
  rw [bitValue, pattern_eq, abs_eq_natAbs hw hx]

theorem bit_neg : BitMeans .neg (fun w x => wrap w (-(x : Int))) := fun w x _ hx => by
  rw [bitValue, pattern_eq, wrap_two_pow_sub hx]

/-! ### Bit fields -/

theorem exec_bext (x : BitT) (s : State) :
    exec (.bext x) s = wordABC x.stall x.a x.b x.c x.d 0 (bextResult x.w) s := rfl

theorem exec_bins (x : BitT) (s : State) :
    exec (.bins x) s = wordABC x.stall x.a x.b x.c x.d 0 (binsResult x.w) s := rfl

/-- The field that BEXT takes out. -/
theorem bextResult_eq (ty : IntTy) (a b c : W64) : bextResult ty a b c =
    BitVec.ofNat 64 ((low (width4 ty) a >>> (b.toNat % 2 ^ 6)) &&& (2 ^ min (c.toNat % 2 ^ 7) (width4 ty) - 1)) := by
  rw [Nat.and_two_pow_sub_one_eq_mod, Nat.shiftRight_eq_div_pow, ← tyWidth_eq]
  rfl

/-- Bits put under a mask into a word, as numbers of its width. -/
theorem ofNat_insert (w : Nat) (a : W64) (n m : Nat) :
    BitVec.ofNat w ((low w a &&& (2 ^ w - 1 - m % 2 ^ w)) ||| (n &&& m % 2 ^ w)) =
      ((a.setWidth w) &&& ~~~(BitVec.ofNat w m)) ||| (BitVec.ofNat w n &&& BitVec.ofNat w m) := by
  have hm : m % 2 ^ w = (BitVec.ofNat w m).toNat := (BitVec.toNat_ofNat m w).symm
  rw [BitVec.ofNat_or, BitVec.ofNat_and, BitVec.ofNat_and, hm, ← BitVec.toNat_not, low_eq, BitVec.ofNat_toNat,
    BitVec.ofNat_toNat, BitVec.ofNat_toNat]
  simp only [BitVec.setWidth_eq]

/-- The word that BINS makes. -/
theorem binsResult_eq (ty : IntTy) (a b c : W64) :
    let w := width4 ty
    let p := c.toNat % 2 ^ 6
    let l := min (c.toNat / 2 ^ 8 % 2 ^ 7) w
    let mask := ((2 ^ l - 1) <<< p) % 2 ^ w
    binsResult ty a b c = wrap w ((low w a &&& (2 ^ w - 1 - mask)) ||| ((b.toNat <<< p) &&& mask) : Nat) := by
  intro w p l mask
  rw [← pattern_eq, pattern, ofNat_insert, Nat.shiftLeft_eq, Nat.shiftLeft_eq, binsResult, pattern, BitVec.ofNat_toNat,
    BitVec.setWidth_eq, tyWidth_eq]
  rfl

end Sys2Proof.Machine

open Sys2Proof Sys2Proof.Machine Sys2Proof.Rules

/-- Settles O3: each word issues without checks and delivers the value that its operation computes. -/
theorem bitWordsCountAndMoveBits : Obligations.BitWordsCountAndMoveBits := by
  have h {op : BitOp} {val : Nat → Nat → W64} (g : BitMeans op val) := @bitGives_of_bitMeans op val g
  refine ⟨h bit_clz (fun _ _ => rfl), h bit_ctz (fun _ _ => rfl), h bit_popc (fun _ _ => rfl), h bit_brev (fun _ _ => rfl),
    h bit_sext (fun _ _ => rfl), h bit_zext (fun _ _ => rfl), h bit_abs (fun _ _ => rfl), h bit_neg (fun _ _ => rfl),
    fun x s v hp => ?_, fun x s v hp => ?_⟩
  · intro w p l
    rw [exec_bext, wordABC_delivers 0 _ hp, bextResult_eq]
  · intro w p l mask
    rw [exec_bins, wordABC_delivers 0 _ hp, binsResult_eq]
end

section
/-!
PROOFS. The statement about ERET (R113).
-/

namespace Sys2Proof.Machine

open Sys2Proof.Rules

/-! ### The position that ERET goes to (R113) -/

section
variable {s : State} {tepc : W64} {idx : Nat}

/-- A saved position in a block whose header stands at an aligned address is returned to. -/
theorem returnTo_position {h : W64} (h0 : idx ≠ 0) (ha : (returnHdr tepc idx).toNat % 8 = 0)
    (hf : fetchAt s (returnHdr tepc idx) = .word h) (hh : h.toNat / 2 ^ 56 = 0xFE) (hi : idx ≤ hdrLen h + 2) :
    returnTo s tepc idx = .position (returnHdr tepc idx) idx := by
  simp [returnTo, h0, ha, hf, isHeader_iff.2 hh, Nat.not_lt.2 hi]

/-- Any other saved position whose header can be fetched is none. -/
theorem returnTo_bad (h : idx = 0 ∨ (returnHdr tepc idx).toNat % 8 ≠ 0 ∨
      ∃ h, fetchAt s (returnHdr tepc idx) = .word h ∧ (h.toNat / 2 ^ 56 ≠ 0xFE ∨ hdrLen h + 2 < idx)) :
    returnTo s tepc idx = .bad (returnHdr tepc idx) := by
  by_cases hq : idx = 0 ∨ (returnHdr tepc idx).toNat % 8 ≠ 0
  · exact if_pos (by simpa using hq)
  · rw [← or_assoc, or_iff_right hq] at h
    obtain ⟨w, hf, hw⟩ := h
    have hbad : (!isHeader w || decide (hdrLen w + 2 < idx)) = true := by
      rw [Bool.or_eq_true, Bool.not_eq_true', isHeader_false_iff, decide_eq_true_eq]
      exact hw
    rw [returnTo, if_neg (by simpa using hq)]
    simp only [hf, hbad, if_true]

end

/-- What ERET does, from the position that it goes to. -/
def eretAct (s : State) : Return → Act
  | .position h i => .done (s.setMe s.me.clearTin) .none (.at_ h i) false
  | .bad h => .fail 4 (.trap (trapBadtgt h))
  | .fail f => .fail 4 f
  | .poison => .poison (noteFetch s (returnHdr s.me.tepc (causeIdx s.me.tcause)))

/-- ERET that can issue does what its saved position asks for. -/
theorem eret_concludes (x : BareI) {s : State} {v : Vals} (h : Poised s noOperands v) :
    exec (.eret x) s = .next (conclude s .none x.stall.toNat (eretAct s (returnTo s s.me.tepc (causeIdx s.me.tcause)))) := by
  show execEret x s = _
  rw [execEret, issue_noChecks h, consumeAll_plain rfl]
  cases returnTo s s.me.tepc (causeIdx s.me.tcause) <;> rfl

end Sys2Proof.Machine

open Sys2Proof Sys2Proof.Machine Sys2Proof.Rules

/-- Settles O22: by the position that `returnTo` finds. -/
theorem eretResumesAtTheSavedPosition : Obligations.EretResumesAtTheSavedPosition := by
  intro x s v hp idx hdr
  refine ⟨fun h h0 ha hf hh hi => ?_, fun h => ?_⟩
  · rw [eret_concludes x hp, show causeIdx s.me.tcause = idx from rfl, returnTo_position h0 ha hf hh hi, eretAct,
      conclude_done hp.agrees]
    rfl
  · rw [eret_concludes x hp, show causeIdx s.me.tcause = idx from rfl, returnTo_bad h, eretAct, conclude_trap hp.agrees]
    rfl
end

section
/-!
PROOFS. The statement about the checks of system registers (R110, R340, R350).
-/

namespace Sys2Proof.Machine

open Sys2Proof.Rules

/-! ### Accesses that the checks of R110 refuse -/

section
variable {s : State} {reg : Nat} {writes : Bool}

/-- A register that is no service register, or one on a service core, is open to the slot. -/
theorem not_closed (hs : reg < 0x100 ∨ 0x1FF < reg ∨ s.isSvc s.cur.1 = true) :
    ¬ (0x100 ≤ reg ∧ reg ≤ 0x1FF ∧ s.isSvc s.cur.1 = false) := by
  rintro ⟨h1, h2, h3⟩
  rcases hs with hs | hs | hs
  · omega
  · omega
  · rw [hs] at h3; cases h3

variable (x : Avail)

/-- A service register on another core is refused, whether or not it is assigned. -/
theorem sysCheck_service (h1 : 0x100 ≤ reg) (h2 : reg ≤ 0x1FF) (hs : s.isSvc s.cur.1 = false) :
    (sysCheck reg writes).pre s x = some (trapPriv reg) := if_pos ⟨h1, h2, hs⟩

/-- A number that the table does not list is refused. -/
theorem sysCheck_unlisted (hs : reg < 0x100 ∨ 0x1FF < reg ∨ s.isSvc s.cur.1 = true) (hv : sysValue s reg = none) :
    (sysCheck reg writes).pre s x = some trapIllegal := by
  simp [sysCheck, not_closed hs, hv]

/-- A write of a read-only register is refused. -/
theorem sysCheck_readOnly (hs : reg < 0x100 ∨ 0x1FF < reg ∨ s.isSvc s.cur.1 = true) (hr : sysReadOnly reg = true) :
    (sysCheck reg true).pre s x = some trapIllegal := by
  cases hv : sysValue s reg with
  | none => exact sysCheck_unlisted x hs hv
  | some val =>
    simp only [sysCheck, if_neg (not_closed hs), hv, Option.isNone_some, hr, Bool.true_and, Bool.false_eq_true, if_false, if_true]

/-- `sys.cldser` without the debug flag is refused. -/
theorem sysCheck_cldser (hd : s.me.thread.debug = false) : (sysCheck 0x30 writes).pre s x = some (trapPriv 0x30) := by
  have hv : sysValue s 0x30 = some s.me.cldser := rfl
  have hr : (writes && sysReadOnly 0x30) = false := by cases writes <;> rfl
  simp [sysCheck, hv, hr, hd]

end

/-- The numbers that the table of R110 leaves out, the service registers left aside. -/
theorem sysValue_unlisted (s : State) {reg : Nat} (h : 0x200 ≤ reg ∨ (4 ≤ reg ∧ reg < 8) ∨ (0x16 ≤ reg ∧ reg < 0x20) ∨
    (0x23 ≤ reg ∧ reg < 0x30) ∨ (0x31 ≤ reg ∧ reg < 0x100)) : sysValue s reg = none := by
  unfold sysValue
  simp (disch := omega) only [if_neg]

/-- The service numbers that are not assigned. -/
theorem sysValue_unassigned (s : State) {reg : Nat} (h : reg = 0x107 ∨ (0x10B ≤ reg ∧ reg < 0x110) ∨
    (0x111 ≤ reg ∧ reg < 0x120) ∨ (0x130 ≤ reg ∧ reg < 0x200)) : sysValue s reg = none := by
  unfold sysValue
  simp (disch := omega) only [if_neg]

/-- The read-only registers (R110, R340, R350). -/
theorem sysReadOnly_true {reg : Nat}
    (h : (0x10 ≤ reg ∧ reg ≤ 0x22) ∨ (0x108 ≤ reg ∧ reg ≤ 0x10A) ∨ (0x120 ≤ reg ∧ reg ≤ 0x12F)) :
    sysReadOnly reg = true := by
  simp only [sysReadOnly, Bool.or_eq_true, Bool.and_eq_true, decide_eq_true_eq, beq_iff_eq]
  omega

section
variable {s : State} (hm : s.me.mayIssue = true) (hs : s.me.suspect = false)
include hm hs

/-- SYSRD of a register that the checks refuse traps. -/
theorem sysrd_traps {r : SysrdI} {t : Trap} (h : ∀ x, (sysCheck r.reg.toNat false).pre s x = some t) :
    exec (.sysrd r) s = .next (trapHere s t) := by
  rw [exec_sysrd]
  exact issue_trap hm hs (firstTrap_pre (h _))

/-- SYSWR of a register that the checks refuse traps. -/
theorem syswr_traps {r : SyswrI} {t : Trap} (h : ∀ x, (sysCheck r.reg.toNat true).pre s x = some t) :
    exec (.syswr r) s = .next (trapHere s t) := by
  rw [exec_syswr]
  exact issue_trap hm hs (firstTrap_pre (h _))

end

end Sys2Proof.Machine

open Sys2Proof Sys2Proof.Machine Sys2Proof.Rules

/-- Settles O24: each access fails the check that R110 makes of it. -/
theorem systemRegisterAccessIsChecked : Obligations.SystemRegisterAccessIsChecked := by
  intro s hm hs
  refine ⟨fun r h1 h2 hv => sysrd_traps hm hs (fun y => sysCheck_service y h1 h2 hv),
    fun w h1 h2 hv => syswr_traps hm hs (fun y => sysCheck_service y h1 h2 hv),
    fun r h => sysrd_traps hm hs (fun y => sysCheck_unlisted y (by omega) (sysValue_unlisted s h)), fun w h => ?_,
    fun hv => ?_,
    fun hd => ⟨fun r h => sysrd_traps hm hs (fun y => by rw [h]; exact sysCheck_cldser y hd),
      fun w h => syswr_traps hm hs (fun y => by rw [h]; exact sysCheck_cldser y hd)⟩⟩
  · refine syswr_traps hm hs (fun y => ?_)
    rw [← or_assoc] at h
    rcases h with h | h
    · exact sysCheck_readOnly y (by omega) (sysReadOnly_true (by omega))
    · exact sysCheck_unlisted y (by omega) (sysValue_unlisted s h)
  · intro unassigned
    refine ⟨fun r h => sysrd_traps hm hs (fun y => sysCheck_unlisted y (.inr (.inr hv)) (sysValue_unassigned s h)),
      fun w h => syswr_traps hm hs (fun y => ?_)⟩
    rcases h with h | h
    · exact sysCheck_unlisted y (.inr (.inr hv)) (sysValue_unassigned s h)
    · exact sysCheck_readOnly y (.inr (.inr hv)) (sysReadOnly_true (by omega))
end

section
/-!
PROOFS. The statement about words that wait or end their thread (R105, R106).
-/

namespace Sys2Proof.Machine

open Sys2Proof.Rules

/-! ### Words that wait for turns (R105) -/

section
variable {stall : BitVec 3} {ck : Checks} {body : State → Vals → Act} {s : State} {v : Vals}

/-- A word that waits for turns issues when none is left. -/
theorem issue_sleep_over (h : Poised s noOperands v) (hpre : ck.pre s (avail s noOperands) = none)
    (hmid : ck.mid s (avail s noOperands) = none) {left : Nat} (hb : body s v = sleepAct s left) (hl : left = 0) :
    issue stall noOperands ck body s = .next (delivers s noOperands stall .none .seq false) :=
  issue_delivers h hpre hmid (hb.trans (if_pos hl))

/-- It parks with reason sleep, the turns that are left noted, before. -/
theorem issue_sleep_left (h : Poised s noOperands v) (hpre : ck.pre s (avail s noOperands) = none)
    (hmid : ck.mid s (avail s noOperands) = none) {left : Nat} (hb : body s v = sleepAct s left) (hl : left ≠ 0) :
    issue stall noOperands ck body s = .next (parkHere (s.setMe { s.me with sleepLeft := some left }) .sleep) :=
  issue_parks h hpre hmid (hb.trans (if_neg hl))

end

/-- The turns that STALLN and PARK still wait for (R105). -/
def turnsLeft (s : State) (n : BitVec 32) : Nat := s.me.sleepLeft.getD (n.toNat - s.me.turnsSince)

/-- The check of STALLN's count (R105). -/
def stallnCheck (n : BitVec 32) : Checks := { noChecks with pre := fun _ _ => if n = 0 then some trapIllegal else none }

/-- What PARK does (R105). -/
def parkAct (n : BitVec 32) (s : State) : Act :=
  if s.me.msgWake then .done s .none .seq false
  else if n = 0 then .park .sleep id
  else sleepAct s (turnsLeft s n)

theorem exec_nop (x : BareI) (s : State) :
    exec (.nop x) s = issue x.stall noOperands noChecks (fun s _ => .done s .none .seq false) s := rfl

theorem exec_yield (x : BareI) (s : State) :
    exec (.yield x) s = issue x.stall noOperands noChecks (fun s _ => sleepAct s (s.me.sleepLeft.getD 1)) s := rfl

theorem exec_stalln (x : CountI) (s : State) :
    exec (.stalln x) s = issue x.stall noOperands (stallnCheck x.n) (fun s _ => sleepAct s (turnsLeft s x.n)) s := rfl

theorem exec_park (x : CountI) (s : State) :
    exec (.park x) s = issue x.stall noOperands noChecks (fun s _ => parkAct x.n s) s := rfl

/-- A count is zero where its number is. -/
theorem count_eq_zero_iff {n : BitVec 32} : n = 0 ↔ n.toNat = 0 := by
  rw [BitVec.toNat_eq]
  rfl

theorem parkAct_woken {s : State} (n : BitVec 32) (h : s.me.msgWake = true) : parkAct n s = .done s .none .seq false := if_pos h

theorem parkAct_forever {s : State} {n : BitVec 32} (h : s.me.msgWake = false) (hn : n = 0) : parkAct n s = .park .sleep id := by
  rw [parkAct, if_neg (by simp [h]), if_pos hn]

theorem parkAct_sleeps {s : State} {n : BitVec 32} (h : s.me.msgWake = false) (hn : n ≠ 0) :
    parkAct n s = sleepAct s (turnsLeft s n) := by
  rw [parkAct, if_neg (by simp [h]), if_neg hn]

/-! ### The end of a thread (R106) -/

theorem traceExit_background (s : State) (c k i : Nat) : Background s (traceExit s c k i) := by
  unfold traceExit
  extract_lets x h
  split
  · exact .refl s
  · split
    · exact .refl s
    · exact traceRec_background _ _ _ _ _ _

theorem Core.RestKept.isSealed {x y : Core} (h : Core.RestKept x y) : y.isSealed = x.isSealed := by
  obtain ⟨_, _, _, _, _, _, rfl⟩ := h
  rfl

/-- A fetcher that has no claim outstanding has none to settle. -/
theorem settleClaim_none {s : State} (h : s.me.fetcher.claiming = false) : settleClaim s = s := by
  have h' : (s.slot s.cur.1 s.cur.2).fetcher.claiming = false := h
  simp [settleClaim, performClaim, h']

/-- A slot that has been emptied: no thread, no bindings, and no message. -/
structure Slot.Vacant (x : Slot) : Prop where
  st : x.st = .empty
  streams : x.streams = []
  fetcher : x.fetcher = Fetcher.reset
  messages : ∀ k, (x.mreg k).full = false

theorem Slot.emptied_vacant (x : Slot) : x.emptied.Vacant := by
  refine ⟨rfl, rfl, rfl, fun k => ?_⟩
  have hm (m : Map MReg) : (mapGet MReg.reset (m.map (fun e => (e.1, { e.2 with full := false }))) k).full = false := by
    induction m with
    | nil => rfl
    | cons e m ih =>
      by_cases hk : e.1 = k
      · simp [mapGet, mapFind, hk]
      · simpa [mapGet, mapFind, hk] using ih
  exact hm x.m

theorem threadLeft_cores (s : State) (t : Thread) : (threadLeft s t).cur = s.cur ∧ (threadLeft s t).cores = s.cores := by
  unfold threadLeft postOnce
  extract_lets id u
  split
  · split <;> exact ⟨rfl, rfl⟩
  · exact ⟨rfl, rfl⟩

/-- A slot that is freed is vacant. -/
theorem freeSlot_vacant (s : State) (c k : Nat) : (freeSlot s c k).cur = s.cur ∧ ((freeSlot s c k).slot c k).Vacant := by
  unfold freeSlot
  extract_lets u v x w
  have hv : v.slot c k = (u.slot c k).emptied := slot_setSlot_self u c k _
  have hw : w.slot c k = v.slot c k := slot_setCore v (by rfl) c k
  have hcur : w.cur = s.cur := (scRelease_background s c).cur
  split
  · rw [hw, hv]
    exact ⟨hcur, Slot.emptied_vacant _⟩
  · change _ ∧ (w.slot c k).Vacant
    rw [hw, hv]
    exact ⟨hcur, Slot.emptied_vacant _⟩

/-- The slot of a thread that has ended is vacant. -/
theorem endThread_vacant (s : State) (c k : Nat) : (endThread s c k).cur = s.cur ∧ ((endThread s c k).slot c k).Vacant := by
  unfold endThread
  extract_lets t u
  obtain ⟨hcur, hvacant⟩ := freeSlot_vacant u c k
  obtain ⟨hcur', hcores⟩ := threadLeft_cores (freeSlot u c k) t
  refine ⟨hcur'.trans hcur, ?_⟩
  rwa [State.slot, State.core, hcores]

/-- The state in which EXIT ends its thread: its records written and its claim settled. -/
def exiting (s : State) : State :=
  let u := traceUnpark s s.cur.1 s.cur.2
  settleClaim (traceExit u u.cur.1 u.cur.2 u.me.idx)

/-- What EXIT does (R106). -/
def exitAct (s : State) : Act :=
  if s.me.anyPending then .park .result id
  else if s.me.loadActive then .park .cld id
  else .done (if (exiting s).myCore.isSealed then exiting s else endThread (exiting s) (exiting s).cur.1 (exiting s).cur.2)
    .none .gone false

theorem exec_exit (x : BareI) (s : State) :
    exec (.exit x) s = issue x.stall noOperands noChecks (fun s _ => exitAct s) s := rfl

theorem loadActive_iff {x : Slot} : x.loadActive = true ↔ x.record.state = .running ∨ x.record.state = .faulted := by
  simp [Slot.loadActive]

theorem exitAct_owing {s : State} (h : s.me.anyPending = true) : exitAct s = .park .result id := if_pos h

theorem exitAct_loading {s : State} (h : s.me.anyPending = false) (hl : s.me.loadActive = true) : exitAct s = .park .cld id := by
  rw [exitAct, if_neg (by simp [h]), if_pos hl]

/-- Where no claim is outstanding, a thread that exits has changed no slot and sealed no core. -/
theorem exiting_background {s : State} (h : s.me.fetcher.claiming = false) : Background s (exiting s) := by
  have hb (u : State) : Background u (traceExit u u.cur.1 u.cur.2 u.me.idx) := traceExit_background _ _ _ _
  have hu := (traceUnpark_background s s.cur.1 s.cur.2).trans (hb _)
  obtain ⟨m, hm⟩ := hu.me
  rw [exiting, settleClaim_none (by rw [hm]; exact h)]
  exact hu

/-- EXIT whose slot owes nothing and has no load under way leaves the slot vacant. -/
theorem exitAct_ends {s : State} (hp : s.me.anyPending = false) (hl : s.me.loadActive = false)
    (hc : s.me.fetcher.claiming = false) (hs : s.myCore.isSealed = false) :
    ∃ t, exitAct s = .done t .none .gone false ∧ t.cur = s.cur ∧ t.me.Vacant := by
  have hb := exiting_background hc
  have hsealed : (exiting s).myCore.isSealed = false := hb.myCore.rest.isSealed.trans hs
  obtain ⟨hcur, hvacant⟩ := endThread_vacant (exiting s) (exiting s).cur.1 (exiting s).cur.2
  refine ⟨endThread (exiting s) (exiting s).cur.1 (exiting s).cur.2, ?_, hcur.trans hb.cur, ?_⟩
  · rw [exitAct, if_neg (by simp [hp]), if_neg (by simp [hl]), if_neg (by simp [hsealed])]
  · rwa [State.me, hcur]

end Sys2Proof.Machine

open Sys2Proof Sys2Proof.Machine Sys2Proof.Rules

/-- Settles O8: each word by what it does once it can issue; EXIT by the slot that the end of a thread leaves. -/
theorem waitsAndExitIssueWhenTheyMay : Obligations.WaitsAndExitIssueWhenTheyMay := by
  refine ⟨⟨fun x s v hp => ?_, fun x s v hp => ⟨fun h => ?_, fun h => ?_⟩,
    fun x s v left hp hn hleft => ?_, fun x s v hp hn => ⟨?_, fun h => ?_, fun h => ?_⟩⟩,
    fun x s v hp => ⟨fun h => ?_, fun h hl => ?_, fun h hr hf hc hs => ?_⟩⟩
  · rw [exec_nop]
    exact issue_delivers hp rfl rfl rfl
  · rw [exec_yield]
    exact issue_sleep_over hp rfl rfl rfl (by rw [h]; rfl)
  · have hone : s.me.sleepLeft.getD 1 = 1 := by rw [h]; rfl
    rw [exec_yield, issue_sleep_left hp rfl rfl rfl (by rw [hone]; decide), hone]
  · have hne : x.n ≠ 0 := fun e => by rw [count_eq_zero_iff.1 e] at hn; omega
    have hcheck : (stallnCheck x.n).pre s (avail s noOperands) = none := if_neg hne
    obtain rfl : left = turnsLeft s x.n := hleft
    rw [exec_stalln, exec_park]
    refine ⟨issue_sleep_over hp hcheck rfl rfl, issue_sleep_left hp hcheck rfl rfl, fun h => ?_, fun hm => ?_⟩
    · cases hm : s.me.msgWake with
      | true => exact issue_delivers hp rfl rfl (parkAct_woken x.n hm)
      | false => exact issue_sleep_over hp rfl rfl (parkAct_sleeps hm hne) (h.resolve_left (by simp [hm]))
    · exact issue_sleep_left hp rfl rfl (parkAct_sleeps hm hne)
  · rw [exec_stalln]
    exact issue_trap hp.thread hp.agrees (firstTrap_pre (ck := stallnCheck x.n) (if_pos (count_eq_zero_iff.2 hn)))
  · rw [exec_park]
    exact issue_delivers hp rfl rfl (parkAct_woken x.n h)
  · rw [exec_park]
    exact issue_parks (body := fun s _ => parkAct x.n s) hp rfl rfl (parkAct_forever h (count_eq_zero_iff.2 hn))
  · rw [exec_exit]
    exact issue_parks (body := fun s _ => exitAct s) hp rfl rfl (exitAct_owing h)
  · rw [exec_exit]
    exact issue_parks (body := fun s _ => exitAct s) hp rfl rfl (exitAct_loading h (loadActive_iff.2 hl))
  · have hl : s.me.loadActive = false := Bool.eq_false_iff.2 (fun e => (loadActive_iff.1 e).elim hr hf)
    obtain ⟨t, hact, hcur, hvacant⟩ := exitAct_ends h hl hc hs
    refine ⟨t, ?_, hcur, hvacant.st, hvacant.streams, hvacant.fetcher, hvacant.messages⟩
    rw [exec_exit, issue_noChecks hp, consumeAll_plain rfl, hact, conclude_done hp.agrees]
    simp [finish, moveOn]
end

section
/-!
PROOFS. The statement about TRACE (R114, R345).
-/

namespace Sys2Proof.Machine

open Sys2Proof.Rules

/-! ### Memory under a write to a home (R236) -/

theorem foldl_mem {α : Type} {f : State → α → State} (h : ∀ s a, (f s a).mem = s.mem) (l : List α) (s : State) :
    (l.foldl f s).mem = s.mem := by
  induction l generalizing s with
  | nil => rfl
  | cons a l ih => exact (ih _).trans (h s a)

theorem setPoison_mem (s : State) (pa : Nat) (b : Bool) : (s.setPoison pa b).mem = s.mem := by
  unfold State.setPoison; split <;> rfl

theorem dirWrite_mem (s : State) (pa : Nat) (k : Option Nat) : (dirWrite s pa k).mem = s.mem := by
  unfold dirWrite; dsimp only
  split
  · rfl
  · split <;> rfl

theorem dropCopies_mem (s : State) (pa n : Nat) (k : Option Nat) : (dropCopies s pa n k).mem = s.mem := by
  refine (foldl_mem (fun s l => ?_) _ _).trans (foldl_mem (fun s l => ?_) _ s)
  · split
    · exact setPoison_mem _ _ _
    · rfl
  · split
    · rfl
    · exact setPoison_mem _ _ _

/-- Bytes that no core writes, put at a home in HBM4E, are the change of memory. -/
theorem homeWrite_none_mem (s : State) (hc : Bool) {pa m : Nat} (bs : List Byte) (h : regionOf pa = .hbm m) :
    (homeWrite s none hc pa bs).mem = putBytes s.mem pa bs := by
  unfold homeWrite
  split
  · next heq => rw [h] at heq; cases heq
  · extract_lets n u v x
    have hu : u.mem = s.mem := by
      unfold u; split
      · exact dropCopies_mem _ _ _ _
      · rfl
    have hx : x.mem = putBytes s.mem pa bs := by rw [← hu]; rfl
    split
    · exact (foldl_mem (fun s a => dirWrite_mem s a none) _ x).trans hx
    · exact hx
  · next heq => exact absurd h (heq m)

/-! ### Records (R345) -/

/-- A number read from bytes just written is the one that they hold there. -/
theorem num_putBytes (m : Memory) (p : Nat) (as bs cs : List Byte) :
    num (putBytes m p (as ++ bs ++ cs)) (p + as.length) bs.length = leValue bs := by
  have h := bytesAt_putBytes m p (as ++ bs ++ cs)
  rw [List.length_append, List.length_append, Nat.add_assoc] at h
  rw [← leValue_bytesAt, ← take_bytesAt _ _ _ cs.length, ← drop_bytesAt, h, List.append_assoc, List.drop_left, List.take_left]

theorem recBytes_length (slot ty dt a b : Nat) : (recBytes slot ty dt a b).length = 16 := by simp [recBytes]

/-- The fields of a record, read back from memory. -/
theorem num_record (m : Memory) (p : Nat) {slot ty dt a b : Nat} (h0 : ty + 16 * slot < 256) (hd : dt < 2 ^ 24)
    (ha : a < 2 ^ 32) (hb : b < 2 ^ 64) : let w := putBytes m p (recBytes slot ty dt a b)
    num w p 1 = ty + 16 * slot ∧ num w (p + 1) 3 = dt ∧ num w (p + 4) 4 = a ∧ num w (p + 8) 8 = b := by
  have hbyte : leValue [BitVec.ofNat 8 (ty + 16 * slot)] = ty + 16 * slot := by simpa [leValue] using h0
  have f0 := num_putBytes m p [] [BitVec.ofNat 8 (ty + 16 * slot)] (toBytes 3 dt ++ toBytes 4 a ++ toBytes 8 b)
  have f1 := num_putBytes m p [BitVec.ofNat 8 (ty + 16 * slot)] (toBytes 3 dt) (toBytes 4 a ++ toBytes 8 b)
  have f4 := num_putBytes m p (BitVec.ofNat 8 (ty + 16 * slot) :: toBytes 3 dt) (toBytes 4 a) (toBytes 8 b)
  have f8 := num_putBytes m p (BitVec.ofNat 8 (ty + 16 * slot) :: (toBytes 3 dt ++ toBytes 4 a)) (toBytes 8 b) []
  rw [hbyte] at f0
  rw [leValue_toBytes, Nat.mod_eq_of_lt hd] at f1
  rw [leValue_toBytes, Nat.mod_eq_of_lt ha] at f4
  rw [leValue_toBytes, Nat.mod_eq_of_lt hb] at f8
  simp only [List.nil_append, List.cons_append, List.append_assoc, List.append_nil, List.length_nil, List.length_cons,
    List.length_append, toBytes_length] at f0 f1 f4 f8
  simp only [recBytes, List.append_assoc]
  exact ⟨f0, f1, f4, f8⟩

section
variable {s : State} {c k ty a b : Nat} (ht : (s.slot c k).trace = true) (hb : (s.core c).ring.bound = true)
  (hl : (s.core c).ring.lost = 0) (hz : (s.core c).ring.size ≠ 0) (hd : s.clk.toNat - (s.core c).ring.lastClk ≤ 0xFFFFFE)
include ht hb hl hz hd

/-- A record of a traced slot, in a ring that has lost none, after a gap that its time field holds. -/
theorem traceRec_on :
    traceRec s c k ty a b = ringPut s c (recBytes k ty (s.clk.toNat - (s.core c).ring.lastClk) a b) := by
  simp only [traceRec, traceIf, ht, hb, beq_eq_false_iff_ne.2 hz, hl, ringRec, if_neg (Nat.not_lt.2 hd), Bool.not_true,
    Bool.or_self, Bool.false_eq_true, if_false, if_true]

/-- Where the ring has room, it is 16 bytes at the write offset. -/
theorem traceRec_room {m : Nat} (hroom : ((s.core c).ring.wr + 16) % (s.core c).ring.size ≠ (s.core c).ring.rd)
    (hr : regionOf ((s.core c).ring.base + (s.core c).ring.wr) = .hbm m) :
    (traceRec s c k ty a b).mem = putBytes s.mem ((s.core c).ring.base + (s.core c).ring.wr)
        (recBytes k ty (s.clk.toNat - (s.core c).ring.lastClk) a b) ∧
      ((traceRec s c k ty a b).core c).ring =
        { (s.core c).ring with wr := ((s.core c).ring.wr + 16) % (s.core c).ring.size, lastClk := s.clk.toNat } := by
  rw [traceRec_on ht hb hl hz hd]
  unfold ringPut; dsimp only
  rw [if_neg hroom, core_setCore_self, (homeWrite_background ..).clk]
  exact ⟨homeWrite_none_mem s true _ hr, rfl⟩

/-- In a full ring it is counted. -/
theorem traceRec_full (hfull : ((s.core c).ring.wr + 16) % (s.core c).ring.size = (s.core c).ring.rd) :
    (traceRec s c k ty a b).mem = s.mem ∧ ((traceRec s c k ty a b).core c).ring = { (s.core c).ring with lost := 1 } := by
  rw [traceRec_on ht hb hl hz hd]
  unfold ringPut; dsimp only
  rw [if_pos hfull, core_setCore_self, hl]
  exact ⟨rfl, rfl⟩

end

/-! ### Slots that run -/

theorem traceUnpark_running {s : State} {c k : Nat} (h : (s.slot c k).st = .running) : traceUnpark s c k = s := by
  simp only [traceUnpark, h]

theorem leavePark_running {s : State} (h : s.me.st = .running) : leavePark s = s := by
  unfold leavePark
  rw [traceUnpark_running h]
  simp only [h]

/-- A word without a result on a running slot moves the slot on. -/
theorem finish_running {s : State} (h : s.me.st = .running) (stall : Nat) :
    finish s .none stall .none .seq false = s.setMe { s.me.issued stall with idx := s.me.idx + 1 } := by
  unfold finish
  rw [writeResult_none]
  simp only [Bool.false_eq_true, if_false, traceUnpark_running (s := s) (c := s.cur.1) (k := s.cur.2) h, moveOn]

theorem leavePark_cur (s : State) : (leavePark s).cur = s.cur := by
  have hu := (traceUnpark_background s s.cur.1 s.cur.2).cur
  unfold leavePark; dsimp only
  split
  · exact hu
  · exact hu

/-- A slot that is not traced leaves its wait without a record. -/
theorem leavePark_untraced {s : State} (h : s.me.trace = false) :
    leavePark s = s ∨ leavePark s = s.setMe { s.me with st := .running } := by
  unfold leavePark
  rw [traceUnpark_off h]
  dsimp only
  split
  · exact .inr rfl
  · exact .inl rfl

/-- On a slot that is not traced a word that writes a record moves on as one that writes none. -/
theorem finish_record_untraced {s : State} (h : s.me.trace = false) (stall ty a b : Nat) :
    finish (traceRec (leavePark s) s.cur.1 s.cur.2 ty a b) .none stall .none .seq false =
      finish s .none stall .none .seq false := by
  rcases leavePark_untraced h with hl | hl
  · rw [hl, traceRec_off h]
  · have ht : (s.setMe { s.me with st := .running }).me.trace = false := by rw [me_setMe]; exact h
    have hr : traceRec (s.setMe { s.me with st := .running }) s.cur.1 s.cur.2 ty a b = _ := traceRec_off ht
    rw [hl, hr, finish_untraced (p := .seq) (by rwa [writeResult_none]) (by decide),
      finish_untraced (p := .seq) (by rwa [writeResult_none]) (by decide), writeResult_none, writeResult_none, setMe_setMe,
      me_setMe]
    rfl

/-! ### TRACE (R114) -/

/-- The operand form of TRACE. -/
def traceForm (x : TraceI) : Form := { formSrc x.a with imm := x.tag.signExtend 64 }

theorem exec_trace (x : TraceI) (s : State) : exec (.trace x) s = issue x.stall (traceForm x) noChecks
    (fun s v => .done (traceRec (leavePark s) s.cur.1 s.cur.2 0xC x.tag.toNat v.a.toNat) .none .seq false) s := rfl

/-- TRACE that can issue writes its record and moves on. -/
theorem trace_concludes {x : TraceI} {s : State} {v : Vals} (h : Poised s (traceForm x) v) :
    exec (.trace x) s = .next (finish
      (traceRec (leavePark (consumeAll s (traceForm x))) s.cur.1 s.cur.2 0xC x.tag.toNat v.a.toNat) .none
      x.stall.toNat .none .seq false) := by
  rw [exec_trace, issue_noChecks h, consumeAll_cur]
  rw [conclude_done h.agrees]
  rfl

section
variable {s : State} (h : s.me.st = .running) (stall ty a b : Nat)
include h

/-- A word on a running slot that writes a record changes neither registers nor the queue and goes on to the next word. -/
theorem finish_record_slot : let t := finish (traceRec s s.cur.1 s.cur.2 ty a b) .none stall .none .seq false
    t.me.hdr = s.me.hdr ∧ t.me.idx = s.me.idx + 1 ∧ t.me.n = s.me.n ∧ t.me.q = s.me.q ∧ t.me.v = s.me.v ∧
      t.me.status = s.me.status := by
  obtain ⟨m, hm⟩ := (traceRec_background s s.cur.1 s.cur.2 ty a b).me
  rw [finish_running (by rw [hm]; exact h)]
  dsimp only
  rw [me_setMe, hm]
  exact ⟨rfl, rfl, rfl, rfl, rfl, rfl⟩

/-- Memory and the ring are as the record leaves them. -/
theorem finish_record_ring : let t := finish (traceRec s s.cur.1 s.cur.2 ty a b) .none stall .none .seq false
    t.mem = (traceRec s s.cur.1 s.cur.2 ty a b).mem ∧
      t.myCore.ring = ((traceRec s s.cur.1 s.cur.2 ty a b).core s.cur.1).ring := by
  have hb := traceRec_background s s.cur.1 s.cur.2 ty a b
  obtain ⟨m, hm⟩ := hb.me
  rw [finish_running (by rw [hm]; exact h)]
  dsimp only
  rw [myCore_setMe, State.myCore, hb.cur]
  exact ⟨rfl, rfl⟩

end

end Sys2Proof.Machine

open Sys2Proof Sys2Proof.Machine Sys2Proof.Rules

/-- Settles O25: the record is 16 bytes put at the write offset, or one more lost. -/
theorem traceWritesAMarkerOnlyWhenTraced : Obligations.TraceWritesAMarkerOnlyWhenTraced := by
  intro x s v g hp u r p
  have hcur : s.cur = u.cur := (consumeAll_cur s g).symm
  have hexec := trace_concludes (x := x) hp
  change exec (.trace x) s = .next (finish (traceRec (leavePark u) _ _ _ _ _) _ _ _ _ _) at hexec
  refine ⟨hexec, fun ht => ?_, fun m ht hst hk hb hl hz hd _ hr => ?_⟩
  · rw [hexec, hcur, finish_record_untraced ht]
    rfl
  · have hrun : u.me.st = .running := (consumeAll_st_ s g).trans hst
    rw [leavePark_running hrun, hcur] at hexec
    obtain ⟨hhdr, hidx, hn, hq, hv, hstatus⟩ := finish_record_slot hrun x.stall.toNat 0xC x.tag.toNat v.a.toNat
    obtain ⟨hmem, hring⟩ := finish_record_ring hrun x.stall.toNat 0xC x.tag.toNat v.a.toNat
    refine ⟨_, hexec, hhdr.trans (consumeAll_hdr_ s g), hidx.trans (congrArg (· + 1) (consumeAll_idx_ s g)), hn, hq, hv,
      hstatus, fun hroom => ?_, fun hfull => ?_⟩
    · obtain ⟨hmem', hring'⟩ := traceRec_room (s := u) (k := u.cur.2) ht hb hl hz hd hroom hr
      obtain ⟨h0, h1, h4, h8⟩ := num_record u.mem p (slot := u.cur.2) (ty := 0xC) (dt := u.clk.toNat - r.lastClk)
        (by rw [← hcur]; omega) (by omega) x.tag.isLt v.a.isLt
      rw [hmem, hring, hmem', hring', hcur]
      exact ⟨h0, h1, h4, h8, fun a ha => cellGet_putBytes_outside _ _ _ (by rwa [recBytes_length]), rfl⟩
    · obtain ⟨hmem', hring'⟩ := traceRec_full (s := u) (k := u.cur.2) ht hb hl hz hd hfull
      exact ⟨hmem.trans hmem', hring.trans hring'⟩
end

section
/-!
PROOFS. The refutation of the statement about NEST and ITER (R103, R200, R214), by a page fault of the thread that stands for
none.
-/

namespace Sys2Proof.Rules
open Sys2Proof.Machine

/-- `strayThread` at the one word of a loop-head block. -/
def strayLoop : State := strayThread.setMe { strayThread.me with block := [0xFE00000010000000, 0] }

/-- An ITER of n0 whose exit is the word itself. -/
def strayIter : IterC := { stall := 0, d := 0, cnt := .one, disp := 0 }

/-- The ITER can issue there. -/
theorem strayLoop_poised :
    Poised strayLoop (iterForm strayIter) { a := 0, b := 0, c := 0, k := 0, va := 0, vb := 0, vc := 0 } := by
  constructor <;> decide +kernel

/-- Its exit is not mapped. -/
theorem strayLoop_fetch : fetchAt strayLoop (target strayLoop 0) = .fail (.page 0x1008 4) := by decide +kernel

/-- The fault message goes out for the partition of the core. -/
theorem strayLoop_sends : sentFor (exec (.iter strayIter) strayLoop) 0 = [5] := by decide +kernel

end Sys2Proof.Rules

open Sys2Proof Sys2Proof.Machine Sys2Proof.Rules

/-- Refutes O7: where no fetcher is bound and the thread on the slot is `Thread.none`, the fault message of an ITER whose exit
page-faults is sent for the partition that owns the core's cluster (`faultPart`), not for the partition of the thread that
`FaultSent` asks for; at `strayLoop` these are 5 and 0. -/
theorem not_nestBindsAndIterHandsOutIndices : ¬ Obligations.NestBindsAndIterHandsOutIndices := by
  rintro ⟨-, hiter⟩
  obtain ⟨hexit, -⟩ := hiter strayIter strayLoop _ strayLoop_poised (by decide +kernel) (by decide +kernel)
  obtain ⟨-, -, hpage⟩ := hexit (.inl (by decide +kernel))
  obtain ⟨t, hexec, -, -, -, -, -, -, -, -, -, hfault⟩ := hpage 0x1008 4 (by decide +kernel) strayLoop_fetch
  have hsends := strayLoop_sends
  rw [hexec] at hsends
  have hsent := (sentFor_of_faultSent hfault).symm.trans hsends
  exact absurd hsent (by decide +kernel)
end
